-- ==== Sys2Proof/Word.lean ====
section
/-!
DEFINITION. Word.lean: the word types of the device (spec 00, "Numbers and units", and R11): a 64-bit register word,
a 64-byte line, a byte.
-/
namespace Sys2Proof

/-- A 64-bit register, descriptor or data word. -/
abbrev Word := BitVec 64

/-- A 64-byte line of data (R11); byte 0 of the line is the low byte. -/
abbrev Line := BitVec 512

/-- One byte. -/
abbrev Byte := BitVec 8

end Sys2Proof
end

