-- ==== Sys2Proof/Machine/Codes.lean ====
section
/-!
DEFINITION. Machine/Codes.lean: the named alternatives of the spec: status codes (R8), privilege levels (R63), domain
states (R32), sharing modes (R39), location kinds (R187), core states (R245) and the like.
-/
namespace Sys2Proof.Machine

/-- Status codes, R8. -/
inductive Status where
  | ok | busy | denied | invalid | notReady | abortedByWake | noSpace | timeout | conflict | poisoned | locked
  | retry | faulted
  deriving DecidableEq, Repr

/-- Privilege levels, R63. -/
inductive Priv where
  | p0 | p1 | p2 | p3
  deriving DecidableEq, Repr

/-- Permission bits of a Gate rule, R63. -/
inductive Perm where
  | r | w | x
  deriving DecidableEq, Repr

/-- Domain states, R32. -/
inductive DState where
  | free | active | quiescing | contained | retiring
  deriving DecidableEq, Repr

/-- Sharing modes of a window, R39. -/
inductive Mode where
  | priv | scoh | snco
  deriving DecidableEq, Repr

/-- Location kinds of a parcel, R187. -/
inductive Kind where
  | zero | pool | oasis | duplex | poisoned
  deriving DecidableEq, Repr

/-- Move states of a map entry, R186. -/
inductive MState where
  | none | copying | switching
  deriving DecidableEq, Repr

/-- Pool device states, R199. -/
inductive PState where
  | absent | scrubbing | active | evacuating | lost
  deriving DecidableEq, Repr

/-- Directory states of a snoop filter entry, R128. -/
inductive Dir where
  | s | e | m | o | wbp
  deriving DecidableEq, Repr

/-- Snoops, R139: of a local host (BISnp) and of a remote switch (HSNP). -/
inductive Snoop where
  | inv | data | cur
  deriving DecidableEq, Repr

/-- Snoop answers, R140. -/
inductive Ans where
  | i | s | e
  deriving DecidableEq, Repr

/-- MetaValue of a CXL.mem message, with MetaField No-Op, R142. -/
inductive Meta where
  | s | a | i | noOp
  deriving DecidableEq, Repr

/-- Falgan core states, R245. -/
inductive CState where
  | reset | run | wait | sleep | halted | faulted
  deriving DecidableEq, Repr

/-- Meld operations, R162. -/
inductive MeldOp where
  | add | and | or | xor | smin | smax | umin | umax | swap | cas
  deriving DecidableEq, Repr

/-- Widths of a Meld operand, R162. -/
inductive MeldW where
  | w32 | w64 | w128
  deriving DecidableEq, Repr

/-- Scope of a fault source, R481. -/
inductive Scope where
  | none | domain | port
  deriving DecidableEq, Repr

/-- What a vPPB is bound to, R35. -/
inductive VTarget where
  | kmd (dom : Nat)
  | port (port : Nat)
  | ld (port ld : Nat)
  deriving DecidableEq, Repr

/-- Lifecycle states, spec 16 R454. -/
inductive Life where
  | manufacture | provisioned | sealed | debugUnlocked | decommissioned
  deriving DecidableEq, Repr

end Sys2Proof.Machine
end

