-- ==== Sys2Proof/Syntax.lean ====
section
/-!
DEFINITION. Syntax.lean: the commands of the device, one constructor for each row of spec/opcode_table.json, in the table's order, with
the row's operands. Commands of a Falgan core name the core and the fields of its instruction word; events of the environment carry
what the environment decides (a level, an error found, a check that passed). `core`, `gd`, `ga`, `gb` and `imm` are those fields, `err`
is an error found by ECC: 0 none, 1 corrected, 2 uncorrectable.
-/
namespace Sys2Proof
open Sys2Proof.Machine

/-- A command. -/
inductive Instr where
  /-- FLIT_RECEIVE (R87). A CXL flit is received whole on a port: sequence check, credit accounting and admission into Erg cells all or none. -/
  | flitReceive (port : Nat) (seq : Nat) (err : Nat) (tlp : Option Nat) (classes : List Nat)
  /-- MEMRD (R142). A host MemRd enters its VCS and is decoded, translated, Gate-checked, placed and served as RdS, RdA or RdI according to its MetaValue. -/
  | memrd (port : Nat) (tag : Nat) (hpa : Nat) (mv : Meta) (err : Nat)
  /-- MEMRDDATA (R142). A host MemRdData is handled as a shared read. -/
  | memrddata (port : Nat) (tag : Nat) (hpa : Nat) (err : Nat)
  /-- MEMINV (R142). A host MemInv is handled as InvA with MetaValue A, or as a clean eviction otherwise. -/
  | meminv (port : Nat) (tag : Nat) (hpa : Nat) (mv : Meta) (err : Nat)
  /-- MEMWR (R23). A host MemWr is decoded, checked and sent to its location, and its Cmp is returned at the completion point. -/
  | memwr (port : Nat) (tag : Nat) (hpa : Nat) (mv : Meta) (data : Line) (poison : Bool) (err : Nat)
  /-- MEMWRPTL (R139). A host partial write is merged into its line under the directory transitions. -/
  | memwrptl (port : Nat) (tag : Nat) (hpa : Nat) (mv : Meta) (data : Line) (mask : Word) (poison : Bool) (err : Nat)
  /-- MEMCLNEVCT (R139). A host clean eviction removes the host from the line's holders and is answered with Cmp. -/
  | memclnevct (port : Nat) (tag : Nat) (hpa : Nat)
  /-- MEMSPECRD (R142). A host MemSpecRd is accepted and discarded. -/
  | memspecrd (port : Nat) (hpa : Nat)
  /-- BIRSPI (R140). A host BIRspI answer to a snoop moves the line. -/
  | birspi (port : Nat) (id : Nat)
  /-- BIRSPS (R140). A host BIRspS answer to a snoop makes the owner a sharer. -/
  | birsps (port : Nat) (id : Nat)
  /-- BIRSPE (R140). A host BIRspE answer to a BISnpCur lets the owner keep E or M. -/
  | birspe (port : Nat) (id : Nat)
  /-- BICONFLICT (R142). A host BIConflict is answered with BIConflictAck after any completion already sent for that line. -/
  | biconflict (port : Nat) (id : Nat)
  /-- GATE_CACHE_FILL (R83). A rule list missing from the rule cache is loaded and the waiting Gate check proceeds. -/
  | gateCacheFill (list : Nat)
  /-- PLACEMENT_TLB_FILL (R190). A placement TLB miss completes its map read from the Oasis, fills the TLB and releases the merged waiting requests. -/
  | placementTlbFill (idx : Nat)
  /-- FILL_COMMIT (R193). Dealer takes backing under the domain's constraints and commits the fill in one map write, releasing held accesses. -/
  | fillCommit (idx : Nat)
  /-- FILL_WAIT_EXPIRE (R194). FILL_WAIT passes for a stalled fill; the entry becomes POISONED, held writes are discarded and reads get poison. -/
  | fillWaitExpire (idx : Nat)
  /-- POOL_MEMDATA (R23). A pool device's MemData response is admitted, matched to its tag and queued to the host. -/
  | poolMemdata (port : Nat) (tag : Nat) (data : Line) (poison : Bool)
  /-- POOL_CMP (R23). A pool device's Cmp is admitted and the host's Cmp is returned when the location's completion point is met. -/
  | poolCmp (port : Nat) (tag : Nat)
  /-- POOL_ERROR_RESPONSE (R561). A pool device answers a MemRd with something other than MemData; the read is treated as poisoned from that leg and reissued or poisoned. -/
  | poolErrorResponse (port : Nat) (tag : Nat)
  /-- PASSTHROUGH_FORWARD (R24). A host CXL.io or CXL.cache record to a pass-through device is forwarded from the Erg to its bound port. -/
  | passthroughForward (port : Nat) (vppb : Nat) (id : Nat) (len : Nat) (cls : Nat) (isReq : Bool)
  /-- PBR_FLIT (R403). A PBR flit on a fabric port is routed by its DPID to an exported port or a fabric port, or discarded. -/
  | pbrFlit (port : Nat) (dpid : Nat) (id : Nat) (len : Nat) (ioReq : Bool) (isReq : Bool)
  /-- KMD_CONFIG_ACCESS (R24). A host CXL.io access reaches a KMD instance's configuration, registers or mailbox. -/
  | kmdConfigAccess (vcs : Fin 64) (dom : Fin 4096) (bar : Bool) (offset : Fin 65536) (wr : Bool) (value : Word)
  /-- HDM_DECODER_COMMIT (R38). A host commits an HDM decoder; firmware creates the windows and the commit succeeds or fails with the decoder error status. -/
  | hdmDecoderCommit (vcs : Nat) (dom : Nat) (dec : Nat) (hpa : Nat) (size : Nat) (da : Nat) (bi : Bool)
  /-- ATOMICOP_FETCHADD (R168). A host FetchAdd at BAR2 is decoded by operation window into a Meld operation and executed at the home Meld unit. -/
  | atomicopFetchadd (port : Nat) (vppb : Nat) (tag : Nat) (off : Nat) (w : MeldW) (a : Nat)
  /-- ATOMICOP_SWAP (R168). A host Swap AtomicOp in window 0 is executed as SWAP, or refused elsewhere. -/
  | atomicopSwap (port : Nat) (vppb : Nat) (tag : Nat) (off : Nat) (w : MeldW) (a : Nat)
  /-- ATOMICOP_CAS (R168). A host CAS AtomicOp in window 0 is executed as CAS, or refused elsewhere. -/
  | atomicopCas (port : Nat) (vppb : Nat) (tag : Nat) (off : Nat) (w : MeldW) (a : Nat) (b : Nat)
  /-- MELD_TRACKER_RESUME (R164). An atomic waiting for a Meld tracker takes a freed tracker in arrival order and starts execution. -/
  | meldTrackerResume (unit : Nat)
  /-- MELD_FAR_TIMEOUT (R175). A far atomic gets no HMELD_RSP within HSNP_TO and is answered with Completer Abort or ST_TIMEOUT. -/
  | meldFarTimeout (tag : Nat)
  /-- TX_RECORD (R108). A port's output scheduler picks the next record by strict priority and deficit round robin and transmits it. -/
  | txRecord (port : Nat)
  /-- PARK_RELEASE (R105). A parked request joins its output queue in order when the queue's length falls below its limit. -/
  | parkRelease (port : Nat) (cls : Nat)
  /-- SUBQUEUE_HEAD_FREE (R106). A freed sub-queue head lets a record parked for want of a head join its queue. -/
  | subqueueHeadFree (port : Nat)
  /-- CREDIT_ADVERTISE (R377). A receiver takes backing for a credit and returns or advertises it to the partner. -/
  | creditAdvertise (port : Nat) (cls : Nat) (n : Nat)
  /-- CREDIT_RECEIVED (R379). A credit returned by the partner is added to the transmitter's credit state. -/
  | creditReceived (port : Nat) (chan : Nat) (n : Nat) (infinite : Bool)
  /-- FLIT_ACK (R380). An acknowledgement from the partner frees flits from the transmit replay buffer. -/
  | flitAck (port : Nat) (seq : Nat)
  /-- CXL_REPLAY_REQUEST (R380). A replay request from the partner makes the port replay unacknowledged flits, selective or standard. -/
  | cxlReplayRequest (port : Nat) (seq : Nat) (selective : Bool)
  /-- PACE_WINDOW (R118). At the end of each 100 ns window the pace monitor records CYCLE and sets the throttle level, raising faults if over LIMIT. -/
  | paceWindow (cycle : Nat)
  /-- PACE_LEVEL_DECAY (R119). After 1 ms with CYCLE at or below LIMIT the throttle level falls by one and DEGRADED clears at 0. -/
  | paceLevelDecay
  /-- ERG_PATROL_SCRUB (R121). The patrol scrub reads Erg words and corrects single-bit errors. -/
  | ergPatrolScrub (kind : Nat) (grain : Nat) (w : Nat) (cell : Nat) (rec_ : Nat)
  /-- LINK_DOWN (R124). A port's link goes down; queued and parked records are discarded and credit backing returns to the pool. -/
  | linkDown (port : Nat)
  /-- HOST_LOST (R54). A host is lost; its windows drain, owed responses are discarded, BISnps answered as I, sharer sets and hold marks cleared. -/
  | hostLost (port : Nat)
  /-- POOL_DEVICE_LOST (R58). A pool device is lost and its index is marked lost at the placement stage within 1 µs. -/
  | poolDeviceLost (dev : Nat)
  /-- LOSS_WALK_STEP (R61). Firmware's loss walk rewrites the next map entries that name the lost device, deferring those with running moves and sending loss records. -/
  | lossWalkStep (dev : Nat) (n : Nat)
  /-- INITIATE_DC_ADD (R44). The fabric manager offers dynamic capacity; map entries become ZERO with the domain's tag, MSYNC follows and Add Capacity events go to hosts. -/
  | initiateDcAdd (dom : Nat) (first : Nat) (n : Nat) (vcs : Nat)
  /-- ADD_DC_RESPONSE (R44). A host's Add Dynamic Capacity Response names accepted extents; unaccepted blocks are released when all offered hosts have answered. -/
  | addDcResponse (vcs : Nat) (dom : Nat) (accepted : List Nat)
  /-- RELEASE_DC (R45). A host's Release Dynamic Capacity starts the release sequence for its blocks. -/
  | releaseDc (vcs : Nat) (dom : Nat) (blocks : List Nat)
  /-- INITIATE_DC_RELEASE (R45). The fabric manager forces a release at once and hosts learn of it from the Release Capacity event record. -/
  | initiateDcRelease (dom : Nat) (blocks : List Nat)
  /-- RELEASE_DRAIN_DONE (R45). Every request that passed placement before the release flip has completed; former backing is scrubbed and completion reported. -/
  | releaseDrainDone (dom : Nat)
  /-- SCRUB_PARCEL_DONE (R49). A Caravan scrub of a parcel completes and the parcel joins the free pool, waking waiting fills. -/
  | scrubParcelDone (dev : Nat)
  /-- BIND_CREATE (R44). BIND CREATE sets a domain's map base, region sizes and profile, creates its KMD instance and makes it ACTIVE. -/
  | bindCreate (core : Fin 64) (gd : Fin 64) (ga : Fin 64)
  /-- BIND_QUIESCE (R291). BIND QUIESCE makes a whole domain QUIESCING or refuses one VCS's requests to it. -/
  | bindQuiesce (core : Fin 64) (gd : Fin 64) (ga : Fin 64)
  /-- BIND_RESUME (R291). BIND RESUME reverses the matching quiesce. -/
  | bindResume (core : Fin 64) (gd : Fin 64) (ga : Fin 64)
  /-- BIND_VPPB (R291). BIND VPPB binds a vPPB to a KMD instance or a pass-through target and signals hot-add. -/
  | bindVppb (core : Fin 64) (gd : Fin 64) (ga : Fin 64) (lds : Nat)
  /-- BIND_POOLDEV (R57). BIND POOLDEV enumerates a device or LD, assigns the lowest free index, records its rank and starts its scrub. -/
  | bindPooldev (core : Fin 64) (gd : Fin 64) (ga : Fin 64) (lds : Nat) (cap : Nat)
  /-- BIND_EVACUATE (R291). BIND EVACUATE checks capacity, takes promises and queues high-priority moves off the device. -/
  | bindEvacuate (core : Fin 64) (gd : Fin 64) (ga : Fin 64)
  /-- BIND_RETIRE (R291). BIND RETIRE sets RETIRING, clears every window and releases every parcel, posting when the domain is FREE. -/
  | bindRetire (core : Fin 64) (gd : Fin 64) (ga : Fin 64)
  /-- BIND_CONSTRAINT (R216). BIND CONSTRAINT writes the domain's Dealer constraint record. -/
  | bindConstraint (core : Fin 64) (gd : Fin 64) (ga : Fin 64)
  /-- BIND_WALL (R51). BIND WALL sets the domain's walled line-cache ways and evicts other domains from them before retiring. -/
  | bindWall (core : Fin 64) (gd : Fin 64) (ga : Fin 64)
  /-- UNBIND_VPPB (R291). UNBIND VPPB unbinds a vPPB and decrements HOSTS. -/
  | unbindVppb (core : Fin 64) (gd : Fin 64) (ga : Fin 64)
  /-- UNBIND_POOLDEV (R563). UNBIND POOLDEV frees an ABSENT device index and returns its port or LD. -/
  | unbindPooldev (core : Fin 64) (gd : Fin 64) (ga : Fin 64)
  /-- WINSET (R41). WINSET fills the lowest free window slot after its refusal checks. -/
  | winset (core : Fin 64) (gd : Fin 64) (ga : Fin 64)
  /-- WINCLR (R46). WINCLR sets DRAIN on a window at once and makes its result slot PENDING. -/
  | winclr (core : Fin 64) (gd : Fin 64) (ga : Fin 64)
  /-- WINCLR_DRAIN_DONE (R46). Every request that passed binding under the window completes; the slot is cleared and WINCLR's result becomes READY. -/
  | winclrDrainDone (win : Nat)
  /-- GATESET_WRITE (R76). GATESET WRITE rewrites the range and permissions of a linked rule slot. -/
  | gatesetWrite (core : Fin 64) (gd : Fin 64) (ga : Fin 64)
  /-- GATESET_STAGE (R76). GATESET STAGE fills a free slot as staged and links it to a staged chain. -/
  | gatesetStage (core : Fin 64) (gd : Fin 64) (ga : Fin 64)
  /-- GATESET_INSERT (R76). GATESET INSERT fills a free slot and links it at a list's head or after a named slot. -/
  | gatesetInsert (core : Fin 64) (gd : Fin 64) (ga : Fin 64)
  /-- GATESET_SWAP (R76). GATESET SWAP replaces a list's chain with a staged chain and detaches the old one as staged. -/
  | gatesetSwap (core : Fin 64) (gd : Fin 64) (ga : Fin 64)
  /-- GATESET_PIN (R76). GATESET PIN sets or clears PIN in a list head. -/
  | gatesetPin (core : Fin 64) (gd : Fin 64) (ga : Fin 64)
  /-- GATECLR_UNLINK (R76). GATECLR UNLINK removes one slot from its list and frees it after the next GSYNC. -/
  | gateclrUnlink (core : Fin 64) (gd : Fin 64) (ga : Fin 64)
  /-- GATECLR_FREE (R76). GATECLR FREE frees every slot of a staged chain after the next GSYNC. -/
  | gateclrFree (core : Fin 64) (gd : Fin 64) (ga : Fin 64)
  /-- GSYNC_RETIRE (R78). A Gate barrier retires once every rule cache copy reflects earlier updates, incrementing GATE_STATUS.GEN and freeing released slots. -/
  | gsyncRetire
  /-- MSYNC_RETIRE (R191). A placement barrier retires once every TLB copy reflects earlier PMAPSETs. -/
  | msyncRetire
  /-- LINE_QUEUE_GRANT (R136). When a line's transaction closes, the home slice chooses the next request by write-back priority and the rotating pointer and opens it. -/
  | lineQueueGrant (dom : Nat) (da : Nat)
  /-- TRACKER_FREE_RESUME (R137). A request waiting for a home-slice tracker or snoop filter way takes a freed one and proceeds. -/
  | trackerFreeResume (slice : Nat)
  /-- HOLD_EXPIRE (R138). An owner's hold mark ends after HOLD × 32 ns and waiting snoops may be sent. -/
  | holdExpire (dom : Nat) (da : Nat)
  /-- LC_EVICT_COMPLETE (R132). A dirty line-cache victim's write reaches its completion point and the line is dropped. -/
  | lcEvictComplete (dom : Nat) (da : Nat)
  /-- BISNP_TIMEOUT (R150). A BISnp is unanswered after BISNP_TO and the line's domain is contained. -/
  | bisnpTimeout (id : Nat)
  /-- HREQ_S (R155). The home receives a remote switch's shared read. -/
  | hreqS (tile : Nat) (sw : Nat) (dom : Nat) (line : Nat) (tag : Nat)
  /-- HREQ_X (R156). The home receives a remote switch's lease request. -/
  | hreqX (tile : Nat) (sw : Nat) (dom : Nat) (line : Nat) (tag : Nat)
  /-- HREQ_CUR (R155). The home receives a remote switch's current read, tracked or NOTRACK. -/
  | hreqCur (tile : Nat) (sw : Nat) (dom : Nat) (line : Nat) (tag : Nat) (notrack : Bool)
  /-- HREQ_WR (R155). The home receives a write from a remote host without a lease, full or partial. -/
  | hreqWr (tile : Nat) (sw : Nat) (dom : Nat) (line : Nat) (tag : Nat) (notrack : Bool) (data : Line) (mask : Word) (poison : Bool)
  /-- HWB (R155). The home receives a lease return, handled as an owner's write-back. -/
  | hwb (tile : Nat) (sw : Nat) (dom : Nat) (line : Nat) (tag : Nat) (kept : Nat) (data : Option Line) (poison : Bool)
  /-- HGNT_S (R155). A remote switch receives a shared copy from the home and answers its host. -/
  | hgntS (tile : Nat) (dom : Nat) (line : Nat) (tag : Nat) (st : Nat) (data : Line)
  /-- HGNT_X (R156). A remote switch receives a lease with data into its lease buffer and runs queued near atomics. -/
  | hgntX (tile : Nat) (dom : Nat) (line : Nat) (tag : Nat) (st : Nat) (data : Line)
  /-- HCMP (R155). A remote switch receives completion of its HREQ_WR or HWB. -/
  | hcmp (tile : Nat) (dom : Nat) (line : Nat) (tag : Nat) (st : Nat)
  /-- HSNP_INV (R157). A remote switch snoops its own holders for an invalidation from the home and answers with one HRSP. -/
  | hsnpInv (tile : Nat) (home : Nat) (dom : Nat) (line : Nat) (tag : Nat)
  /-- HSNP_DATA (R157). A remote switch handles a data snoop from the home. -/
  | hsnpData (tile : Nat) (home : Nat) (dom : Nat) (line : Nat) (tag : Nat)
  /-- HSNP_CUR (R157). A remote switch handles a current snoop from the home. -/
  | hsnpCur (tile : Nat) (home : Nat) (dom : Nat) (line : Nat) (tag : Nat)
  /-- HRSP_I (R155). The home receives an I answer from a remote switch, with or without data. -/
  | hrspI (tile : Nat) (sw : Nat) (dom : Nat) (line : Nat) (tag : Nat) (data : Option Line) (poison : Bool)
  /-- HRSP_S (R155). The home receives an S answer from a remote switch. -/
  | hrspS (tile : Nat) (sw : Nat) (dom : Nat) (line : Nat) (tag : Nat) (data : Option Line) (poison : Bool)
  /-- HRSP_E (R155). The home receives an E answer from a remote switch. -/
  | hrspE (tile : Nat) (sw : Nat) (dom : Nat) (line : Nat) (tag : Nat) (data : Option Line) (poison : Bool)
  /-- HMELD (R178). The home receives a far atomic and executes it at its Meld unit. -/
  | hmeld (tile : Nat) (sw : Nat) (dom : Nat) (line : Nat) (tag : Nat) (op : Nat) (width : Nat) (off : Nat) (notrack : Bool) (a : Nat) (b : Nat)
  /-- HMELD_RSP (R181). A remote switch receives a far atomic's result and trains its predictor from QDEPTH and SAME. -/
  | hmeldRsp (tile : Nat) (dom : Nat) (line : Nat) (tag : Nat) (st : Nat) (old : Nat) (qdepth : Nat) (same : Bool)
  /-- HSNP_TIMEOUT (R158). An HSNP is unanswered after HSNP_TO and the domain is contained at the home. -/
  | hsnpTimeout (id : Nat)
  /-- HEARTBEAT (R422). A HEARTBEAT from switch k is received; a changed INCARN makes k lost and present again as a new peer. -/
  | heartbeat (tile : Nat) (sw : Nat) (incarn : Nat)
  /-- HEARTBEAT_SEND (R422). Each 1 ms the switch sends a HEARTBEAT to every switch with a valid route. -/
  | heartbeatSend
  /-- SWITCH_LOST (R422). No HEARTBEAT from switch k for LOST_MS; sessions with k end and R159 applies. -/
  | switchLost (sw : Nat)
  /-- MESSAGE_FORWARD (R428). A switch receives a message for another switch and forwards it with HOPS + 1, or discards it. -/
  | messageForward (tile : Nat) (op : Nat) (src : Nat) (dst : Nat) (hops : Nat) (dom : Nat) (tag : Nat) (st : Nat) (line : Nat) (args : Nat) (notrack : Bool) (data : Option Line) (mask : Option Word)
  /-- ROUTE_FENCE_END (R428). Frames sent before a port joined have been acknowledged and the port joins route selection. -/
  | routeFenceEnd (tile : Nat)
  /-- CARAVAN_MOVE_START (R203). An idle Caravan takes the next queued move, checks it against its entry and starts COPYING or aborts it. -/
  | caravanMoveStart
  /-- CHUNK_COMPLETE (R204). A Caravan's 16-line chunk reaches its completion points, CURSOR advances and held writes proceed. -/
  | chunkComplete (car : Nat) (lines : List Line) (poison : Nat) (err : Nat)
  /-- MOVE_FLIP (R207). The pre-flip accesses have drained and the flip commits, releasing held accesses and posting DONE. -/
  | moveFlip (car : Nat)
  /-- SWITCH_MAX_EXPIRE (R208). SWITCH_MAX passes in SWITCHING or for a chunk and the move aborts with CAUSE 4. -/
  | switchMaxExpire (car : Nat)
  /-- MIGRATION_ALLOWANCE (R212). The copy-byte allowance renews and paused Caravans resume between chunks. -/
  | migrationAllowance
  /-- EPOCH_END (R197). An epoch ends and Dealer starts its heat sweep over all valid map segments. -/
  | epochEnd
  /-- HEAT_SWEEP (R197). The sweep visits parcels, sets WMIX, tests report conditions and halves COUNT. -/
  | heatSweep (n : Nat)
  /-- PMAPSET_EXTEND (R296). PMAPSET EXTEND takes promises and writes entries ZERO with EXT = 1 and the domain's tag. -/
  | pmapsetExtend (core : Fin 64) (gd : Fin 64) (ga : Fin 64)
  /-- PMAPSET_RELEASE (R296). PMAPSET RELEASE returns entries to reset values and schedules scrub of former backing. -/
  | pmapsetRelease (core : Fin 64) (gd : Fin 64) (ga : Fin 64)
  /-- PMAPSET_PIN (R296). PMAPSET PIN sets PIN on entries of the domain. -/
  | pmapsetPin (core : Fin 64) (gd : Fin 64) (ga : Fin 64)
  /-- PMAPGET_ENTRY (R297). PMAPGET ENTRY returns both words of a map entry. -/
  | pmapgetEntry (core : Fin 64) (gd : Fin 64) (ga : Fin 64)
  /-- PMAPGET_LEGS (R297). PMAPGET LEGS returns the single and duplex leg counts for a device index. -/
  | pmapgetLegs (core : Fin 64) (gd : Fin 64) (ga : Fin 64)
  /-- MOVE_START (R202). MOVE START checks a move and queues it, making its result slot PENDING. -/
  | moveStart (core : Fin 64) (gd : Fin 64) (ga : Fin 64)
  /-- MOVE_CANCEL (R298). MOVE CANCEL removes a queued move or meets a running move's flip at the arbiter. -/
  | moveCancel (core : Fin 64) (gd : Fin 64) (ga : Fin 64)
  /-- MOVESTAT (R298). MOVESTAT reports a move's slot and phase and may acknowledge a READY slot. -/
  | movestat (core : Fin 64) (gd : Fin 64) (ga : Fin 64)
  /-- HEAT_READ (R299). HEAT READ returns a parcel's heat and the current epoch's samples. -/
  | heatRead (core : Fin 64) (gd : Fin 64) (ga : Fin 64)
  /-- HEAT_SET (R299). HEAT SET writes a parcel's COUNT and WMIX and clears its epoch samples. -/
  | heatSet (core : Fin 64) (gd : Fin 64) (ga : Fin 64)
  /-- SFQUERY (R301). SFQUERY returns a snapshot of a line's snoop filter entry and line-cache state. -/
  | sfquery (core : Fin 64) (gd : Fin 64) (ga : Fin 64)
  /-- LINEFLUSH (R154). LINEFLUSH is accepted for a line in KEEP or INVALIDATE mode and its slot becomes PENDING. -/
  | lineflush (core : Fin 64) (gd : Fin 64) (ga : Fin 64)
  /-- LINEFLUSH_DONE (R154). A LINEFLUSH reaches its completion point and posts its status. -/
  | lineflushDone (slot : Nat) (outcome : Nat)
  /-- MELD (R170). MELD runs a Meld operation on an aperture or shared-memory target to completion and returns the old value. -/
  | meld (core : Fin 64) (gd : Fin 64) (ga : Fin 64)
  /-- MIRROR_SET (R304). MIRROR SET activates a mirror session with SEQ restarted at 0. -/
  | mirrorSet (core : Fin 64) (gd : Fin 64) (ga : Fin 64)
  /-- MIRROR_CLEAR (R304). MIRROR CLEAR disables a mirror session; queued copies are still sent. -/
  | mirrorClear (core : Fin 64) (gd : Fin 64) (ga : Fin 64)
  /-- QOSSET_PROFILE (R305). QOSSET PROFILE writes a service-share profile. -/
  | qossetProfile (core : Fin 64) (gd : Fin 64) (ga : Fin 64)
  /-- QOSSET_DOMAIN (R107). QOSSET DOMAIN changes a domain's profile, applied per port once its old sub-queue is empty. -/
  | qossetDomain (core : Fin 64) (gd : Fin 64) (ga : Fin 64)
  /-- QOSSET_PORTQ (R305). QOSSET PORTQ writes a port's class quanta and RXCLASS. -/
  | qossetPortq (core : Fin 64) (gd : Fin 64) (ga : Fin 64)
  /-- QOSSET_ALPHA (R98). QOSSET ALPHA changes a class's α from the next decision. -/
  | qossetAlpha (core : Fin 64) (gd : Fin 64) (ga : Fin 64)
  /-- QOSSET_RESERVE (R98). QOSSET RESERVE changes a receive account's reserve within the shared-pool limit. -/
  | qossetReserve (core : Fin 64) (gd : Fin 64) (ga : Fin 64)
  /-- PORTCTL_DISABLE (R306). PORTCTL DISABLE takes a port's link down. -/
  | portctlDisable (core : Fin 64) (gd : Fin 64) (ga : Fin 64)
  /-- PORTCTL_ENABLE (R306). PORTCTL ENABLE lets a port's link train. -/
  | portctlEnable (core : Fin 64) (gd : Fin 64) (ga : Fin 64)
  /-- PORTCTL_RETRAIN (R306). PORTCTL RETRAIN retrains a link and posts when it is up or training fails. -/
  | portctlRetrain (core : Fin 64) (gd : Fin 64) (ga : Fin 64)
  /-- PORTCTL_PACE (R306). PORTCTL PACE writes a TRL tile's STOP level. -/
  | portctlPace (core : Fin 64) (gd : Fin 64) (ga : Fin 64)
  /-- NVSTORE_STAGE (R307). NVSTORE STAGE copies bytes into the settings staging image. -/
  | nvstoreStage (core : Fin 64) (gd : Fin 64) (ga : Fin 64)
  /-- NVSTORE_COMMIT (R538). NVSTORE COMMIT checks the staging image, logs live changes and starts writing the alternate copy. -/
  | nvstoreCommit (core : Fin 64) (gd : Fin 64) (ga : Fin 64)
  /-- NVM_BLOCK_WRITE_DONE (R538). A settings block write finishes and is verified; after the trailer, live settings apply and the commit posts. -/
  | nvmBlockWriteDone (hist : Bool) (ok : Bool)
  /-- NVSTORE_DISCARD (R307). NVSTORE DISCARD reloads the staging image from the active copy. -/
  | nvstoreDiscard (core : Fin 64) (gd : Fin 64) (ga : Fin 64)
  /-- NVSTAT (R307). NVSTAT returns staging state, active copy, commits and wear. -/
  | nvstat (core : Fin 64) (gd : Fin 64) (ga : Fin 64)
  /-- CNTCFG (R499). CNTCFG writes a counter's settings and preload. -/
  | cntcfg (core : Fin 64) (gd : Fin 64) (ga : Fin 64)
  /-- CNTREAD (R503). CNTREAD takes up to eight counters at one instant. -/
  | cntread (core : Fin 64) (gd : Fin 64) (ga : Fin 64)
  /-- SAMPLECFG (R506). SAMPLECFG programs the host or Falgan sampling source. -/
  | samplecfg (core : Fin 64) (gd : Fin 64) (ga : Fin 64)
  /-- RESULTPUT_ACK (R288). RESULTPUT ACK makes a READY result slot IDLE. -/
  | resultputAck (core : Fin 64) (gd : Fin 64) (ga : Fin 64)
  /-- RESULTPUT_POST (R288). RESULTPUT POST writes an outcome into an IDLE slot and makes it READY. -/
  | resultputPost (core : Fin 64) (gd : Fin 64) (ga : Fin 64)
  /-- ADD (R261). ADD writes ga + gb to gd. -/
  | add (core : Fin 64) (gd : Fin 64) (ga : Fin 64) (gb : Fin 64)
  /-- SUB (R261). SUB writes ga − gb to gd. -/
  | sub (core : Fin 64) (gd : Fin 64) (ga : Fin 64) (gb : Fin 64)
  /-- AND (R261). AND writes ga AND gb to gd. -/
  | and (core : Fin 64) (gd : Fin 64) (ga : Fin 64) (gb : Fin 64)
  /-- OR (R261). OR writes ga OR gb to gd. -/
  | or (core : Fin 64) (gd : Fin 64) (ga : Fin 64) (gb : Fin 64)
  /-- XOR (R261). XOR writes ga XOR gb to gd. -/
  | xor (core : Fin 64) (gd : Fin 64) (ga : Fin 64) (gb : Fin 64)
  /-- SLL (R261). SLL shifts ga left by gb[5:0]. -/
  | sll (core : Fin 64) (gd : Fin 64) (ga : Fin 64) (gb : Fin 64)
  /-- SRL (R261). SRL shifts ga right with zeros in. -/
  | srl (core : Fin 64) (gd : Fin 64) (ga : Fin 64) (gb : Fin 64)
  /-- SRA (R261). SRA shifts ga right with sign bits in. -/
  | sra (core : Fin 64) (gd : Fin 64) (ga : Fin 64) (gb : Fin 64)
  /-- SLT (R261). SLT sets gd if ga < gb signed. -/
  | slt (core : Fin 64) (gd : Fin 64) (ga : Fin 64) (gb : Fin 64)
  /-- SLTU (R261). SLTU sets gd if ga < gb unsigned. -/
  | sltu (core : Fin 64) (gd : Fin 64) (ga : Fin 64) (gb : Fin 64)
  /-- CLZ (R261). CLZ counts leading zero bits of ga. -/
  | clz (core : Fin 64) (gd : Fin 64) (ga : Fin 64) (gb : Fin 64)
  /-- CTZ (R261). CTZ counts trailing zero bits of ga. -/
  | ctz (core : Fin 64) (gd : Fin 64) (ga : Fin 64) (gb : Fin 64)
  /-- POPC (R261). POPC counts set bits of ga. -/
  | popc (core : Fin 64) (gd : Fin 64) (ga : Fin 64) (gb : Fin 64)
  /-- ADDI (R262). ADDI adds a sign-extended immediate. -/
  | addi (core : Fin 64) (gd : Fin 64) (ga : Fin 64) (imm : BitVec 15)
  /-- ANDI (R262). ANDI ANDs a sign-extended immediate. -/
  | andi (core : Fin 64) (gd : Fin 64) (ga : Fin 64) (imm : BitVec 15)
  /-- ORI (R262). ORI ORs a sign-extended immediate. -/
  | ori (core : Fin 64) (gd : Fin 64) (ga : Fin 64) (imm : BitVec 15)
  /-- XORI (R262). XORI XORs a sign-extended immediate. -/
  | xori (core : Fin 64) (gd : Fin 64) (ga : Fin 64) (imm : BitVec 15)
  /-- SLLI (R262). SLLI shifts left by an immediate. -/
  | slli (core : Fin 64) (gd : Fin 64) (ga : Fin 64) (imm : BitVec 13)
  /-- SRLI (R262). SRLI shifts right logically by an immediate. -/
  | srli (core : Fin 64) (gd : Fin 64) (ga : Fin 64) (imm : BitVec 13)
  /-- SRAI (R262). SRAI shifts right arithmetically by an immediate. -/
  | srai (core : Fin 64) (gd : Fin 64) (ga : Fin 64) (imm : BitVec 13)
  /-- LIMM (R262). LIMM loads a sign-extended 21-bit immediate. -/
  | limm (core : Fin 64) (gd : Fin 64) (imm : BitVec 21)
  /-- LIMMH (R262). LIMMH shifts gd left by 21 and ORs in the immediate. -/
  | limmh (core : Fin 64) (gd : Fin 64) (imm : BitVec 21)
  /-- LDB (R264). LDB loads one byte zero-extended. -/
  | ldb (core : Fin 64) (gd : Fin 64) (ga : Fin 64) (imm : BitVec 15) (err : Nat)
  /-- LDH (R264). LDH loads two bytes zero-extended. -/
  | ldh (core : Fin 64) (gd : Fin 64) (ga : Fin 64) (imm : BitVec 15) (err : Nat)
  /-- LDW (R264). LDW loads four bytes zero-extended. -/
  | ldw (core : Fin 64) (gd : Fin 64) (ga : Fin 64) (imm : BitVec 15) (err : Nat)
  /-- LDD (R264). LDD loads eight bytes, through the Gate and DAS map. -/
  | ldd (core : Fin 64) (gd : Fin 64) (ga : Fin 64) (imm : BitVec 15) (err : Nat)
  /-- STB (R264). STB stores one byte. -/
  | stb (core : Fin 64) (gs : Fin 64) (ga : Fin 64) (imm : BitVec 15) (err : Nat)
  /-- STH (R264). STH stores two bytes. -/
  | sth (core : Fin 64) (gs : Fin 64) (ga : Fin 64) (imm : BitVec 15) (err : Nat)
  /-- STW (R264). STW stores four bytes. -/
  | stw (core : Fin 64) (gs : Fin 64) (ga : Fin 64) (imm : BitVec 15) (err : Nat)
  /-- STD (R264). STD stores eight bytes, the only store accepted in device control space outside core windows. -/
  | std (core : Fin 64) (gs : Fin 64) (ga : Fin 64) (imm : BitVec 15)
  /-- MUL (R263). MUL writes the low 64 bits of the product. -/
  | mul (core : Fin 64) (gd : Fin 64) (ga : Fin 64) (gb : Fin 64)
  /-- MULHU (R263). MULHU writes the high 64 bits of the unsigned product. -/
  | mulhu (core : Fin 64) (gd : Fin 64) (ga : Fin 64) (gb : Fin 64)
  /-- MULHS (R263). MULHS writes the high 64 bits of the signed product. -/
  | mulhs (core : Fin 64) (gd : Fin 64) (ga : Fin 64) (gb : Fin 64)
  /-- DIVU (R263). DIVU divides unsigned without exceptions. -/
  | divu (core : Fin 64) (gd : Fin 64) (ga : Fin 64) (gb : Fin 64)
  /-- DIVS (R263). DIVS divides signed without exceptions. -/
  | divs (core : Fin 64) (gd : Fin 64) (ga : Fin 64) (gb : Fin 64)
  /-- REMU (R263). REMU gives the unsigned remainder. -/
  | remu (core : Fin 64) (gd : Fin 64) (ga : Fin 64) (gb : Fin 64)
  /-- REMS (R263). REMS gives the signed remainder. -/
  | rems (core : Fin 64) (gd : Fin 64) (ga : Fin 64) (gb : Fin 64)
  /-- CGET (R270). CGET reads a control register into gd. -/
  | cget (core : Fin 64) (gd : Fin 64) (ga : Fin 64) (imm : BitVec 14)
  /-- CSET (R256). CSET writes a control register and returns its previous value. -/
  | cset (core : Fin 64) (gd : Fin 64) (ga : Fin 64) (imm : BitVec 14)
  /-- LADD (R267). LADD atomically adds to a local data word. -/
  | ladd (core : Fin 64) (gd : Fin 64) (ga : Fin 64) (gb : Fin 64) (w32 : Bool) (err : Nat)
  /-- LAND (R267). LAND atomically ANDs a local data word. -/
  | land (core : Fin 64) (gd : Fin 64) (ga : Fin 64) (gb : Fin 64) (w32 : Bool) (err : Nat)
  /-- LOR (R267). LOR atomically ORs a local data word. -/
  | lor (core : Fin 64) (gd : Fin 64) (ga : Fin 64) (gb : Fin 64) (w32 : Bool) (err : Nat)
  /-- LXOR (R267). LXOR atomically XORs a local data word. -/
  | lxor (core : Fin 64) (gd : Fin 64) (ga : Fin 64) (gb : Fin 64) (w32 : Bool) (err : Nat)
  /-- LSWAP (R267). LSWAP atomically swaps a local data word. -/
  | lswap (core : Fin 64) (gd : Fin 64) (ga : Fin 64) (gb : Fin 64) (w32 : Bool) (err : Nat)
  /-- LCAS (R267). LCAS atomically compares and swaps a local data word. -/
  | lcas (core : Fin 64) (gd : Fin 64) (ga : Fin 64) (gb : Fin 64) (w32 : Bool) (err : Nat)
  /-- BEQ (R268). BEQ branches when ga = gb. -/
  | beq (core : Fin 64) (ga : Fin 64) (gb : Fin 64) (off : BitVec 12)
  /-- BNE (R268). BNE branches when ga ≠ gb. -/
  | bne (core : Fin 64) (ga : Fin 64) (gb : Fin 64) (off : BitVec 12)
  /-- BLT (R268). BLT branches when ga < gb signed. -/
  | blt (core : Fin 64) (ga : Fin 64) (gb : Fin 64) (off : BitVec 12)
  /-- BGE (R268). BGE branches when ga ≥ gb signed. -/
  | bge (core : Fin 64) (ga : Fin 64) (gb : Fin 64) (off : BitVec 12)
  /-- BLTU (R268). BLTU branches when ga < gb unsigned. -/
  | bltu (core : Fin 64) (ga : Fin 64) (gb : Fin 64) (off : BitVec 12)
  /-- BGEU (R268). BGEU branches when ga ≥ gb unsigned. -/
  | bgeu (core : Fin 64) (ga : Fin 64) (gb : Fin 64) (off : BitVec 12)
  /-- BRA (R268). BRA always branches. -/
  | bra (core : Fin 64) (ga : Fin 64) (gb : Fin 64) (off : BitVec 12)
  /-- JMP (R269). JMP jumps by a word offset. -/
  | jmp (core : Fin 64) (off : BitVec 27)
  /-- JAL (R269). JAL writes the return address to g62 and jumps. -/
  | jal (core : Fin 64) (off : BitVec 27)
  /-- JR (R269). JR jumps to ga. -/
  | jr (core : Fin 64) (gd : Fin 64) (ga : Fin 64) (gb : Fin 64)
  /-- JALR (R269). JALR writes PC + 4 to gd and jumps to ga. -/
  | jalr (core : Fin 64) (gd : Fin 64) (ga : Fin 64) (gb : Fin 64)
  /-- QPUSH (R318). QPUSH writes an entry at W of a ring and advances W. -/
  | qpush (core : Fin 64) (gd : Fin 64) (ga : Fin 64) (gb : Fin 64)
  /-- QPOP (R318). QPOP copies the entry at RD and advances RD. -/
  | qpop (core : Fin 64) (gd : Fin 64) (ga : Fin 64) (gb : Fin 64)
  /-- QPEEK (R318). QPEEK copies the entry at RD without advancing. -/
  | qpeek (core : Fin 64) (gd : Fin 64) (ga : Fin 64) (gb : Fin 64)
  /-- QMARK (R318). QMARK sets MARK to RD. -/
  | qmark (core : Fin 64) (gd : Fin 64) (ga : Fin 64) (gb : Fin 64)
  /-- QREWIND (R318). QREWIND sets RD to MARK and restarts the idle timer. -/
  | qrewind (core : Fin 64) (gd : Fin 64) (ga : Fin 64) (gb : Fin 64)
  /-- QREL (R318). QREL releases positions up to p, copying spilled entries back on die. -/
  | qrel (core : Fin 64) (gd : Fin 64) (ga : Fin 64) (gb : Fin 64)
  /-- QSTAT (R318). QSTAT writes a ring's status block. -/
  | qstat (core : Fin 64) (gd : Fin 64) (ga : Fin 64) (gb : Fin 64)
  /-- WAIT (R335). WAIT stops the core until a deliverable or watched source, or a deadline. -/
  | wait (core : Fin 64) (gd : Fin 64) (ga : Fin 64) (gb : Fin 64)
  /-- SLEEP (R337). SLEEP stops the core until a wake source, unless a wake source wins at the commit point. -/
  | sleep (core : Fin 64) (gd : Fin 64) (ga : Fin 64) (gb : Fin 64)
  /-- WAIT_END (R336). An ending condition reaches a waiting core's wake arbiter; WAIT retires with ST_OK and watched edge sources return to IDLE. -/
  | waitEnd (core : Nat)
  /-- SLEEP_WAKE (R335). A wake-enabled source becomes pending for a sleeping core and SLEEP retires with ST_OK. -/
  | sleepWake (core : Nat)
  /-- WAIT_SLEEP_DEADLINE (R336). Device time reaches the deadline of a WAIT or SLEEP, which retires with ST_TIMEOUT. -/
  | waitSleepDeadline (core : Nat)
  /-- INTCLAIM (R332). INTCLAIM claims the highest-priority deliverable source and pushes RUNPRI. -/
  | intclaim (core : Fin 64) (gd : Fin 64) (ga : Fin 64) (gb : Fin 64)
  /-- INTDONE (R333). INTDONE completes the most recently claimed source and restores RUNPRI. -/
  | intdone (core : Fin 64) (gd : Fin 64) (ga : Fin 64) (gb : Fin 64)
  /-- TRAP (R272). TRAP raises a TRAP exception and retires. -/
  | trap (core : Fin 64) (gd : Fin 64) (ga : Fin 64) (gb : Fin 64)
  /-- ERET (R275). ERET returns through the top entry frame. -/
  | eret (core : Fin 64) (gd : Fin 64) (ga : Fin 64) (gb : Fin 64) (err : Nat)
  /-- FENCE_L (R272). FENCE.L waits for local stores and discards fetched words. -/
  | fenceL (core : Fin 64) (gd : Fin 64) (ga : Fin 64) (gb : Fin 64)
  /-- FENCE_F (R272). FENCE.F waits for shared-memory visibility, aperture completions and FX statuses. -/
  | fenceF (core : Fin 64) (gd : Fin 64) (ga : Fin 64) (gb : Fin 64)
  /-- GSYNC (R78). GSYNC issues a Gate barrier and retires when it does. -/
  | gsync (core : Fin 64) (gd : Fin 64) (ga : Fin 64) (gb : Fin 64)
  /-- MSYNC (R191). MSYNC issues a placement barrier and retires when it does. -/
  | msync (core : Fin 64) (gd : Fin 64) (ga : Fin 64) (gb : Fin 64)
  /-- HALT (R272). HALT completes pending stores and puts the core in HALTED. -/
  | halt (core : Fin 64) (gd : Fin 64) (ga : Fin 64) (gb : Fin 64)
  /-- INTERRUPT_ENTRY (R278). At an instruction boundary the core takes a presented interrupt and enters at TVEC + 0x100. -/
  | interruptEntry (core : Fin 64)
  /-- CORE_RESET (R248). FLG_CORE_CTL.RESET puts a core in RESET at its next boundary. -/
  | coreReset (core : Fin 64)
  /-- CORE_START (R246). FLG_CORE_CTL.START begins execution of a core in RESET at PC 0. -/
  | coreStart (core : Fin 64)
  /-- CORE_HALTREQ (R248). FLG_CORE_CTL.HALTREQ puts a core in HALTED at its next boundary. -/
  | coreHaltreq (core : Fin 64)
  /-- QRING_ENABLE (R325). A store setting QRING_CFG.EN checks the configuration and enables the ring with all positions 0, or records CFGERR. -/
  | qringEnable (ring : Nat) (value : Word)
  /-- QRING_DISABLE (R325). A store clearing QRING_CFG.EN discards every entry of the ring. -/
  | qringDisable (ring : Nat) (value : Word)
  /-- RING_IDLE_EXPIRE (R322). A ring's idle timer runs IDLE µs and raises the ring's idle source. -/
  | ringIdleExpire (ring : Nat)
  /-- PENDCLR (R329). A write of PENDCLR clears the pending part of an interrupt source. -/
  | pendclr (source : Nat)
  /-- ICU_SWSET (R340). A store to ICU_SWSET fires a software interrupt source. -/
  | icuSwset (n : Nat)
  /-- REFCLK_LOSS (R353). A tile reference clock is lost; links go down, lanes stay off and LANE_REFCLK_LOSS is raised. -/
  | refclkLoss (tile : Nat)
  /-- REFCLK_RELOCK (R353). A reference clock back in range for 1 ms lets the PLL relock and ports train. -/
  | refclkRelock (tile : Nat)
  /-- TIME_HOLDOVER (R354). The time-base reference is lost and device time runs on the on-die oscillator. -/
  | timeHoldover
  /-- TIME_REFERENCE_RETURN (R354). The time-base reference returns and device time slews back. -/
  | timeReferenceReturn
  /-- LANE_TRAINING_DONE (R357). A tile's lane training ends; failed lanes are spared or training fails. -/
  | laneTrainingDone (port : Nat) (failed : Nat) (inv : Nat) (rev : Bool)
  /-- LANE_ADAPT_STEP (R364). A receiver adapts CTLE, DFE and CDR by at most one step per 10 µs. -/
  | laneAdaptStep (lane : Nat)
  /-- EYE_MEASURE (R366). The eye monitor measures a lane's eye height and width. -/
  | eyeMeasure (lane : Nat) (h : Nat) (w : Nat)
  /-- UTIL_WINDOW (R367). A 1 ms utilization window ends and load steps are detected. -/
  | utilWindow (utils : List Nat)
  /-- CHECK_REMEASURE (R368). A lane that failed the check is measured again after 1 ms of adaptation, with the failure action on a second miss. -/
  | checkRemeasure (lane : Nat) (h : Nat) (w : Nat)
  /-- TRL_EQ_STEP_END (R368). After 2 ms of step requests a failing TRL lane still fails and is spared with LANE_MARGIN_LOW. -/
  | trlEqStepEnd (lane : Nat) (h : Nat) (w : Nat)
  /-- LANE_OUT_OF_SERVICE (R368). A TRL lane loses CDR lock, markers or error ratio and is replaced at once, raising LANE_FAILED. -/
  | laneOutOfService (lane : Nat) (cause : Nat)
  /-- LOSS_OF_SIGNAL (R363). A receiver detects loss of signal, which downs the link or counts as a lane failure. -/
  | lossOfSignal (lane : Nat) (left : Nat)
  /-- ALIGNMENT_MARKER (R360). A TRL lane's alignment marker is received and checked for lane order, alignment and BIP. -/
  | alignmentMarker (lane : Nat) (found : Bool) (logical : Nat) (mcount : Nat) (flags : Nat) (errs : Nat) (skew : Nat)
  /-- LINK_UP (R375). A CXL port finishes training and negotiation and comes up, or is held down. -/
  | linkUp (port : Nat) (flit : Nat) (rate : Nat) (width : Nat) (io : Bool) (mem : Bool) (cache : Bool) (pbr : Bool) (vcs : Nat)
  /-- PAUSE_START (R382). A pause trigger stops the port's scheduler and enters Recovery. -/
  | pauseStart (port : Nat)
  /-- PAUSE_RESUME (R383). The link retrains at the widest passing width, replays unacknowledged flits and resumes. -/
  | pauseResume (port : Nat) (width : Nat) (rate : Nat)
  /-- PAUSE_LIMIT_EXPIRE (R384). A pause exceeds DEGRADE_MAX and the link goes down. -/
  | pauseLimitExpire (port : Nat)
  /-- MEM_CTO_EXPIRE (R388). A CXL.mem request times out; the port's link goes down and the pool device is lost. -/
  | memCtoExpire (port : Nat) (tag : Nat)
  /-- IO_CTO_EXPIRE (R389). A CXL.io request times out; its operation ends with ST_TIMEOUT. -/
  | ioCtoExpire (tag : Nat)
  /-- IDE_KEY_REFRESH (R391). As requester the device refreshes a stream's keys before its invocation counter reaches 2^62. -/
  | ideKeyRefresh (port : Nat) (stream : Nat)
  /-- DOE_REQUEST (R395). A data object written to a DOE mailbox is processed by its protocol. -/
  | doeRequest (fn : Nat) (prot : Nat) (len : Nat) (index : Nat)
  /-- DOE_ABORT (R395). A DOE Abort ends the current object. -/
  | doeAbort (fn : Nat)
  /-- PERST_ASSERT (R397). A host port's PERST_N falls; the link is held down and bound hosts are lost. -/
  | perstAssert (port : Nat)
  /-- PERST_DEASSERT (R397). A host port's PERST_N rises and training starts once DEVICE_READY is high. -/
  | perstDeassert (port : Nat)
  /-- PERST_RELEASE (R397). 100 ms after slot PG and stable reference clock the device releases a device port's PERST_N. -/
  | perstRelease (port : Nat)
  /-- TRL_FRAME_RX (R410). A TRL frame is received, judged good or bad, classified by sequence, and its ACK, NAK and pace are applied. -/
  | trlFrameRx (tile : Nat) (good : Bool) (typ : Nat) (seq : Nat) (ack : Nat) (pace : Nat) (nak : Bool) (spa : Nat) (spb : Nat) (health : Nat) (classes : List Nat) (reserved : Bool)
  /-- TRL_FRAME_TX (R418). In each frame slot the sender sends a new, replayed, CTRL or IDLE frame under its pace level. -/
  | trlFrameTx (tile : Nat)
  /-- REPLAY_ACK_TIMEOUT (R414). ACK does not advance for 2t + 5,000 ns and the transmitter replays from the oldest frame. -/
  | replayAckTimeout (tile : Nat)
  /-- SPILL_METER_RELEASE (R416). The spill meter allows a waiting transmitter to spill or replay. -/
  | spillMeterRelease (tile : Nat)
  /-- PACE_SILENCE (R418). No good frame from the peer for 1 µs outside IDLE makes the sender apply level 0. -/
  | paceSilence (tile : Nat)
  /-- TRL_FRAME_TIMEOUT (R420). No good frame for 10 µs in ACTIVE takes the TRL link down. -/
  | trlFrameTimeout (tile : Nat)
  /-- TRL_DETECT (R420). Signal on at least 16 lanes for 1 ms moves DETECT to EQUALIZE. -/
  | trlDetect (tile : Nat) (lanes : Nat)
  /-- TRL_TRAIN_RETRY (R420). After a training failure's backoff the TRL port returns to DETECT. -/
  | trlTrainRetry (tile : Nat)
  /-- TRAIN_FRAME (R421). A TRAIN frame is received: delay measurement, identity check and session resume or end in CONFIG. -/
  | trainFrame (tile : Nat) (tstate : Nat) (peer : Nat) (peerPort : Nat) (flags : Nat) (fabric : Nat) (session : Nat) (nextRx : Nat) (tsend : Nat) (techo : Nat) (thold : Nat)
  /-- RESUME_MAX_EXPIRE (R421). RESUME_MAX passes in HOLD and the held session ends. -/
  | resumeMaxExpire (tile : Nat)
  /-- SPARE_REQ (R423). A SPARE_REQ makes the transmitter copy lane n onto the spare at its next marker boundary. -/
  | spareReq (tile : Nat) (lane : Nat) (spare : Nat) (mode : Nat)
  /-- SPARE_CHECK_DONE (R423). The spare matched lane n for the required marker periods; the receiver switches and sends SPARE_DONE. -/
  | spareCheckDone (tile : Nat) (half : Nat)
  /-- SPARE_DONE (R423). On SPARE_DONE the transmitter turns the old lane off and the spare becomes the working lane. -/
  | spareDone (tile : Nat) (lane : Nat) (spare : Nat)
  /-- SPARE_REFUSE (R424). A SPARE_REFUSE takes the link down. -/
  | spareRefuse (tile : Nat)
  /-- IDLE_ENTER_EXPIRE (R425). A port quiet for IDLE_ENTER µs sends IDLE_REQ. -/
  | idleEnterExpire (tile : Nat)
  /-- IDLE_REQ (R425). The peer answers IDLE_REQ with IDLE_ACK or IDLE_NAK. -/
  | idleReq (tile : Nat)
  /-- IDLE_ACK (R425). On IDLE_ACK each side squelches at its next marker boundary and enters IDLE. -/
  | idleAck (tile : Nat)
  /-- IDLE_NAK (R425). An IDLE_NAK keeps the link ACTIVE. -/
  | idleNak (tile : Nat)
  /-- IDLE_EXIT (R425). A side with traffic sends the exit burst, or detects the peer's, and the link returns to ACTIVE. -/
  | idleExit (tile : Nat)
  /-- EQ_REQ (R356). An equalization request word adjusts the transmitter's FFE taps or preset. -/
  | eqReq (tile : Nat) (words : List Nat)
  /-- EQ_RSP (R356). An equalization response word reports the transmitter's tap state. -/
  | eqRsp (tile : Nat) (words : List Nat)
  /-- ENTDAA (R433). I3C dynamic address assignment makes the device an I3C target. -/
  | entdaa (addr : Fin 128)
  /-- SETDASA (R433). SETDASA assigns the dynamic address from the static address. -/
  | setdasa (static : Fin 128) (dynamic : Fin 128)
  /-- SETNEWDA (R433). SETNEWDA changes the dynamic address. -/
  | setnewda (addr : Fin 128)
  /-- RSTDAA (R434). RSTDAA resets the dynamic address and returns the device to SMBus operation. -/
  | rstdaa
  /-- GETPID (R433). GETPID returns the provisional ID. -/
  | getpid
  /-- GETBCR (R433). GETBCR returns the bus characteristics register. -/
  | getbcr
  /-- GETDCR (R433). GETDCR returns the device characteristics register. -/
  | getdcr
  /-- GETSTATUS (R434). GETSTATUS returns the management status block. -/
  | getstatus
  /-- GETMRL (R433). GETMRL returns the maximum read length. -/
  | getmrl
  /-- GETMWL (R433). GETMWL returns the maximum write length. -/
  | getmwl
  /-- SETMRL (R433). SETMRL sets the maximum read length. -/
  | setmrl (len : Fin 65536)
  /-- SETMWL (R433). SETMWL sets the maximum write length. -/
  | setmwl (len : Fin 65536)
  /-- ENEC (R433). ENEC enables events. -/
  | enec (events : Fin 256)
  /-- DISEC (R433). DISEC disables events. -/
  | disec (events : Fin 256)
  /-- RSTACT (R433). RSTACT sets the target reset action. -/
  | rstact (action : Fin 256)
  /-- SMBUS_BLOCK_READ (R434). An SMBus Block Read of command 0x10 returns the status block. -/
  | smbusBlockRead (addr : Fin 128) (cmd : Fin 256)
  /-- SET_ENDPOINT_ID (R433). MCTP Set Endpoint ID assigns the endpoint ID. -/
  | setEndpointId (eid : Fin 256)
  /-- GET_ENDPOINT_ID (R433). MCTP Get Endpoint ID returns the endpoint ID. -/
  | getEndpointId
  /-- GET_MCTP_VERSION_SUPPORT (R433). MCTP Get MCTP Version Support is answered. -/
  | getMctpVersionSupport
  /-- GET_MESSAGE_TYPE_SUPPORT (R433). MCTP Get Message Type Support is answered. -/
  | getMessageTypeSupport
  /-- GET_ENDPOINT_UUID (R433). MCTP Get Endpoint UUID is answered. -/
  | getEndpointUuid
  /-- IDENTIFY (R443). FM API Identify reports vendor and device IDs. -/
  | identify (inband : Bool)
  /-- BACKGROUND_OPERATION_STATUS (R443). FM API Background Operation Status reports FLASH_WRITE progress. -/
  | backgroundOperationStatus (inband : Bool)
  /-- GET_RESPONSE_MESSAGE_LIMIT (R443). FM API Get Response Message Limit is answered. -/
  | getResponseMessageLimit (inband : Bool)
  /-- SET_RESPONSE_MESSAGE_LIMIT (R443). FM API Set Response Message Limit is applied. -/
  | setResponseMessageLimit (inband : Bool) (n : Fin 256)
  /-- GET_EVENT_RECORDS (R443). FM API Get Event Records reads the switch's event logs. -/
  | getEventRecords (inband : Bool) (log : Fin 5)
  /-- CLEAR_EVENT_RECORDS (R443). FM API Clear Event Records clears switch event records. -/
  | clearEventRecords (inband : Bool) (log : Fin 5) (all : Bool) (handles : List Nat)
  /-- GET_EVENT_INTERRUPT_POLICY (R443). FM API Get Event Interrupt Policy is answered. -/
  | getEventInterruptPolicy (inband : Bool)
  /-- SET_EVENT_INTERRUPT_POLICY (R443). FM API Set Event Interrupt Policy is applied. -/
  | setEventInterruptPolicy (inband : Bool) (policy : Nat)
  /-- IDENTIFY_SWITCH_DEVICE (R443). FM API Identify Switch Device is answered. -/
  | identifySwitchDevice (inband : Bool)
  /-- GET_PHYSICAL_PORT_STATE (R443). FM API Get Physical Port State is answered. -/
  | getPhysicalPortState (inband : Bool) (ports : List Nat)
  /-- PHYSICAL_PORT_CONTROL (R443). FM API Physical Port Control is carried out as PORTCTL. -/
  | physicalPortControl (inband : Bool) (port : Nat) (op : Nat)
  /-- SEND_PPB_CXLIO_CONFIG_REQUEST (R443). FM API Send PPB CXL.io Configuration Request is carried out. -/
  | sendPpbCxlioConfigRequest (inband : Bool) (port : Nat) (reg : Fin 4096) (wr : Bool) (value : BitVec 32)
  /-- GET_VIRTUAL_CXL_SWITCH_INFO (R443). FM API Get Virtual CXL Switch Info is answered. -/
  | getVirtualCxlSwitchInfo (inband : Bool) (vcs : Fin 64)
  /-- FM_BIND_VPPB (R443). FM API Bind vPPB is carried out as BIND VPPB. -/
  | fmBindVppb (inband : Bool) (vcs : Fin 64) (vppb : Fin 256) (port : Fin 128) (ld : Option (Fin 16)) (lds : Nat)
  /-- FM_UNBIND_VPPB (R443). FM API Unbind vPPB is carried out as UNBIND VPPB. -/
  | fmUnbindVppb (inband : Bool) (vcs : Fin 64) (vppb : Fin 256)
  /-- GENERATE_AER_EVENT (R443). FM API Generate AER Event is carried out. -/
  | generateAerEvent (inband : Bool) (vcs : Fin 64) (vppb : Fin 256) (err : BitVec 32)
  /-- TUNNEL_MANAGEMENT_COMMAND (R443). FM API Tunnel Management Command is forwarded toward LDs. -/
  | tunnelManagementCommand (inband : Bool) (port : Nat)
  /-- SEND_LD_CXLIO_CONFIG_REQUEST (R443). FM API Send LD CXL.io Configuration Request is carried out. -/
  | sendLdCxlioConfigRequest (inband : Bool) (port : Nat)
  /-- SEND_LD_CXLIO_MEMORY_REQUEST (R443). FM API Send LD CXL.io Memory Request is carried out. -/
  | sendLdCxlioMemoryRequest (inband : Bool) (port : Nat)
  /-- GET_DCD_INFO (R443). Get DCD Info inside TUNNEL_KMD is answered. -/
  | getDcdInfo (dom : Fin 4096)
  /-- GET_HOST_DC_REGION_CONFIG (R443). Get Host DC Region Configuration inside TUNNEL_KMD is answered. -/
  | getHostDcRegionConfig (dom : Fin 4096)
  /-- SET_DC_REGION_CONFIG (R443). Set DC Region Configuration returns Unsupported. -/
  | setDcRegionConfig
  /-- GET_DC_REGION_EXTENT_LISTS (R443). Get DC Region Extent Lists inside TUNNEL_KMD is answered. -/
  | getDcRegionExtentLists (dom : Fin 4096)
  /-- FX_EXEC (R445). FX_EXEC carries out one fabric operation at P1 on core 0 for the fabric manager. -/
  | fxExec (inband : Bool) (fn : Fin 65536) (words : List Word) (lds : Nat) (cap : Nat)
  /-- BARRIER_GSYNC (R444). BARRIER with KIND 1 issues a GSYNC. -/
  | barrierGsync (inband : Bool)
  /-- BARRIER_MSYNC (R444). BARRIER with KIND 2 issues an MSYNC. -/
  | barrierMsync (inband : Bool)
  /-- RESULT_GET (R446). RESULT_GET returns a slot image and may acknowledge it. -/
  | resultGet (inband : Bool) (slot : Fin 65536) (ack : Bool)
  /-- TUNNEL_KMD (R444). TUNNEL_KMD carries a dynamic capacity management request to a domain's KMD instance. -/
  | tunnelKmd (inband : Bool) (dom : Fin 4096) (opcode : Nat) (first : Nat) (n : Nat) (vcs : Nat) (blocks : List Nat)
  /-- MEM_READ (R447). MEM_READ reads DAS bytes at P1 through the Gate. -/
  | memRead (inband : Bool) (das : Word) (len : Nat) (dahi : Fin 4096)
  /-- MEM_WRITE (R447). MEM_WRITE writes DAS bytes at P1 through the Gate. -/
  | memWrite (inband : Bool) (das : Word) (dahi : Fin 4096) (bytes : List Byte)
  /-- PROG_LOAD (R448). PROG_LOAD assembles an image chunk and on LAST loads it under the program-load steps. -/
  | progLoad (inband : Bool) (core : Fin 256) (first : Bool) (last : Bool) (offset : Nat) (bytes : List Byte)
  /-- PROG_STOP (R448). PROG_STOP takes a core out of P2 into a P1 idle loop. -/
  | progStop (inband : Bool) (core : Fin 256)
  /-- FM_RING_PUSH (R449). The fabric manager pushes an entry into a PORTAL 3 ring. -/
  | fmRingPush (inband : Bool) (ring : Fin 65536) (entry : Line)
  /-- FM_RING_POP (R449). The fabric manager pops and releases an entry from a PORTAL 4 ring. -/
  | fmRingPop (inband : Bool) (ring : Fin 65536)
  /-- BOOT_RECORD_GET (R468). BOOT_RECORD_GET returns a boot record by age. -/
  | bootRecordGet (inband : Bool) (age : Fin 256)
  /-- MEASURE_LOG_GET (R469). MEASURE_LOG_GET returns runtime measurement log entries. -/
  | measureLogGet (inband : Bool) (first : Nat)
  /-- FAULT_HISTORY_GET (R492). FAULT_HISTORY_GET returns fault history records in RECNO order. -/
  | faultHistoryGet (inband : Bool) (first : Nat)
  /-- FLASH_WRITE (R435). FLASH_WRITE starts a background erase and program of boot flash sectors. -/
  | flashWrite (inband : Bool) (offset : Nat) (last : Bool) (bytes : List Byte)
  /-- FLASH_SECTOR_DONE (R440). A FLASH_WRITE background operation finishes its sectors. -/
  | flashSectorDone
  /-- FLASH_READ (R444). FLASH_READ returns boot flash bytes. -/
  | flashRead (inband : Bool) (offset : Nat) (len : Nat)
  /-- KMD_IDENTIFY (R450). A KMD mailbox Identify is answered. -/
  | kmdIdentify (vcs : Fin 64) (dom : Fin 4096)
  /-- KMD_GET_EVENT_RECORDS (R400). A KMD mailbox Get Event Records reads the instance's logs. -/
  | kmdGetEventRecords (vcs : Fin 64) (dom : Fin 4096) (log : Fin 5)
  /-- KMD_CLEAR_EVENT_RECORDS (R400). A KMD mailbox Clear Event Records clears records. -/
  | kmdClearEventRecords (vcs : Fin 64) (dom : Fin 4096) (log : Fin 5) (all : Bool) (handles : List Nat)
  /-- KMD_GET_EVENT_INT_POLICY (R400). A KMD mailbox Get Event Interrupt Policy is answered. -/
  | kmdGetEventIntPolicy (vcs : Fin 64) (dom : Fin 4096)
  /-- KMD_SET_EVENT_INT_POLICY (R400). A KMD mailbox Set Event Interrupt Policy chooses the signalling. -/
  | kmdSetEventIntPolicy (vcs : Fin 64) (dom : Fin 4096) (policy : Nat)
  /-- GET_TIMESTAMP (R450). Get Timestamp returns device time. -/
  | getTimestamp (vcs : Fin 64) (dom : Fin 4096)
  /-- SET_TIMESTAMP (R450). Set Timestamp is accepted without effect. -/
  | setTimestamp (vcs : Fin 64) (dom : Fin 4096) (time : Word)
  /-- GET_SUPPORTED_LOGS (R450). Get Supported Logs lists the Command Effects Log. -/
  | getSupportedLogs (vcs : Fin 64) (dom : Fin 4096)
  /-- GET_LOG (R450). Get Log returns the Command Effects Log. -/
  | getLog (vcs : Fin 64) (dom : Fin 4096) (uuid : BitVec 128)
  /-- IDENTIFY_MEMORY_DEVICE (R450). Identify Memory Device reports zero static capacity. -/
  | identifyMemoryDevice (vcs : Fin 64) (dom : Fin 4096)
  /-- GET_DC_CONFIGURATION (R450). Get Dynamic Capacity Configuration is answered. -/
  | getDcConfiguration (vcs : Fin 64) (dom : Fin 4096)
  /-- GET_DC_EXTENT_LIST (R450). Get DC Extent List is answered. -/
  | getDcExtentList (vcs : Fin 64) (dom : Fin 4096)
  /-- LOSS_LIST_GET (R450). LOSS_LIST_GET returns Memory Loss records of an incident. -/
  | lossListGet (vcs : Fin 64) (dom : Fin 4096) (incident : Nat) (first : Nat)
  /-- KMD_RING_PUSH (R450). A host pushes into its domain's PORTAL 1 ring. -/
  | kmdRingPush (vcs : Fin 64) (dom : Fin 4096) (entry : Line)
  /-- KMD_RING_POP (R450). A host pops and releases from its domain's PORTAL 2 ring. -/
  | kmdRingPop (vcs : Fin 64) (dom : Fin 4096)
  /-- KMD_BOOT_RECORD_GET (R450). A KMD mailbox BOOT_RECORD_GET returns a boot record. -/
  | kmdBootRecordGet (vcs : Fin 64) (dom : Fin 4096) (age : Fin 256)
  /-- CONSOLE_COMMAND (R437). A console command is received and carried out at P1 where the lifecycle allows. -/
  | consoleCommand (addr : Word) (wr : Bool) (bytes : List Byte)
  /-- GEN_IDENTITY (R456). GEN_IDENTITY creates DEVSECRET and the identity key pair and stores it wrapped. -/
  | genIdentity
  /-- INSTALL_CHAIN (R457). INSTALL_CHAIN checks and installs a certificate chain; slot 0 enters PROVISIONED. -/
  | installChain
  /-- ENROLL_KEY (R459). ENROLL_KEY stores a policy or owner debug key. -/
  | enrollKey
  /-- REVOKE_KEY (R458). REVOKE_KEY revokes a key slot or a firmware key. -/
  | revokeKey
  /-- RAISE_SVN (R459). RAISE_SVN raises a minimum security version. -/
  | raiseSvn
  /-- SEAL (R460). SEAL writes the SEALED lifecycle word, fixing sealed settings from the next boot. -/
  | seal
  /-- DECOMMISSION (R459). DECOMMISSION erases secrets, writes DECOMMISSIONED and warm resets after 1 ms. -/
  | decommission
  /-- EMR_COMMAND_DONE (R459). A running Emmor command ends, writes its status and clears BUSY. -/
  | emrCommandDone
  /-- GET_VERSION (R470). SPDM GET_VERSION is answered. -/
  | getVersion (fn : Nat)
  /-- GET_CAPABILITIES (R470). SPDM GET_CAPABILITIES is answered. -/
  | getCapabilities (fn : Nat) (ver : Nat)
  /-- NEGOTIATE_ALGORITHMS (R470). SPDM NEGOTIATE_ALGORITHMS is answered. -/
  | negotiateAlgorithms (fn : Nat) (rsapss : Bool) (sha512 : Bool) (ffdhe : Bool) (aead : Bool) (meas : Bool)
  /-- GET_DIGESTS (R470). SPDM GET_DIGESTS is answered. -/
  | getDigests (fn : Nat)
  /-- GET_CERTIFICATE (R470). SPDM GET_CERTIFICATE returns a certificate chain. -/
  | getCertificate (fn : Nat) (slot : Nat) (offset : Nat) (len : Nat)
  /-- CHALLENGE (R470). SPDM CHALLENGE is signed by the identity key. -/
  | challenge (fn : Nat) (slot : Nat) (nonce : Nat)
  /-- GET_MEASUREMENTS (R471). SPDM GET_MEASUREMENTS reports the measurement indices, signed. -/
  | getMeasurements (fn : Nat) (index : Nat) (sign : Bool) (nonce : Nat)
  /-- KEY_EXCHANGE (R470). SPDM KEY_EXCHANGE starts a secured session. -/
  | keyExchange (fn : Nat) (slot : Nat) (nonce : Nat)
  /-- FINISH (R470). SPDM FINISH completes session establishment. -/
  | finish (fn : Nat) (sess : Nat) (macOk : Bool)
  /-- KEY_UPDATE (R470). SPDM KEY_UPDATE updates session keys. -/
  | keyUpdate (fn : Nat) (sess : Nat) (op : Nat)
  /-- SPDM_HEARTBEAT (R470). SPDM HEARTBEAT keeps a session alive. -/
  | spdmHeartbeat (fn : Nat) (sess : Nat)
  /-- END_SESSION (R470). SPDM END_SESSION ends a session. -/
  | endSession (fn : Nat) (sess : Nat)
  /-- VENDOR_DEFINED_REQUEST (R391). An SPDM vendor-defined IDE_KM request programs or activates IDE keys. -/
  | vendorDefinedRequest (fn : Nat) (sess : Nat) (obj : Nat) (stream : Fin 2) (dir : Fin 2) (set : Fin 2) (key : BitVec 256)
  /-- TAMPER_SUPPLY (R473). A watched rail leaves its band for 5 ns and an alarm follows. -/
  | tamperSupply (holds : Bool)
  /-- TAMPER_TEMP (R473). Junction temperature beyond −25 or 125 °C for 1 ms raises an alarm. -/
  | tamperTemp (holds : Bool)
  /-- TAMPER_MESH (R473). The lid mesh reads open or shorted and an alarm follows. -/
  | tamperMesh (holds : Bool)
  /-- ALARM_LATCH_CLEAR (R474). Clearing EMR_ALARM_STAT.LATCH bits lets ALARM_N fall when no condition holds. -/
  | alarmLatchClear (bits : Fin 32)
  /-- EMR_CHALLENGE (R477). A JTAG read of EMR_CHALLENGE draws a new nonce and invalidates the last. -/
  | emrChallenge
  /-- EMR_TOKEN (R478). A debug-unlock token is shifted in, verified, and if accepted erases, unlocks and warm resets as DEBUG_UNLOCKED. -/
  | emrToken (token : BitVec 8192)
  /-- DEBUG_ACCESS (R74). A debug master's memory access is checked at P1 and refused in locked regions with an alarm. -/
  | debugAccess (addr : Word) (len : Fin 65) (wr : Bool) (bytes : List Byte)
  /-- EXTEST (R549). JTAG EXTEST selects the boundary register. -/
  | extest (cells : Nat)
  /-- SAMPLE_PRELOAD (R549). JTAG SAMPLE/PRELOAD selects the boundary register. -/
  | samplePreload (cells : Nat)
  /-- IDCODE (R549). JTAG IDCODE selects the 32-bit IDCODE register. -/
  | idcode
  /-- EXTEST_PULSE (R549). JTAG EXTEST_PULSE drives 1149.6 AC test. -/
  | extestPulse (cells : Nat)
  /-- EXTEST_TRAIN (R549). JTAG EXTEST_TRAIN drives 1149.6 AC test. -/
  | extestTrain (cells : Nat)
  /-- CLAMP (R549). JTAG CLAMP holds outputs from the boundary register. -/
  | clamp
  /-- HIGHZ (R549). JTAG HIGHZ places outputs in high impedance. -/
  | highz
  /-- BYPASS (R549). JTAG BYPASS, also taken by any unaccepted code. -/
  | bypass
  /-- TAP_RESET (R550). TRST_N, five TMS-high clocks or PWR_OK low reset the TAP. -/
  | tapReset
  /-- FLT_FORCE (R494). A store of FORCE to FLT_SRC raises the source as though its condition occurred. -/
  | fltForce (src : Fin 2048) (sev : Fin 8) (clear : Bool)
  /-- DEVICE_RESET_START (R487). After its history record and host records, a DEVICE reaction starts a warm reset or escalates to TERMINAL. -/
  | deviceResetStart
  /-- FLT_SEV_WRITE (R483). A write of FLT_SRC.SEV sets the severity unless refused. -/
  | fltSevWrite (src : Fin 2048) (sev : Fin 8)
  /-- FLT_LATCH_CLEAR (R490). Clearing LATCH lets FAULT_N fall when no qualifying latch remains. -/
  | fltLatchClear (src : Fin 2048) (sev : Fin 8)
  /-- PMU_TIME_CREDIT (R500). TIME events credit their counters at least every 1 µs. -/
  | pmuTimeCredit
  /-- BW_WINDOW_END (R511). A bandwidth window ends and its totals are written to the next history entry. -/
  | bwWindowEnd (port : Fin 96)
  /-- PMU_BW_CLEAR (R511). A store to PMU_BW word 0 clears the history and SEQ. -/
  | pmuBwClear (port : Fin 96) (en : Bool) (window : Fin 1048576)
  /-- OASIS_REFRESH (R232). A per-bank refresh is issued at the rate of the stack's thermal band. -/
  | oasisRefresh (stack : Nat)
  /-- ZQ_LATCH (R233). A background ZQ calibration result is latched. -/
  | zqLatch (stack : Nat)
  /-- OASIS_TEMP_POLL (R232). Each stack temperature is polled and the thermal band and drift trigger updated. -/
  | oasisTempPoll (stack : Nat) (temp : Byte)
  /-- OASIS_EYE_MONITOR (R236). The read-eye monitor measures each subchannel and queues retraining below EYE_MIN. -/
  | oasisEyeMonitor (sub : Nat) (margin : Nat)
  /-- OASIS_LOAD_TICK (R235). Each 1 ms of full load adds to FULL_MS and queues retraining at 10,000. -/
  | oasisLoadTick (ch : Nat) (util : Nat)
  /-- OAS_RETRAIN_REQ (R236). A write of DLR_OAS_RETRAIN.REQ queues a subchannel for retraining. -/
  | oasRetrainReq (sub : Nat)
  /-- RETRAIN_STEP (R237). One shadow retraining step runs, stalling its channel up to 2 µs, and the last step verifies and commits. -/
  | retrainStep (last : Bool) (ok : Bool) (util : Nat)
  /-- RETRAIN_RETRY (R237). After a failed verification the subchannel is queued again after 1 s or 10 s. -/
  | retrainRetry (sub : Nat)
  /-- OASIS_PATROL (R239). A patrol read visits Oasis lines and corrects them. -/
  | oasisPatrol (oa : Nat) (err : Nat)
  /-- PRSNT_CHANGE (R515). A slot's PRSNT_N changes; removal turns the slot off and is a device loss. -/
  | prsntChange (slot : Fin 32) (low : Bool)
  /-- SPC_PRESENCE_WAIT_EXPIRE (R515). PRSNT_N low for 100 ms with a valid feed moves WAIT to RAMP on the preferred feed. -/
  | spcPresenceWaitExpire (slot : Fin 32)
  /-- FEED_VALID (R514). A feed above FEED_UV for 10 ms becomes valid. -/
  | feedValid (slot : Fin 32) (b : Bool) (level : Fin 2048)
  /-- FEED_INVALID (R517). A feed falls below FEED_UV; a switchover or FEED_LOST turn-off follows. -/
  | feedInvalid (slot : Fin 32) (b : Bool) (level : Fin 2048)
  /-- GATE_ENHANCED (R515). The driven gate is fully enhanced; RAMP or SWITCH enters ON and PG may rise. -/
  | gateEnhanced (slot : Fin 32) (vout : Fin 2048) (early : Bool)
  /-- BBM_EXPIRE (R517). The break-before-make gap passes and the other gate is driven. -/
  | bbmExpire (slot : Fin 32)
  /-- PREFERRED_FEED_RETURN (R517). The preferred feed has been valid for 1 s while the other is active and a switchover starts. -/
  | preferredFeedReturn (slot : Fin 32)
  /-- FAST_TRIP (R518). Sense at or above FAST_MV turns the gate off within 300 ns. -/
  | fastTrip (slot : Fin 32) (sense : Fin 4096)
  /-- SHORT_IN_RAMP (R518). Sense at or above RAMP_MV during the ramp turns the gate off. -/
  | shortInRamp (slot : Fin 32) (sense : Fin 4096)
  /-- BREAKER_TIMER_START (R518). Sense reaches CB_MV and the breaker timer starts, raising EW. -/
  | breakerTimerStart (slot : Fin 32) (sense : Fin 4096)
  /-- BREAKER_TIMER_STOP (R518). Sense falls below CB_MV and the breaker timer clears. -/
  | breakerTimerStop (slot : Fin 32) (sense : Fin 4096)
  /-- BREAKER (R518). The breaker timer expires and the gate turns off. -/
  | breaker (slot : Fin 32)
  /-- GATE_STUCK (R519). A gate fails to enhance in time or sags in ON and the controller latches. -/
  | gateStuck (slot : Fin 32)
  /-- FET_SHORT (R519). VOUT stays high for 200 ms with gates off and the controller latches. -/
  | fetShort (slot : Fin 32) (vout : Fin 2048)
  /-- COOL_EXPIRE (R515). 1 s in COOL passes and the controller returns to WAIT. -/
  | coolExpire (slot : Fin 32)
  /-- RETRIES_RESET (R520). After 10 s in ON RETRIES returns to 0. -/
  | retriesReset (slot : Fin 32)
  /-- EW_FALL (R522). EW falls after 1 ms with no warning condition. -/
  | ewFall (slot : Fin 32)
  /-- SPC_ON (R523). SPC_CTL.ON moves OFF to WAIT. -/
  | spcOn (slot : Fin 32)
  /-- SPC_OFF (R523). SPC_CTL.OFF turns the slot off with cause COMMAND. -/
  | spcOff (slot : Fin 32) (on : Bool)
  /-- SPC_CLEAR (R523). SPC_CTL.CLEAR moves LATCHED to OFF and clears RETRIES. -/
  | spcClear (slot : Fin 32) (off : Bool) (on : Bool)
  /-- SPC_EVENTS_CLEAR (R524). Clearing SPC_STAT.EVENTS bits deasserts the controller's level interrupt source. -/
  | spcEventsClear (slot : Fin 32) (bits : Fin 16)
  /-- PWR_OK_RISE (R532). PWR_OK rises and a cold reset boot begins. -/
  | pwrOkRise
  /-- PWR_OK_FALL (R529). PWR_OK falls; admission stops, DEVICE_READY drops, gates turn off and a cold reset starts. -/
  | pwrOkFall
  /-- RESET_N (R532). RESET_N held low while PWR_OK is high requests a cold reset. -/
  | resetN
  /-- WARM_RESET_N (R532). WARM_RESET_N held low requests a warm reset. -/
  | warmResetN
  /-- BOOT_STEP_ADVANCE (R462). A boot step completes and the next begins, or the boot stops with a failed-boot record. -/
  | bootStepAdvance (test : Bool) (unwrap : Bool) (readA : Bool) (readB : Bool) (codes : BitVec 128) (bad : Fin 5)
  /-- DEVICE_IDLE_EXIT (R535). A record admission, wake source, management command or deadline ends device idle. -/
  | deviceIdleExit (source : Option (Fin 8191))
  /-- REGISTER_WRITE (R6). A write to a register field with no behaviour of its own stores it under its access code. -/
  | registerWrite (addr : BitVec 48) (value : Word)
  /-- MELD_PRED_WRITE (R181). MELD_PRED_ACC with WR = 1 writes COUNTER into a predictor entry. -/
  | meldPredWrite (counter : Fin 4) (index : Fin 32768)
  /-- MELD_PRED_LOAD (R181). MELD_PRED_ACC with WR = 0 loads a predictor entry into COUNTER. -/
  | meldPredLoad (index : Fin 32768)
  /-- OASIS_ACCESS_DONE (R231). An Oasis channel completes a queued read or write, returning the line's data or freeing a queue entry so a request waiting in the packet store proceeds. -/
  | oasisAccessDone (ch : Nat) (wr : Bool) (err : Nat)
  /-- IO_COMPLETION (R387). A completion arrives for a CXL.io request that firmware originated on a device port and meets its timeout at the port arbiter. -/
  | ioCompletion (port : Nat) (tag : Nat) (data : List Nat)
  /-- TRL_ALIGN_CONFIG_TIMEOUT (R420). The 1 ms limit of ALIGN or CONFIG passes without success and the TRL port fails back to DETECT. -/
  | trlAlignConfigTimeout (tile : Nat)
  /-- RESET_BALL_RISE (R532). RESET_N or WARM_RESET_N rises, ending the reset and starting boot at step 1. -/
  | resetBallRise (warm : Bool)
  /-- LIFECYCLE_WARM_RESET (R459). The 1 ms after DECOMMISSION or a GRAVE alarm writes DECOMMISSIONED passes and a warm reset starts. -/
  | lifecycleWarmReset
  /-- FEED_WARN (R522). The active feed falls below FEED_WARN and EW rises within 1 µs. -/
  | feedWarn (slot : Fin 32) (level : Fin 2048)
  /-- VOUT_BELOW_FEED_UV (R521). VOUT falls below FEED_UV during a switchover and PG falls within 1 µs. -/
  | voutBelowFeedUv (slot : Fin 32) (vout : Fin 2048)
  /-- CXL_LOW_POWER_ENTRY (R362). A CXL port enters ASPM L1 or L0p, and its idle lanes enter WARM_IDLE. -/
  | cxlLowPowerEntry (port : Nat) (mode : Nat) (keep : Nat)
  /-- CXL_LOW_POWER_EXIT (R362). A CXL port leaves L1 or L0p through electrical idle exit and its lanes return to ACTIVE. -/
  | cxlLowPowerExit (port : Nat)
  /-- TIME_SLEW_END (R354). The time base finishes slewing back after holdover and SLEWING clears. -/
  | timeSlewEnd
  deriving DecidableEq, Repr

end Sys2Proof
end

