-- ==== Sys2Proof/Decode.lean ====
section
/-!
DEFINITION. Decode.lean: the commands that a word spells by the bits of the opcode table. The table gives no row any bits, since the
device is a block: its commands come as records, messages and events of its interfaces. The instruction words of the Falgan cores (spec
09) are decoded where they are run, by the commands of the cores.
-/
namespace Sys2Proof

/-- No row of the opcode table has bits: no word spells a command. -/
def decodeTableWord (nbits w : Nat) : Option Instr :=
  let _ := (nbits, w)
  none

end Sys2Proof
end

