-- ==== Sys2Proof/Machine/Bits.lean ====
section
/-!
DEFINITION. Machine/Bits.lean: bit-field helpers, the byte order of spec 00 ("Data in memory, in descriptors and in
records is little-endian"), saturating and wrapping counts.
-/
namespace Sys2Proof.Machine

/-- Field [hi:lo] of a word, as a number. -/
def fld (w : Word) (hi lo : Nat) : Nat := w.toNat / 2 ^ lo % 2 ^ (hi - lo + 1)

/-- Bit n of a word. -/
def bit (w : Word) (n : Nat) : Bool := w.toNat / 2 ^ n % 2 == 1

/-- A number placed as the field that starts at bit lo. -/
def at_ (v lo : Nat) : Nat := v * 2 ^ lo

/-- 1 for true, 0 for false. -/
def b2n (b : Bool) : Nat := if b then 1 else 0

/-- The 64-bit word of a sum of placed fields. -/
def word (n : Nat) : Word := BitVec.ofNat 64 n

/-- Replaces field [hi:lo] of a word by v, taken modulo the field's width. -/
def setFld (w : Word) (hi lo v : Nat) : Word :=
  word (w.toNat - at_ (fld w hi lo) lo + at_ (v % 2 ^ (hi - lo + 1)) lo)

/-- Sign extension of the low n bits of a number to 64 bits. -/
def sext (n v : Nat) : Word := (BitVec.ofNat n v).signExtend 64

/-- The two's complement value of the low n bits. -/
def sval (n v : Nat) : Int := (BitVec.ofNat n v).toInt

/-- a saturating sum. -/
def satAdd (max a b : Nat) : Nat := if a + b ≤ max then a + b else max

/-- Division rounded up. -/
def ceilDiv (a b : Nat) : Nat := (a + b - 1) / b

/-- Byte i of a line. -/
def lineByte (l : Line) (i : Nat) : Byte := BitVec.ofNat 8 (l.toNat / 2 ^ (8 * i))

/-- Mask of 512 bits from a byte mask of 64 bits. -/
def spreadMask (m : Word) : Line :=
  (List.range 64).foldl (fun a i => if bit m i then a ||| (BitVec.ofNat 512 255 <<< (8 * i)) else a) 0

/-- The bytes of `new` that the byte mask names, over `old` (a full or partial write). -/
def mergeLine (old new : Line) (m : Word) : Line :=
  if m = BitVec.allOnes 64 then new else (old &&& ~~~ (spreadMask m)) ||| (new &&& spreadMask m)

/-- The little-endian number held by a list of bytes, lowest first. -/
def leNat : List Byte → Nat
  | [] => 0
  | b :: t => b.toNat + 256 * leNat t

/-- n bytes of a number, lowest first. -/
def leBytes : Nat → Nat → List Byte
  | 0, _ => []
  | k + 1, v => BitVec.ofNat 8 v :: leBytes k (v / 256)

/-- Byte mask of n bytes from byte offset o of a line. -/
def maskAt (o n : Nat) : Word := word (at_ (2 ^ n - 1) o)

/-- Count of set bits of the low n bits. -/
def popCount : Nat → Nat → Nat
  | 0, _ => 0
  | k + 1, v => v % 2 + popCount k (v / 2)

end Sys2Proof.Machine
end

