-- ==== Sys2Proof/Machine/Flags.lean ====
section
/-!
DEFINITION. Machine/Flags.lean: the code of every status, state and mode (R8, R29, R39, R128, R186, R199, R245, R454), and
the table of fault sources (R481): scope, default severity, floor.
-/
namespace Sys2Proof.Machine

/-- R8. -/
def Status.code : Status → Nat
  | .ok => 0 | .busy => 1 | .denied => 2 | .invalid => 3 | .notReady => 4 | .abortedByWake => 5 | .noSpace => 6
  | .timeout => 7 | .conflict => 8 | .poisoned => 9 | .locked => 10 | .retry => 11 | .faulted => 12

/-- The status of a code; none above 0x0C (R9, R288). -/
def Status.ofCode : Nat → Option Status
  | 0 => some .ok | 1 => some .busy | 2 => some .denied | 3 => some .invalid | 4 => some .notReady
  | 5 => some .abortedByWake | 6 => some .noSpace | 7 => some .timeout | 8 => some .conflict | 9 => some .poisoned
  | 10 => some .locked | 11 => some .retry | 12 => some .faulted | _ => none

/-- R63. -/
def Priv.code : Priv → Nat
  | .p0 => 0 | .p1 => 1 | .p2 => 2 | .p3 => 3

/-- R29. -/
def DState.code : DState → Nat
  | .free => 0 | .active => 1 | .quiescing => 2 | .contained => 3 | .retiring => 4

/-- R39. -/
def Mode.code : Mode → Nat
  | .priv => 0 | .scoh => 1 | .snco => 2

/-- R39; 0b11 is reserved. -/
def Mode.ofCode : Nat → Option Mode
  | 0 => some .priv | 1 => some .scoh | 2 => some .snco | _ => none

/-- R186. -/
def Kind.code : Kind → Nat
  | .zero => 0 | .pool => 1 | .oasis => 2 | .duplex => 3 | .poisoned => 4

/-- R186. -/
def MState.code : MState → Nat
  | .none => 0 | .copying => 1 | .switching => 2

/-- R220. -/
def PState.code : PState → Nat
  | .absent => 0 | .scrubbing => 1 | .active => 2 | .evacuating => 3 | .lost => 4

/-- R128. -/
def Dir.code : Dir → Nat
  | .s => 1 | .e => 2 | .m => 3 | .o => 4 | .wbp => 5

/-- R280. -/
def CState.code : CState → Nat
  | .reset => 0 | .run => 1 | .wait => 2 | .sleep => 3 | .halted => 4 | .faulted => 5

/-- R162: the operation of a code; 0xA-0xF are reserved. -/
def MeldOp.ofCode : Nat → Option MeldOp
  | 0 => some .add | 1 => some .and | 2 => some .or | 3 => some .xor | 4 => some .smin | 5 => some .smax
  | 6 => some .umin | 7 => some .umax | 8 => some .swap | 9 => some .cas | _ => none

/-- R162: the code of an operation. -/
def MeldOp.code : MeldOp → Nat
  | .add => 0 | .and => 1 | .or => 2 | .xor => 3 | .smin => 4 | .smax => 5 | .umin => 6 | .umax => 7 | .swap => 8
  | .cas => 9

/-- Bytes of a Meld width, R162. -/
def MeldW.bytes : MeldW → Nat
  | .w32 => 4 | .w64 => 8 | .w128 => 16

/-- R162: 0b11 is reserved. -/
def MeldW.ofCode : Nat → Option MeldW
  | 0 => some .w32 | 1 => some .w64 | 2 => some .w128 | _ => none

/-- Code of a width. -/
def MeldW.code : MeldW → Nat
  | .w32 => 0 | .w64 => 1 | .w128 => 2

/-- R498. -/
def Scope.code : Scope → Nat
  | .none => 0 | .domain => 1 | .port => 2

/-! ### Fault source numbers, R481 -/

def fErgPartCheck : Nat := 0
def fErgPaceDegraded : Nat := 1
def fErgPaceCritical : Nat := 2
def fErgEccUncorr : Nat := 3
def fErgEccHdr : Nat := 4
def fCohLcEcc : Nat := 32
def fCohSfUncorr : Nat := 33
def fCohProtocol : Nat := 34
def fCohBisnpTimeout : Nat := 35
def fCohHomeLost : Nat := 36
def fCohLcTag : Nat := 37
def fMeldFarTimeout : Nat := 64
def fDlrFillStall : Nat := 96
def fDlrFillFail : Nat := 97
def fOasUncorr : Nat := 98
def fOasMapUncorr : Nat := 99
def fOasTag : Nat := 100
def fOasMargin : Nat := 101
def fOasRetrainFail : Nat := 102
def fOasHot : Nat := 103
def fOasRetire : Nat := 104
def fPoolPoison : Nat := 105
def fGateViolation : Nat := 128
def fBindDecodeMiss : Nat := 129
def fBindWindowMiss : Nat := 130
def fBindStateRefuse : Nat := 131
def fBindWpRefuse : Nat := 132
def fBindUnbacked : Nat := 133
def fFlgCoreFault : Nat := 160
def fFlgLmem : Nat := 161
def fFlgShm : Nat := 162
def fQringUncorr : Nat := 163
def fQringSpill : Nat := 164
def fIcuStranded : Nat := 165
def fNvmWriteFail : Nat := 192
def fEmrSigfail : Nat := 193
def fEmrAlarm : Nat := 194
def fLaneCfgCheck : Nat := 208
def fLaneHoldover : Nat := 209
def fMgmtFmPath : Nat := 210
def fTrlSwitchLost (k : Nat) : Nat := 224 + k
def fLane (tile k : Nat) : Nat := 256 + 16 * tile + k
def fCxp (port k : Nat) : Nat := 640 + 8 * port + k
def fTrl (tile k : Nat) : Nat := 1408 + 8 * tile + k
def fSpc (n : Nat) : Nat := 1600 + n

/-- The table of fault sources, R481: scope, default severity, floor. A number it does not list is reserved (R480). -/
def fltInfo (n : Nat) : Option (Scope × Nat × Nat) :=
  if n = 0 then some (.none, 0, 0) else
  if n = 1 then some (.none, 1, 0) else
  if n = 2 then some (.none, 3, 1) else
  if n = 3 ∨ n = 4 ∨ n = 32 then some (.none, 0, 0) else
  if n = 33 then some (.none, 3, 3) else
  if n = 34 then some (.port, 0, 0) else
  if n = 35 then some (.domain, 2, 2) else
  if n = 36 then some (.domain, 0, 0) else
  if n = 37 then some (.domain, 3, 2) else
  if n = 64 ∨ n = 96 then some (.domain, 0, 0) else
  if n = 97 then some (.domain, 1, 0) else
  if n = 98 then some (.none, 0, 0) else
  if n = 99 then some (.none, 1, 0) else
  if n = 100 then some (.domain, 3, 2) else
  if n = 101 ∨ n = 104 then some (.none, 0, 0) else
  if n = 102 ∨ n = 103 then some (.none, 1, 0) else
  if n = 105 ∨ n = 128 then some (.domain, 0, 0) else
  if n = 129 then some (.port, 0, 0) else
  if 130 ≤ n ∧ n ≤ 133 then some (.domain, 0, 0) else
  if 160 ≤ n ∧ n ≤ 164 then some (.none, 0, 0) else
  if n = 165 then some (.none, 3, 0) else
  if n = 192 then some (.none, 1, 0) else
  if n = 193 ∨ n = 194 ∨ n = 208 then some (.none, 0, 0) else
  if n = 209 ∨ n = 210 then some (.none, 1, 0) else
  if 224 ≤ n ∧ n ≤ 239 then some (.none, 1, 0) else
  if 256 ≤ n ∧ n < 640 then
    (match (n - 256) % 16 with
     | 0 => some (.none, 1, 0)
     | 1 | 2 | 3 | 4 | 5 => some (.none, 0, 0)
     | 6 => some (.none, 1, 0)
     | _ => none) else
  if 640 ≤ n ∧ n < 1408 then
    (match (n - 640) % 8 with
     | 0 => some (.port, 0, 0)
     | 1 | 2 | 3 => some (.port, 1, 0)
     | 4 => some (.port, 0, 0)
     | 5 => some (.port, 2, 2)
     | 6 => some (.port, 0, 0)
     | _ => none) else
  if 1408 ≤ n ∧ n < 1600 then
    (match (n - 1408) % 8 with
     | 0 => some (.port, 2, 0)
     | 1 | 3 | 6 => some (.port, 0, 0)
     | 2 | 4 | 5 => some (.port, 1, 0)
     | _ => none) else
  if 1600 ≤ n ∧ n < 1632 then some (.none, 1, 0)
  else none

/-- The reset MODE of an interrupt source, R328: true for edge. -/
def icuEdgeReset (n : Nat) : Bool :=
  !((n < 1024 : Bool) || ((5120 ≤ n : Bool) && (n < 7168 : Bool)) || ((7328 ≤ n : Bool) && (n < 7360 : Bool)))

end Sys2Proof.Machine
end

