-- ==== Sys2Proof/Machine/Operands.lean ====
section
/-!
DEFINITION. Machine/Operands.lean: the operands and results of the Meld operations (R162, R163).
-/
namespace Sys2Proof.Machine

/-- A Meld operation is legal with a width (R162): 128 bits only with CAS. -/
def meldLegal (op : MeldOp) (w : MeldW) : Bool :=
  match w, op with
  | .w128, .cas => true
  | .w128, _ => false
  | _, _ => true

/-- The target as the operation finds it in the line. -/
def meldOld (l : Line) (w : MeldW) (off : Nat) : Nat := l.toNat / 2 ^ (8 * off) % 2 ^ (8 * w.bytes)

/-- The new value of a Meld operation, R162. -/
def meldNew (op : MeldOp) (w : MeldW) (old a b : Nat) : Nat :=
  let n := 8 * w.bytes
  let x := a % 2 ^ n
  match op with
  | .add => (old + x) % 2 ^ n
  | .and => old &&& x
  | .or => old ||| x
  | .xor => old ^^^ x
  | .smin => if sval n x < sval n old then x else old
  | .smax => if sval n old < sval n x then x else old
  | .umin => if x < old then x else old
  | .umax => if old < x then x else old
  | .swap => x
  | .cas => if old = x then b % 2 ^ n else old

/-- Whether the operation writes its target: every one but a CAS that fails (R163). -/
def meldWrites (op : MeldOp) (w : MeldW) (old a : Nat) : Bool :=
  match op with
  | .cas => old == a % 2 ^ (8 * w.bytes)
  | _ => true

/-- The line with a value in the target bytes. -/
def meldLine (off v : Nat) : Line := BitVec.ofNat 512 (v * 2 ^ (8 * off))

end Sys2Proof.Machine
end

