-- ==== Sys2Proof/Config.lean ====
section
/-!
DEFINITION. Config.lean: what the spec leaves open, as constants without a body: free values (applied to the counter
`State.free`), and the functions of the device's secrets and of cryptography, which the spec names by standard only.
-/
namespace Sys2Proof.Config

/-- A free 64-bit value (log entry 3, DESIGN CHOICE). -/
opaque freeWord : Nat → Word

/-- A free line. -/
opaque freeLine : Nat → Line

/-- A free yes or no: the sampling generators (R195, R506). -/
opaque freeBool : Nat → Nat → Bool

/-- SHA-512 of a message, as a number of 512 bits (R3, FIPS 180-4). -/
opaque sha512 : List Byte → BitVec 512

/-- Whether a signature verifies: the key's modulus, the message, the signature (R3, RFC 8017). -/
opaque sigOk : List Byte → List Byte → List Byte → Bool

/-- A signature of the identity key: its modulus, the draw of the salt, the message. -/
opaque sign : List Byte → Nat → List Byte → BitVec 4096

/-- A free value of 4,096 bits: what the random number generator gives for keys and nonces. -/
opaque freeBig : Nat → BitVec 4096

/-- The digest of ROM (R462), and the digests of keys that ROM holds (R458): 0 root CA, 1 and 2 firmware keys. -/
opaque romDigest : BitVec 512
opaque romKeyDigest : Nat → BitVec 512

/-- Whether a signature verifies with a Brevatrix key (R312, R477): 0 policy images, 1 debug authorization. -/
opaque romSigOk : Nat → List Byte → List Byte → Bool

/-- Whether a certificate chain passes the checks of R457: slot, chain, the device key. -/
opaque chainOk : Nat → List Byte → List Byte → Bool

/-- The serial number fused at manufacture (R456). -/
opaque serial : Word

/-- I3C characteristics registers (R433). -/
opaque bcr : BitVec 8
opaque dcr : BitVec 8

/-- MCTP endpoint UUID, and the version words of Get MCTP Version Support (R433). -/
opaque uuid : BitVec 128
opaque mctpVersion : BitVec 32

/-- Effects that the Command Effects Log gives an opcode (R450). -/
opaque celEffects : Nat → BitVec 16

/-- The fused voltage code of CORE_VID (R528), 0 to 20. -/
opaque vidCode : Fin 21

end Sys2Proof.Config
end

