-- ==== Sys2Proof/Machine/Store.lean ====
section
/-!
DEFINITION. Machine/Store.lean: sparse stores. A store is a list of (key, value) pairs in one canonical form: keys strictly
rising and no entry equal to the value that an unlisted key reads as. Every table, memory and queue index of the model
is kept in one.
-/
namespace Sys2Proof.Machine

/-- A sparse store of values keyed by numbers. -/
abbrev SMap (α : Type) := List (Nat × α)

/-- The value at key k; `d` where the store lists none. -/
def sget {α : Type} (d : α) : SMap α → Nat → α
  | [], _ => d
  | (a, v) :: t, k => if k = a then v else sget d t k

/-- The entry at key k, if the store lists one. -/
def sfind? {α : Type} : SMap α → Nat → Option α
  | [], _ => none
  | (a, v) :: t, k => if k = a then some v else sfind? t k

/-- Lists v at key k, in place. -/
def sput {α : Type} : SMap α → Nat → α → SMap α
  | [], k, v => [(k, v)]
  | (a, w) :: t, k, v =>
    if k < a then (k, v) :: (a, w) :: t else if k = a then (k, v) :: t else (a, w) :: sput t k v

/-- Removes key k. -/
def sdel {α : Type} : SMap α → Nat → SMap α
  | [], _ => []
  | (a, w) :: t, k => if k = a then sdel t k else (a, w) :: sdel t k

/-- Writes v at key k, keeping the canonical form: the default value is not listed. -/
def sset {α : Type} [DecidableEq α] (d : α) (m : SMap α) (k : Nat) (v : α) : SMap α :=
  if v = d then sdel m k else sput m k v

/-- Applies f to the value at key k. -/
def supd {α : Type} [DecidableEq α] (d : α) (m : SMap α) (k : Nat) (f : α → α) : SMap α :=
  sset d m k (f (sget d m k))

/-- Keys strictly above `lo` and rising. -/
def rising {α : Type} : Nat → SMap α → Bool
  | _, [] => true
  | lo, (a, _) :: t => (lo ≤ a : Bool) && rising (a + 1) t

/-- The canonical form of a store: keys rising, no listed default. -/
def swf {α : Type} [DecidableEq α] (d : α) (m : SMap α) : Bool :=
  rising 0 m && m.all (fun p => !(decide (p.2 = d)))

/-- Keeps the entries that satisfy p. -/
def sfilter {α : Type} (p : Nat → α → Bool) (m : SMap α) : SMap α := m.filter (fun x => p x.1 x.2)

/-- Byte memory: what an unlisted address reads as is 0 (log entry 7, DESIGN CHOICE). -/
abbrev Memory := List Host.Cell

/-- One byte of memory. -/
def memByte (m : Memory) (a : Nat) : Byte := sget 0#8 m a

/-- Writes one byte of memory. -/
def memSet (m : Memory) (a : Nat) (b : Byte) : Memory := sset 0#8 m a b

/-- Writes bytes at rising addresses. -/
def memWrite (m : Memory) (a : Nat) : List Byte → Memory
  | [] => m
  | b :: t => memWrite (memSet m a b) (a + 1) t

/-- Reads n bytes from address a. -/
def memRead (m : Memory) (a : Nat) : Nat → List Byte
  | 0 => []
  | n + 1 => memByte m a :: memRead m (a + 1) n

/-- The canonical form of a memory. -/
def Memory.wf (m : Memory) : Bool := swf 0#8 m

/-- Removes every byte of the range [a, a + n): the range reads 0. -/
def memClear (m : Memory) (a n : Nat) : Memory := m.filter (fun c => !((a ≤ c.1 : Bool) && (c.1 < a + n : Bool)))

/-- Disjoint rising ranges (start, length) of free numbers. -/
abbrev Ranges := List (Nat × Nat)

/-- How many numbers the ranges hold. -/
def rcount : Ranges → Nat
  | [] => 0
  | (_, n) :: t => n + rcount t

/-- The lowest number, and the ranges without it. -/
def rtake? : Ranges → Option (Nat × Ranges)
  | [] => none
  | (_, 0) :: t => rtake? t
  | (a, n + 1) :: t => some (a, if n = 0 then t else (a + 1, n) :: t)

/-- Whether a number lies in the ranges. -/
def rmem (r : Ranges) (k : Nat) : Bool := r.any (fun p => (p.1 ≤ k : Bool) && (k < p.1 + p.2 : Bool))

/-- Adds one number not in the ranges, joining neighbours. -/
def radd : Ranges → Nat → Ranges
  | [], k => [(k, 1)]
  | (a, n) :: t, k =>
    if k + 1 < a then (k, 1) :: (a, n) :: t
    else if k + 1 = a then (k, n + 1) :: t
    else if k < a + n then (a, n) :: t
    else if k = a + n then
      match t with
      | (b, m) :: t' => if b = k + 1 then (a, n + 1 + m) :: t' else (a, n + 1) :: (b, m) :: t'
      | [] => [(a, n + 1)]
    else (a, n) :: radd t k

/-- Removes one number. -/
def rdel : Ranges → Nat → Ranges
  | [], _ => []
  | (a, n) :: t, k =>
    if k < a then (a, n) :: t
    else if k < a + n then
      (if k = a then [] else [(a, k - a)]) ++ (if k + 1 = a + n then t else (k + 1, a + n - k - 1) :: t)
    else (a, n) :: rdel t k

end Sys2Proof.Machine
end

