-- ==== Sys2Proof/Machine/TypesA.lean ====
section
/-!
DEFINITION. Machine/TypesA.lean: the state of the request path: domains, windows, capacity (spec 02), the Gate (03), the
Erg (04), requests in flight (01), coherence (05) and the Meld units (06).
-/
namespace Sys2Proof.Machine

/-! ### Domains and binding (02) -/

/-- A domain entry, R29, with what the domain's sequences keep beside it. -/
structure Domain where
  valid    : Bool := false
  st       : DState := .free
  mapBase  : Nat := 0
  wall     : Nat := 0
  qos      : Nat := 0
  hosts    : Nat := 0
  winCount : Nat := 0
  kmd      : Bool := false
  privSize : Nat := 0
  scohSize : Nat := 0
  sncoSize : Nat := 0
  /-- VCSs whose requests a quiesce of one VCS refuses, R291. -/
  quiesced : List Nat := []
  /-- Result slot of a retirement, R291. -/
  retireSlot : Option Nat := none
  /-- Parcels scrubbed since the retirement began. -/
  scrubbed : Nat := 0
  /-- DA blocks (2 MiB) in the domain's extents, R44. -/
  extents  : List Nat := []
  /-- KMD given to domain 0 since the last reset, R33. -/
  given    : Bool := false
  deriving DecidableEq, Repr

/-- A binding window, R39. -/
structure Window where
  valid : Bool := false
  mode  : Mode := .priv
  drain : Bool := false
  wp    : Bool := false
  dom   : Nat := 0
  vcs   : Nat := 0
  dec   : Nat := 0
  hpa   : Nat := 0
  gen   : Nat := 0
  size  : Nat := 0
  da    : Nat := 0
  /-- Result slot of a WINCLR that waits for the drain, R46. -/
  slot  : Option Nat := none
  deriving DecidableEq, Repr

/-- A committed HDM decoder of a KMD instance in one VCS, R38; base, size and DA base in units of 256 MiB. -/
structure Decoder where
  vcs  : Nat
  dom  : Nat
  dec  : Nat
  hpa  : Nat
  size : Nat
  da   : Nat
  deriving DecidableEq, Repr

/-- An offer of dynamic capacity, R44: the VCSs that have not answered, the blocks offered and those accepted. -/
structure Offer where
  dom      : Nat
  blocks   : List Nat
  waiting  : List Nat
  accepted : List Nat
  deriving DecidableEq, Repr

/-- A release of capacity, R45. Phase 0: host copies are being invalidated (transactions in `waits`); 1: the flip is
committed, requests that passed placement before it complete (requests in `waits`); 2: the former backing (device index, 255
for the near tier; parcel) is being scrubbed. -/
structure Release where
  dom     : Nat
  blocks  : List Nat
  backing : List (Nat × Nat)
  waits   : List Nat
  phase   : Nat
  /-- Its completion is reported to the fabric manager (R45 step 5). -/
  report  : Bool
  deriving DecidableEq, Repr

/-- An orderly removal under way: a KMD instance leaves a vPPB (R47, R53). -/
structure Removal where
  vcs   : Nat
  vppb  : Nat
  dom   : Nat
  /-- Transactions that wait for answers to the recall. -/
  waits : List Nat
  /-- 0: lines are recalled; 1: windows drain. -/
  phase : Nat
  deriving DecidableEq, Repr

/-- A pool device index, R57, R199, R220, R563. -/
structure PoolDev where
  bound  : Bool := false
  st     : PState := .absent
  port   : Nat := 0
  ld     : Option Nat := none
  rank   : Nat := 0
  cap    : Nat := 0
  /-- Scrubbed, unassigned parcels. -/
  free   : Ranges := []
  /-- Next parcel of the scrub that follows the bind. -/
  scrubAt : Nat := 0
  /-- Parcels to scrub before they return to the free pool. -/
  toScrub : List Nat := []
  /-- Result slots of the POOLDEV and EVACUATE operations. -/
  slot   : Option Nat := none
  evSlot : Option Nat := none
  /-- Parcels moved off by the evacuation, and the promises it still holds (R291). -/
  moved  : Nat := 0
  evProm : Nat := 0
  deriving DecidableEq, Repr

/-- A loss walk, R61: the affected domains still to walk, the position in the first of them, deferred entries. -/
structure LossWalk where
  dev      : Nat
  incident : Nat
  time     : Nat
  doms     : List Nat
  pos      : Nat := 0
  deferred : List Nat := []
  /-- First parcel of the run now being gathered for a CAUSE 1 record, and its length in parcels. -/
  run      : Option (Nat × Nat) := none
  /-- Duplex legs of each affected domain at the marking. -/
  duplex   : List (Nat × Nat) := []
  deriving DecidableEq, Repr

/-- What an event record of a KMD or switch log says (R62, R491, R44, R45). -/
inductive EvKind where
  | memLoss (cause flags device dom hpa length lines incident time : Nat)
  | devFault (source severity flags dom port time boots count : Nat)
  | addCapacity (dom : Nat) (blocks : List Nat)
  | releaseCapacity (dom : Nat) (blocks : List Nat)
  | link (port : Nat) (up : Bool)
  deriving DecidableEq, Repr

/-- Five event logs of one KMD instance in one VCS (R400): 0 Informational, 1 Warning, 2 Failure, 3 Fatal,
4 Dynamic Capacity. -/
structure EvLog where
  recs     : List (Nat × Nat × EvKind) := []
  /-- Records lost by a full log, keyed by log: how many, and the device times of the first and the last. -/
  overflow : SMap (Nat × Nat × Nat) := []
  policy   : Nat := 0
  nextH    : Nat := 1
  deriving DecidableEq, Repr

/-- Domains, virtual switches, capacity and pool devices. -/
structure DomSt where
  doms      : SMap Domain
  wins      : SMap Window
  /-- vPPB bindings, keyed by VCS × 256 + vPPB. -/
  vppb      : SMap (Option VTarget)
  /-- VCS of a host port, plus one; 0: none. -/
  vcsOf     : SMap Nat
  decoders  : List Decoder
  offers    : List Offer
  releases  : List Release
  removals  : List Removal
  devs      : SMap PoolDev
  walks     : List LossWalk
  incident  : Nat
  /-- KMD event logs, keyed by VCS × 4096 + domain. -/
  logs      : SMap EvLog
  /-- Memory loss records by incident (R450), oldest first: VCS, domain, record. -/
  lossList  : List (Nat × Nat × EvKind)
  /-- Host-lost mark per port. -/
  lostHost  : List Nat
  deriving DecidableEq, Repr

/-! ### Gate (03) -/

/-- A rule slot, R66. -/
structure Rule where
  valid  : Bool := false
  das    : Bool := false
  last   : Bool := false
  staged : Bool := false
  dom    : Nat := 0
  next   : Nat := 0
  p3     : Nat := 0
  p2     : Nat := 0
  p1     : Nat := 0
  p0     : Nat := 0
  start  : Nat := 0
  limit  : Nat := 0
  gen    : Nat := 0
  /-- Freed, and reusable only after the next GSYNC (R76, R294). -/
  freed  : Bool := false
  deriving DecidableEq, Repr

/-- A list head, R68. -/
structure GHead where
  pin   : Bool := false
  count : Nat := 0
  head  : Nat := 0
  deriving DecidableEq, Repr

/-- An enabled locked region, R73. -/
structure Lock where
  en    : Bool := false
  base  : Nat := 0
  limit : Nat := 0
  deriving DecidableEq, Repr

/-- The Gate. -/
structure GateSt where
  rules  : SMap Rule
  /-- List heads: domain 0-4095, and 4096 for the DAS list. -/
  heads  : SMap GHead
  gen    : Nat
  locks  : SMap Lock
  violDrop : Nat
  /-- Lists the rule cache holds (R83). -/
  cached : List Nat
  /-- Barriers outstanding, oldest first: who waits (core number, or 64 for management). -/
  gsyncs : List Nat
  deriving DecidableEq, Repr

/-! ### Erg (04) -/

/-- A message between switches (R429): its opcode and header fields, with the data of its data slots. -/
structure Inter where
  op   : Nat
  src  : Nat
  dst  : Nat
  hops : Nat := 0
  dom  : Nat
  tag  : Nat
  st   : Nat := 0
  notrack : Bool := false
  line : Nat
  data : Option Line := none
  mask : Option Word := none
  args : Nat := 0
  deriving DecidableEq, Repr

/-- What an output record is (R104). The numbers are tags, ports, lines or domains as the names say. -/
inductive Msg where
  /-- S2M DRS MemData to a host: tag, MetaValue, data, poison. -/
  | memData (tag : Nat) (mv : Meta) (data : Line) (poison : Bool)
  /-- S2M NDR to a host: Cmp, or Cmp-E. -/
  | cmp (tag : Nat) (e : Bool)
  | bisnp (id : Nat) (k : Snoop) (hpa : Nat)
  | biConflictAck (id : Nat)
  /-- AtomicOp completion to a host: CplD with the old value, poisoned or not. -/
  | cplD (tag : Nat) (old : Nat) (ep : Bool)
  | completerAbort (tag : Nat)
  | unsupported (tag : Nat)
  | malformed (tag : Nat)
  /-- M2S requests to a pool device, with the device's own tag. -/
  | devRd (tag dpa : Nat)
  | devWr (tag dpa : Nat) (data : Line) (mask : Word) (poison : Bool)
  /-- Pass-through traffic and CXL.io records, by length in bytes and a word of identification. -/
  | passthrough (id len : Nat)
  | io (id len : Nat)
  | pbr (dpid len : Nat)
  /-- A message to another switch (R155, R178, R429). -/
  | inter (m : Inter)
  /-- A mirror copy (R116): session, sequence number, direction, source port, domain, length, address, snapped bytes. -/
  | mirror (session seq dir port dom len addr snap : Nat)
  | ctl (code arg : Nat)
  deriving DecidableEq, Repr

/-- A record queued for a port. -/
structure OutRec where
  id    : Nat
  cls   : Nat
  dom   : Nat
  bytes : Nat
  /-- Account charged, and cells held there, when the record was built by the device. -/
  acct  : Nat
  cells : Nat
  /-- Backing for the response, to be taken on this account before transmission (R110). -/
  needs : Option Nat
  /-- Item (R93) referenced. -/
  item  : Nat
  /-- Poisoned payload (R122). -/
  poison : Bool
  /-- Sample tracker of the request answered, plus one. -/
  smp   : Nat
  msg   : Msg
  deriving DecidableEq, Repr

/-- An item admitted (R87): the records in it not yet released. -/
structure Item where
  id    : Nat
  port  : Nat
  acct  : Nat
  cells : Nat
  refs  : Nat
  /-- Records not yet taken by the pipeline. -/
  fresh : Nat
  /-- Mirror copies that reference the item. -/
  mirrors : Nat
  deriving DecidableEq, Repr

/-- Occupancy and reserve of an account (R96). -/
structure Acct where
  r   : Nat := 0
  s   : Nat := 0
  res : Nat := 0
  deriving DecidableEq, Repr

/-- Output scheduling of one port (R104-R108). -/
structure PortQ where
  /-- Records of SC0-SC7 in arrival order. -/
  q     : List OutRec := []
  parked : List OutRec := []
  /-- Deficits: class (SC3-SC6), and domain within a class, keyed by class × 4096 + domain. -/
  cdef  : SMap Nat := []
  ddef  : SMap Nat := []
  cpos  : Nat := 3
  dpos  : SMap Nat := []
  deriving DecidableEq, Repr

/-- A response that waits for cells (R110). -/
structure RespWait where
  acct : Nat
  port : Nat
  out  : OutRec
  deriving DecidableEq, Repr

/-- A mirror session (R113, R125). -/
structure Mirror where
  en     : Bool := false
  flow   : Bool := false
  dir    : Nat := 0
  src    : Nat := 0
  dest   : Nat := 0
  dom    : Nat := 0
  msgs   : Nat := 0
  snap   : Nat := 2
  daStart : Nat := 0
  daLimit : Nat := 0
  seq    : Nat := 0
  drop   : Nat := 0
  deriving DecidableEq, Repr

/-- Class quanta of a port (R125). -/
structure PortQos where
  q3 : Nat := 0x40
  q4 : Nat := 0x40
  q5 : Nat := 0x40
  q6 : Nat := 0x40
  rxclass : Nat := 0
  deriving DecidableEq, Repr

/-- A service-share profile (R125). -/
structure Profile where
  cls : Nat := 0
  quantum : Nat := 0x10
  deriving DecidableEq, Repr

/-- Partition settings in force (R89-R92). -/
structure ErgPart where
  poolMib   : Nat
  trlTiles  : Nat
  lcMib     : Nat
  replayMib : Nat
  ringMib   : Nat
  source    : Nat
  deriving DecidableEq, Repr

/-- The Erg. -/
structure ErgSt where
  part   : ErgPart
  /-- S of R96. -/
  shared : Nat
  /-- α codes of SC0-SC7. -/
  alpha  : SMap Nat
  /-- Accounts: port × 8 + class; 1000 + port the common reserve of a TRL port; 2000 CARAVAN, 2001 CONTROL,
  2002 MIRROR. -/
  accts  : SMap Acct
  items  : List Item
  ports  : SMap PortQ
  waits  : List RespWait
  pqos   : SMap PortQos
  prof   : SMap Profile
  mirrors : SMap Mirror
  /-- Credits advertised, keyed by port × 8 + class: cells of backing held. -/
  backed : SMap Nat
  /-- Receive accounts that hold a credit they could not back (R99). -/
  crWait : List Nat
  /-- LEVEL last sent and STOP, per TRL tile; default level 15, STOP 384. -/
  pace   : SMap (Nat × Nat)
  /-- PEAK, CYCLE, LEVEL, DEGRADED. -/
  cyc    : Nat × Nat × Nat × Bool
  ecc    : Nat × Nat
  /-- VALID, KIND, GRAIN, WORD, CELL. -/
  eccLast : Bool × Nat × Nat × Nat × Nat
  deriving DecidableEq, Repr

/-! ### Requests in flight (01 R18-R24) -/

/-- Who asked. -/
inductive Who where
  | host (port vcs tag : Nat)
  | hostAtomic (port vcs tag : Nat)
  /-- A Falgan load or store through the aperture: the bytes' offset in the line, and their number. -/
  | core (n off size : Nat)
  | coreMeld (n : Nat)
  /-- Fabric operation buffer or vendor memory command: sequence number of the operation. -/
  | mgmt (op : Nat)
  /-- LINEFLUSH of a result slot. -/
  | flush (slot : Nat)
  /-- Dirty data that a remote switch's answer to a snoop carried (R157): the switch. -/
  | gather (sw : Nat)
  /-- A dirty line written to backing: by eviction (0), by a flip (1), of data gathered with no line cache (2). -/
  | wback (why : Nat)
  /-- The home switch of a line, which snoops this switch (R157): its tag. -/
  | home (sw tag : Nat)
  /-- A remote switch, with its tag. -/
  | remote (sw tag : Nat)
  deriving DecidableEq, Repr

/-- What is asked of a line. -/
inductive Op where
  | rdS | rdA | rdI | invA
  | wr
  | wrPtl
  | clean
  /-- An atomic: operation, width, byte offset in the line, operands. -/
  | atomic (op : MeldOp) (w : MeldW) (off a b : Nat)
  | flushKeep
  | flushInv
  /-- A snoop from the home of a line homed elsewhere (R157). -/
  | snoop (k : Snoop)
  deriving DecidableEq, Repr

/-- Where a request stands. -/
inductive Phase where
  | gateFill
  | tlbFill (idx : Nat)
  | tlbFull (idx : Nat)
  | fillHold (idx : Nat)
  | moveHold (idx : Nat)
  | chunkHold (idx : Nat)
  | oasisFull (ch : Nat)
  | oasisRd (ch oa : Nat)
  /-- Reads and writes outstanding at pool devices. -/
  | pool
  | lineQueue
  | trackerWait
  /-- Holds its line's transaction: snoops, data or a write outstanding. -/
  | open_
  | meldQueue
  | meldTracker
  | remoteWait
  /-- Waits for a line-cache way (R132), or for a hold mark to be available (R138). -/
  | lcWait
  | holdWait
  /-- A write of a dirty line to backing that has reached its completion point. -/
  | wbDone
  /-- An aperture load behind stores of its core to the same line (R254). -/
  | storeWait
  | ready
  deriving DecidableEq, Repr

/-- A leg of a request at a pool device: the device's tag, index, port, DPA, whether a read; done or not. -/
structure Leg where
  tag  : Nat
  dev  : Nat
  port : Nat
  dpa  : Nat
  rd   : Bool
  /-- A write to a move's destination (R204). -/
  dest : Bool
  deriving DecidableEq, Repr

/-- A request in flight. -/
structure Req where
  id    : Nat
  who   : Who
  op    : Op
  dom   : Nat
  /-- DA of the line (bits [45:6] in place). -/
  da    : Nat
  hpa   : Nat
  win   : Option Nat
  mode  : Mode
  mv    : Meta
  data  : Line
  mask  : Word
  poison : Bool
  phase : Phase
  legs  : List Leg
  /-- Whether the placement access is the read that a partial write, atomic or fill of the line cache needs. -/
  fetch : Bool
  /-- Account of the request's cells, and its item. -/
  acct  : Nat
  item  : Nat
  /-- Sampling: tracker number plus one. -/
  smp   : Nat
  time  : Nat
  /-- Passed the placement stage (its backing is decided, R47). -/
  placed : Bool
  /-- Value an atomic found; the line's poison at that read. -/
  old   : Nat
  oldP  : Bool
  /-- Backing data already read for this request, with its poison. -/
  got   : Option (Line × Bool)
  /-- An owner's write-back in a SHARED_COHERENT window (R139, R148). -/
  wb    : Bool
  deriving DecidableEq, Repr

/-! ### Coherence (05) -/

/-- A snoop filter entry, R128: the agents as a list in pointer format, groups in group format. -/
structure SfEntry where
  st     : Dir
  grp    : Bool
  agents : List Nat
  groups : Nat
  /-- Recency stamp (R147). -/
  used   : Nat
  deriving DecidableEq, Repr

/-- A line-cache line, R130. -/
structure LcLine where
  data   : Line
  dirty  : Bool
  poison : Bool
  way    : Nat
  used   : Nat
  /-- A write to backing of this line's data is outstanding (R132). -/
  wb     : Bool
  deriving DecidableEq, Repr

/-- An outstanding snoop of a transaction, R140, R144, R150. -/
structure Snp where
  id    : Nat
  agent : Nat
  k     : Snoop
  hpa   : Nat
  time  : Nat
  ans   : Option Ans
  /-- The holder's write-back has been seen and its data is not yet placed (R148). -/
  data  : Bool
  /-- Write-back data of this holder was placed. -/
  dirty : Bool
  deriving DecidableEq, Repr

/-- An open transaction on a line: the serial number of the request that opened it, or of a snoop filter victim. -/
structure Txn where
  key    : Nat
  req    : Nat
  victim : Bool := false
  /-- The owner whose hold mark must end before the snoops are sent. -/
  await  : Option Nat := none
  snoops : List Snp := []
  deriving DecidableEq, Repr

/-- A hold mark, R138: slice, line, owner, end time (0: the grant is not yet accepted by the port). -/
structure Hold where
  key   : Nat
  agent : Nat
  til   : Nat
  /-- The record that carries the grant. -/
  grant : Nat
  deriving DecidableEq, Repr

/-- A lease of a line homed elsewhere, R156. -/
structure Lease where
  data   : Line
  dirty  : Bool
  poison : Bool
  time   : Nat
  atoms  : Nat
  order  : Nat
  deriving DecidableEq, Repr

/-- Coherence. -/
structure CohSt where
  sf     : SMap SfEntry
  lc     : SMap LcLine
  txns   : List Txn
  holds  : List Hold
  /-- RR per slice. -/
  rr     : SMap Nat
  /-- Entries in victim buffers: line keys. -/
  victims : List Nat
  /-- Leases of lines homed elsewhere (R156); proxy entries are entries of `sf` (R155). -/
  leases : SMap Lease
  stamp  : Nat
  peak   : Nat
  /-- VALID, KIND, AGENT, DOMAIN, LINE, TIME. -/
  toLast : Bool × Nat × Nat × Nat × Nat × Nat
  /-- SF_UNCORR, LC_UNCORR, SF_CORR, LC_CORR. -/
  ecc    : Nat × Nat × Nat × Nat
  late   : Nat
  deriving DecidableEq, Repr

/-! ### Meld units (06) -/

/-- A far atomic outstanding, R178. -/
structure FarAt where
  tag  : Nat
  req  : Nat
  time : Nat
  deriving DecidableEq, Repr

/-- Meld units. -/
structure MeldSt where
  /-- Predictor counters; every unlisted entry is 1 (R180). -/
  pred  : SMap Nat
  /-- COUNTER and INDEX of MELD_PRED_ACC. -/
  acc   : Nat × Nat
  farTo : Nat
  late  : Nat
  far   : List FarAt
  /-- MELD_ATOM_BASE copies, keyed by VCS × 4096 + domain: BASE, EN. -/
  base  : SMap (Nat × Bool)
  deriving DecidableEq, Repr

end Sys2Proof.Machine
end

