-- ==== Sys2Proof/Machine/TypesB.lean ====
section
/-!
DEFINITION. Machine/TypesB.lean: the state of Dealer (spec 07), the Oasis (08), the message rings and the interrupt
controller (11), the fault collector (17) and the monitors (18).
-/
namespace Sys2Proof.Machine

/-! ### Dealer (07) -/

/-- A placement map entry, R186. -/
structure MapEntry where
  kind  : Kind := .zero
  ms    : MState := .none
  car   : Nat := 0
  ext   : Bool := false
  pin   : Bool := false
  rdup  : Bool := false
  tag   : Nat := 0
  gen   : Nat := 0
  devB  : Nat := 0
  devA  : Nat := 0
  pA    : Nat := 0
  pB    : Nat := 0
  deriving DecidableEq, Repr

/-- A move's target, R201. -/
inductive Target where
  | oasis
  | tier (t : Nat)
  | dev (d : Nat)
  | leg (b : Bool) (d : Nat)
  deriving DecidableEq, Repr

/-- A queued move, R203. -/
structure MoveQ where
  dom   : Nat
  idx   : Nat
  tgt   : Target
  high  : Bool
  gen   : Nat
  /-- Result slot; 4096: a move of an evacuation, which has none of its own. -/
  slot  : Nat
  /-- Issued at P2. -/
  p2    : Bool := false
  deriving DecidableEq, Repr

/-- A destination of a move or a backing of a parcel: (device index, 255 for the near tier; parcel). -/
abbrev Loc := Nat × Nat

/-- A Caravan, R203-R208, R220. -/
structure Caravan where
  st      : MState := .none
  cursor  : Nat := 0
  flight  : Bool := false
  dom     : Nat := 0
  idx     : Nat := 0
  slot    : Nat := 0
  tgt     : Option Target := none
  dest    : List Loc := []
  /-- Requests that passed the placement stage before SWITCHING (R207 step 3). -/
  drain   : List Nat := []
  start   : Nat := 0
  high    : Bool := false
  p2      : Bool := false
  /-- DIRTY lines written to the destination since SWITCHING (R153): key, data, poison. -/
  synced  : List (Nat × Line × Bool) := []
  done    : Nat := 0
  aborted : Nat := 0
  deriving DecidableEq, Repr

/-- A domain's constraint record, R216. -/
structure DCon where
  pinTier : Nat := 15
  fill    : Nat := 15
  duplex  : Bool := false
  heatOff : Bool := false
  migCap  : Nat := 0
  quota   : Nat := 0
  devset  : Nat := 0
  deriving DecidableEq, Repr

/-- A heat cache entry: epoch samples (R196). -/
structure HeatC where
  count : Nat
  wmix  : Nat
  rd    : Nat
  wr    : Nat
  used  : Nat
  deriving DecidableEq, Repr

/-- A fill in progress, R193: the map index, the domain, whether it stalls, when it began to wait. -/
structure FillW where
  idx   : Nat
  dom   : Nat
  stall : Bool
  since : Nat
  deriving DecidableEq, Repr

/-- Dealer. -/
structure DlrSt where
  map     : SMap MapEntry
  /-- Entries the placement TLB holds, most recent first, and a counter of hits. -/
  tlb     : SMap MapEntry
  /-- Outstanding misses (R190). -/
  misses  : List Nat
  msyncs  : List Nat
  near    : Ranges
  nearTotal : Nat
  /-- Next near-tier parcel of the scrub after boot (R560). -/
  nearScrub : Nat
  /-- Near-tier parcels to scrub before they return to the free pool. -/
  nearToScrub : List Nat
  promises : Nat
  fills   : List FillW
  heat    : SMap (Nat × Nat)
  hcache  : SMap HeatC
  con     : SMap DCon
  moves   : List MoveQ
  cars    : SMap Caravan
  /-- Copy bytes used in the current 1 ms, device-wide and per domain (R212). -/
  copied  : Nat
  copiedD : SMap Nat
  epochs  : Nat
  lastMs  : Nat
  /-- Sweep: map index next visited, plus one; 0: no sweep. Reports pushed in the epoch; where reporting resumes. -/
  sweep   : Nat
  reports : Nat
  resume  : Nat
  epochAt : Nat
  repDrop : Nat
  deriving DecidableEq, Repr

/-! ### Oasis (08) -/

/-- A stored near-tier line with its metadata, R226. -/
structure OLine where
  data : Line := 0
  tag  : Nat := 0
  pois : Bool := false
  scr  : Bool := true
  deriving DecidableEq, Repr

/-- A queued Oasis access, R231: a read of a request, or a write. -/
structure OAcc where
  oa   : Nat
  req  : Nat
  wr   : Option (OLine × Word)
  deriving DecidableEq, Repr

/-- A subchannel, R235, R241. -/
structure SubCh where
  light  : Bool := false
  temp   : Nat := 0
  margin : Nat := 0
  fullMs : Nat := 0
  count  : Nat := 0
  fails  : Nat := 0
  /-- Device time at which a failed retraining is queued again. -/
  retry  : Nat := 0
  deriving DecidableEq, Repr

/-- The Oasis. -/
structure OasSt where
  lines  : SMap OLine
  /-- Channel queues: reads, writes. -/
  chRd   : SMap (List OAcc)
  chWr   : SMap (List OAcc)
  /-- Subchannels queued for retraining, and the running one with its step number. -/
  queue  : List Nat
  active : Option (Nat × Nat)
  subs   : SMap SubCh
  /-- BAND, TEMP (two's complement byte) per stack. -/
  therm  : SMap (Nat × Nat)
  retired : List Nat
  /-- UNCORR, CORR. -/
  ecc    : Nat × Nat
  /-- VALID, KIND, CHANNEL, line (OA[37:6]). -/
  eccLast : Bool × Nat × Nat × Nat
  /-- Lines corrected on the last patrol pass, and on this one. -/
  patrolOld : List Nat
  patrolNew : List Nat
  patrolAt : Nat
  rate   : Nat
  /-- Refreshes issued and last ZQ latch, per stack. -/
  refresh : SMap Nat
  zq     : SMap Nat
  /-- Lines of the map, heat, spill and ring areas known uncorrectable. -/
  bad    : List Nat
  deriving DecidableEq, Repr

/-! ### Rings and interrupt controller (11) -/

/-- A message ring, R314-R325. -/
structure Ring where
  en     : Bool := false
  spill  : Bool := false
  portal : Nat := 0
  depth  : Nat := 0
  p2en   : Bool := false
  p2core : Nat := 0
  dom    : Nat := 0
  base   : Nat := 0
  idle   : Nat := 0
  wmark  : Nat := 0
  spDepth : Nat := 0
  spBase : Nat := 0
  w      : Nat := 0
  rd     : Nat := 0
  rel    : Nat := 0
  mark   : Nat := 0
  /-- Positions held only in the spill segment. -/
  spilled : List Nat := []
  poisonN : Nat := 0
  cfgErr : Nat := 0
  /-- Entries by position: 64 bytes as a number. -/
  ents   : SMap Line := []
  /-- Positions whose entry carries an uncorrectable error. -/
  bad    : List Nat := []
  /-- Start of the idle timer, plus one; 0: stopped. -/
  timer  : Nat := 0
  fired  : Bool := false
  deriving DecidableEq, Repr

/-- States of an interrupt source, R329. -/
inductive IState where
  | idle | pending | active | activePending
  deriving DecidableEq, Repr

/-- An interrupt source, R340; `edge` is MODE where a write changed it. -/
structure IcuSrc where
  st      : IState := .idle
  claimer : Nat := 0
  levelIn : Bool := false
  edge    : Option Bool := none
  wake    : Bool := false
  en      : Bool := false
  prio    : Nat := 0
  target  : Nat := 0
  deriving DecidableEq, Repr

/-- The rings. -/
structure RingSt where
  rings : SMap Ring
  deriving DecidableEq, Repr

/-- The interrupt controller. -/
structure IcuSt where
  srcs     : SMap IcuSrc
  strandedN : Nat
  stranded : List Nat
  /-- Per core: claimed sources with the RUNPRI saved below each, newest first (R332, R333). -/
  claims   : SMap (List (Nat × Nat))
  deriving DecidableEq, Repr

/-! ### Faults (17) -/

/-- A fault source, R498; `sev` is SEV where a write or a stored setting set it. -/
structure FltSrc where
  latch   : Bool := false
  sev     : Option Nat := none
  lastSev : Nat := 0
  count   : Nat := 0
  /-- Time of the last history record of this boot, plus one; raises since. -/
  recAt   : Nat := 0
  since   : Nat := 0
  hostAt  : Nat := 0
  hostSince : Nat := 0
  deriving DecidableEq, Repr

/-- A history record, R493. -/
structure HistRec where
  recno   : Nat
  boots   : Nat
  time    : Nat
  source  : Nat
  sev     : Nat
  flags   : Nat
  dom     : Nat
  port    : Nat
  count   : Nat
  supp    : Nat
  detail  : List Word
  deriving DecidableEq, Repr

/-- A raise of this step that the collector has latched and recorded; its reaction is taken when the step ends (R495). -/
structure Raise where
  n    : Nat
  sev  : Nat
  dom  : Nat
  port : Nat
  deriving DecidableEq, Repr

/-- The fault collector. -/
structure FltSt where
  srcs    : SMap FltSrc
  main    : List HistRec
  prot    : List HistRec
  recno   : Nat
  terminal : Bool
  devpend : Bool
  last    : Option Nat
  supp    : Nat
  suppSince : Nat
  /-- Device times of the main-ring records of the last second (R493 step 4). -/
  recent  : List Nat
  raised  : List Raise
  deriving DecidableEq, Repr

/-! ### Performance monitoring (18) -/

/-- An event counter, R499: the image of w2, and the value. -/
structure Cnt where
  cfg   : Word := 0
  value : Nat := 0
  deriving DecidableEq, Repr

/-- A sampling source, R506. -/
structure SmpSrc where
  en    : Bool := false
  rate  : Nat := 0
  ring  : Nat := 0
  dom   : Nat := 0
  domv  : Bool := false
  port  : Nat := 0
  portv : Bool := false
  cores : Nat := 0
  seq   : Nat := 0
  dropped : Nat := 0
  missed : Nat := 0
  deriving DecidableEq, Repr

/-- A host request sample in progress, R507, R509. -/
structure HSmp where
  used   : Bool := false
  ring   : Nat := 0
  seq    : Nat := 0
  time   : Nat := 0
  opcode : Nat := 0
  port   : Nat := 0
  flags  : Nat := 0
  dom    : Nat := 0xFFFF
  loc    : Nat := 0xFF
  dev    : Nat := 0xFF
  hpa    : Nat := 0
  da     : Nat := 0
  slice  : Nat := 0xFFFF
  waitAt : Nat := 0
  wait   : Nat := 0
  deriving DecidableEq, Repr

/-- A port's bandwidth windows, R510, R512. -/
structure BwP where
  en     : Bool := false
  window : Nat := 0x3E8
  seq    : Nat := 0
  newest : Nat := 0
  hist   : SMap (Nat × Nat) := []
  rx     : Nat := 0
  tx     : Nat := 0
  /-- The first window after a clear starts at the next boundary. -/
  armed  : Bool := false
  deriving DecidableEq, Repr

/-- The monitors. -/
structure PmuSt where
  cnts : SMap Cnt
  src0 : SmpSrc
  src1 : SmpSrc
  trk  : SMap HSmp
  bw   : SMap BwP
  deriving DecidableEq, Repr

end Sys2Proof.Machine
end

