-- ==== Sys2Proof/Machine/TypesC.lean ====
section
/-!
DEFINITION. Machine/TypesC.lean: the state of the Falgan cores (spec 09) and of fabric operations (10), and what leaves
the device.
-/
namespace Sys2Proof.Machine

/-- What a core that executes no further instruction is waiting for. -/
inductive Busy where
  | none
  /-- WAIT (R335): the watched sources, the deadline, gd. -/
  | wait (w0 w1 : Option Nat) (deadline gd : Nat)
  | sleep (deadline gd : Nat)
  /-- A load through the aperture: the request, gd, the address. -/
  | load (req gd addr : Nat)
  /-- An FX MELD: the request, gd, the descriptor's address. -/
  | meld (req gd desc : Nat)
  | gsync (gd : Nat)
  | msync (gd : Nat)
  /-- FENCE.F: aperture stores not yet at their completion points. -/
  | fence
  /-- A fabric operation that retires when the listed requests have completed: gd, its descriptor. -/
  | fx (gd desc : Nat) (reqs : List Nat)
  /-- The core leaves RUN for a state when its stores are complete (R248); RESET may be followed by START (R280). -/
  | leave (st : CState) (start : Bool)
  deriving DecidableEq, Repr

/-- A sample of a core's instruction in progress (R506, R507). -/
structure CSmp where
  ring : Nat
  seq  : Nat
  time : Nat
  mode : Bool
  insn : Nat
  pc   : Nat
  addr : Nat
  deriving DecidableEq, Repr

/-- A Falgan core (R242-R245, R255). -/
structure Core where
  st      : CState := .reset
  /-- g1 to g63; g0 is not stored. -/
  g       : SMap Word := []
  pc      : Nat := 0
  p2      : Bool := false
  ie      : Bool := false
  depth   : Nat := 0
  runpri  : Nat := 0
  thresh  : Nat := 0
  tvec    : Nat := 0
  scratch : Word := 0
  apbase  : Nat := 0
  steps   : Word := 0
  /-- PC shown by FLG_CORE_STAT: sampled when the core leaves RUN. -/
  statPc  : Nat := 0
  fdetail : Nat := 0
  fcode   : Nat := 0
  busy    : Busy := .none
  /-- Aperture stores accepted and not yet complete (R254). -/
  stores  : List Nat := []
  /-- A RESET or HALTREQ that acts at the next instruction boundary (R248). -/
  ask     : Option (CState × Bool) := none
  /-- Sample of the instruction in progress. -/
  smp     : Option CSmp := none
  deriving DecidableEq, Repr

/-- A result slot, R286; st: 0 IDLE, 1 PENDING, 2 READY. -/
structure Slot where
  st     : Nat := 0
  core   : Nat := 0
  op     : Nat := 0
  status : Status := .notReady
  seq    : Nat := 0
  echo   : Word := 0
  detail : Word := 0
  time   : Nat := 0
  data   : List Word := []
  deriving DecidableEq, Repr

/-- Who issued a fabric operation: a core's FX instruction (core, gd, descriptor address), or the management path on
core 0 with a sequence number. -/
inductive Issuer where
  | core (n gd desc : Nat)
  | mgmt (seq : Nat)
  deriving DecidableEq, Repr

/-- A management operation that waits for requests: FX_EXEC MELD or WALL, MEM_READ, MEM_WRITE. -/
structure MgmtOp where
  seq    : Nat
  /-- 0 MELD, 1 WALL, 2 MEM_READ, 3 MEM_WRITE. -/
  kind   : Nat
  reqs   : List Nat
  addr   : Nat
  len    : Nat
  bytes  : Memory
  st     : Status
  /-- The descriptor of an FX_EXEC. -/
  desc   : List Word := []
  deriving DecidableEq, Repr

/-- The Falgan cores, their memories and the result slots. -/
structure FlgSt where
  cores : SMap Core
  /-- Local memories at their core-window addresses, Falgan shared memory at its DAS address (R249, R251). -/
  mem   : Memory
  /-- 64-bit words (by address) that carry an uncorrectable error. -/
  bad   : List Nat
  /-- SHM_UNCORR, LMEM_UNCORR, SHM_CORR, LMEM_CORR. -/
  ecc   : Nat × Nat × Nat × Nat
  slots : SMap Slot
  mops  : List MgmtOp
  seq   : Nat
  deriving DecidableEq, Repr

/-- The interface on which a response leaves. -/
inductive Chan where
  | mgmt
  | kmd (vcs dom : Nat)
  | doe (fn : Nat)
  | i3c
  | console
  | jtag
  | cfg (port : Nat)
  deriving DecidableEq, Repr

/-- What has left the device, newest first. -/
inductive Out where
  /-- A record transmitted on a port. -/
  | tx (port : Nat) (msg : Msg)
  /-- A response: its interface, its status or return code, its words. -/
  | resp (c : Chan) (code : Nat) (words : List Nat)
  /-- A result record for an aperture read of the management path. -/
  | link (port code arg : Nat)
  deriving DecidableEq, Repr

end Sys2Proof.Machine
end

