-- ==== Sys2Proof/Machine/TypesD.lean ====
section
/-!
DEFINITION. Machine/TypesD.lean: the state of the lanes (spec 12), the CXL ports (13), Trarriyn Link (14), management (15),
Emmor (16), slot power (19), power, reset and stored settings (20) and the test access port (21).
-/
namespace Sys2Proof.Machine

/-! ### Lanes (12) -/

/-- A lane, R372: STATE 0 OFF, 1 TRAINING, 2 ACTIVE, 3 WARM_IDLE, 4 SPARE_STANDBY, 5 FAILED. -/
structure LaneS where
  st      : Nat := 0
  logical : Nat := 0x1F
  sub     : Nat := 0
  polinv  : Bool := false
  light   : Bool := false
  fullchk : Bool := false
  eyeH    : Nat := 0
  eyeW    : Nat := 0
  errs    : Nat := 0
  preset  : Nat := 0
  cm2     : Nat := 0
  cm1     : Nat := 0
  c0      : Nat := 0
  cp1     : Nat := 0
  /-- Receiver adaptation (R364): steps taken, and the time of the last one plus one. -/
  adapt   : Nat := 0
  adaptAt : Nat := 0
  /-- Check of R368: 0 none, 1 to be measured, 2 adapted for 1 ms more, 3 step requests sent. -/
  stage   : Nat := 0
  /-- Consecutive markers not found, and MCOUNT of the last one found (R360, R368). -/
  missed  : Nat := 0
  mcount  : Nat := 0
  /-- SEQ of the last equalization request sent, whether it was answered, and SEQ plus one of the last one received (R356). -/
  eqSeq   : Nat := 0
  eqDone  : Bool := false
  rqSeq   : Nat := 0
  /-- Good markers in a row in ALIGN (R420). -/
  good    : Nat := 0
  deriving DecidableEq, Repr

/-- A tile's state, R372, with the utilization windows of R367. -/
structure TileS where
  clkok  : Bool := false
  check  : Bool := false
  util   : Nat := 0
  steps  : Nat := 0
  hist   : List Nat := []
  /-- FULL_PCT was reached since the last light training. -/
  full   : Bool := false
  /-- Time by which the running check ends, and whether a lane of it did not pass. -/
  checkBy : Nat := 0
  failed : Bool := false
  /-- A load step fell in a training: the check starts when it commits (R369). -/
  due    : Bool := false
  deriving DecidableEq, Repr

/-- The lanes. -/
structure LaneSt where
  /-- LANE_TILE_CFG of each tile, loaded at boot (R372). -/
  tile  : SMap Word
  tiles : SMap TileS
  lanes : SMap LaneS
  /-- Average utilizations of the last windows, newest first. -/
  avg   : List Nat
  /-- LANE_TIME. -/
  tilesrc  : Bool
  tsrc     : Bool
  holdover : Bool
  slewing  : Bool
  deriving DecidableEq, Repr

/-! ### CXL ports (13) -/

/-- A CXL port (R405). LINK: 0 DOWN, 1 TRAINING, 2 UP, 3 PAUSED, 4 HELD. -/
structure CxpPort where
  link  : Nat := 0
  flit  : Nat := 0
  rate  : Nat := 0
  width : Nat := 0
  io    : Bool := false
  mem   : Bool := false
  cache : Bool := false
  degraded : Bool := false
  ideIo : Nat := 0
  ideCm : Nat := 0
  pbr   : Bool := false
  viral : Nat := 0
  pauses : Nat := 0
  cto   : Nat := 0
  late  : Nat := 0
  dup   : Nat := 0
  /-- The port is enabled (PORTCTL); the fields of CXP_PORT_CFG in force since the last training (R405). -/
  off   : Bool := false
  cfg   : Nat := 0
  bootWidth : Nat := 0
  /-- Next flit sequence number to send, next expected, unacknowledged flits oldest first, replays without progress. -/
  txSeq : Nat := 0
  rxSeq : Nat := 0
  replay : List Nat := []
  replayNum : Nat := 0
  /-- Credits held per channel, and channels with infinite credits (R376, R379). -/
  cred  : SMap Nat := []
  inf   : List Nat := []
  /-- Start of the pause, and the slot of a PORTCTL RETRAIN. -/
  pausedAt : Nat := 0
  slot  : Option Nat := none
  /-- Running timers (R386): device tag, and time of the first transmission (pauses excluded). -/
  timers : List (Nat × Nat) := []
  /-- PERST_N is high; time of its last rise. -/
  perst : Bool := false
  perstAt : Nat := 0
  /-- ASPM L1 or L0p entered (R362). -/
  low   : Nat := 0
  present : Bool := false
  /-- IDE (R390-R392): keys by stream × 4 + direction × 2 + set, the set in use, the invocation counter. -/
  keys  : SMap Nat := []
  keySet : SMap Nat := []
  keyCnt : SMap Nat := []
  deriving DecidableEq, Repr

/-- What a firmware CXL.io request serves (R386). -/
inductive IoWho where
  | mgmt (cmd : Nat)
  | slot (n : Nat)
  | boot
  deriving DecidableEq, Repr

/-- A CXL.io request that firmware issued. -/
structure IoReq where
  tag  : Nat
  port : Nat
  who  : IoWho
  time : Nat
  deriving DecidableEq, Repr

/-- A DOE mailbox (R395): the object in progress and its protocol, the response ready, the error bit. -/
structure DoeMb where
  busy  : Bool := false
  err   : Bool := false
  ready : Bool := false
  /-- Bytes of the response, as words. -/
  resp  : List Nat := []
  /-- SPDM: highest state reached (0 none, 1 version, 2 capabilities, 3 algorithms), version in use. -/
  spdm  : Nat := 0
  ver   : Nat := 0
  deriving DecidableEq, Repr

/-- The CXL ports. -/
structure CxpSt where
  ports : SMap CxpPort
  io    : List IoReq
  doe   : SMap DoeMb
  noroute : Nat
  deriving DecidableEq, Repr

/-! ### Trarriyn Link (14) -/

/-- A control message, R426. -/
structure CtlMsg where
  op    : Nat
  lane  : Nat := 0
  spare : Nat := 0
  mode  : Nat := 0
  words : List Nat := []
  deriving DecidableEq, Repr

/-- A frame held until it is acknowledged (R412, R415, R417). -/
structure TrlFrame where
  seq   : Nat
  typ   : Nat
  recs  : List OutRec := []
  ctl   : List CtlMsg := []
  spill : Bool := false
  bad   : Bool := false
  deriving DecidableEq, Repr

/-- A sparing sequence of one half (R423): the receiver's or the transmitter's side. -/
structure Spare where
  rx    : Bool
  lane  : Nat
  spare : Nat
  imm   : Bool
  deriving DecidableEq, Repr

/-- A TRL port. STATE: 0 OFF, 1 DETECT, 2 EQUALIZE, 3 ALIGN, 4 CONFIG, 5 ACTIVE, 6 IDLE, 7 HOLD. -/
structure TrlPort where
  st       : Nat := 0
  peer     : Nat := 0
  peerPort : Nat := 0
  delay    : Nat := 0
  session  : Nat := 0
  txSeq    : Nat := 0
  rxe      : Nat := 0
  replays  : Nat := 0
  badN     : Nat := 0
  dups     : Nat := 0
  stalls   : Nat := 0
  /-- Frames held, oldest first. -/
  held     : List TrlFrame := []
  /-- Frames still to be replayed, by SEQ. -/
  replay   : List Nat := []
  /-- Position and time of the last replay (R414). -/
  nakPos   : Nat := 0
  nakAt    : Nat := 0
  nak      : Bool := false
  ackAt    : Nat := 0
  pace     : Nat := 15
  /-- Time of the last good frame. -/
  goodAt   : Nat := 0
  silent   : Bool := false
  /-- Sequenced frames sent in the current marker period, and the period. -/
  sent     : Nat := 0
  period   : Nat := 0
  ctlSent  : Bool := false
  /-- Control messages waiting to be sent. -/
  ctlq     : List CtlMsg := []
  /-- Sparing sequences, of the halves 0 and 1. -/
  spareA   : Option Spare := none
  spareB   : Option Spare := none
  /-- LHEALTH, SPA and SPB of the peer's last good header. -/
  peerHealth : Nat := 0
  peerSpa  : Nat := 0
  peerSpb  : Nat := 0
  /-- Idle handshake: 0 none, 1 IDLE_REQ sent, 2 IDLE_ACK exchanged; time of the last sequenced frame. -/
  idle     : Nat := 0
  busyAt   : Nat := 0
  /-- Consecutive training failures, and the time of the next attempt. -/
  fails    : Nat := 0
  retryAt  : Nat := 0
  holdAt   : Nat := 0
  /-- A session is held (R421). -/
  kept     : Bool := false
  /-- Logical lanes this port's transmitter carries on L16 and L17 (R423). -/
  txA      : Option Nat := none
  txB      : Option Nat := none
  /-- Slot of a PORTCTL RETRAIN that waits for training. -/
  slot     : Option Nat := none
  /-- TRAIN exchanges measured: number and sum of round times (R419), T_SEND of the peer and its receipt. -/
  trains   : Nat := 0
  trainSum : Nat := 0
  echo     : Nat := 0
  echoAt   : Nat := 0
  trained  : List Nat := []
  /-- Good markers in a row on every working lane, in ALIGN. -/
  markers  : Nat := 0
  stepAt   : Nat := 0
  /-- The peer said ready. -/
  ready    : Bool := false
  /-- The port waits for a route fence (R428): frames still to be acknowledged, as (tile, SEQ). -/
  fence    : List (Nat × Nat) := []
  off      : Bool := false
  deriving DecidableEq, Repr

/-- What is known of another switch (R422). -/
structure Peer where
  present : Bool := false
  incarn  : Nat := 0
  at_     : Nat := 0
  deriving DecidableEq, Repr

/-- Trarriyn Link. -/
structure TrlSt where
  ports  : SMap TrlPort
  /-- SWITCH_ID and fabric ID. -/
  selfId : Nat
  fabric : Word
  incarn : Nat
  peers  : SMap Peer
  /-- Bytes the spill meter moved in the current microsecond, and that microsecond; ports that wait, in rotation. -/
  meter  : Nat
  meterAt : Nat
  spillQ : List Nat
  /-- Codes of TRL_REPLAY per tile (R90). -/
  code   : SMap Nat
  /-- Messages that wait for a route fence (R428). -/
  fenced : List (Inter × Bool)
  deriving DecidableEq, Repr

/-! ### Management (15) -/

/-- A program image being assembled (R448): core, path, bytes received, next offset. -/
structure Assembly where
  core : Nat
  path : Nat
  len  : Nat
  deriving DecidableEq, Repr

/-- Management. -/
structure MgtSt where
  fmPaths : Nat
  fmPortN : Nat
  /-- The in-band path is open (R439), so that the fabric-manager port exists. -/
  inBand  : Bool
  saddr   : Nat
  inst    : Nat
  /-- I3C: target mode, dynamic address, limits, enabled events, reset action, endpoint ID (R433, R434). -/
  i3c     : Bool
  dynAddr : Option Nat
  mrl     : Nat
  mwl     : Nat
  events  : Nat
  rstact  : Nat
  eid     : Nat
  /-- Response message limit (2^n bytes), and the switch's event log with its policy. -/
  respLim : Nat
  swLog   : EvLog
  asm     : Option Assembly
  image   : Memory
  /-- Boot flash contents and capacity; the FLASH_WRITE in progress: sectors still to write. -/
  flash   : Memory
  flashLen : Nat
  flashOp : List Nat
  flashDone : Nat
  flashRet : Nat
  flashBuf : Memory
  /-- The background operation runs; the next byte expected of a sector being collected. -/
  flashRun : Bool
  flashPos : Nat
  /-- Slot of the boot flash from which the running firmware was loaded. -/
  runSlot : Option Nat
  /-- KMD functions: configuration writes by function and offset; BIND_KMD_NOTIFY copies by VCS × 4096 + domain. -/
  cfg     : SMap Word
  notify  : SMap (Bool × Nat)
  console : Nat
  deriving DecidableEq, Repr

/-! ### Emmor (16) -/

/-- A lifecycle word copy (R454): transition count, state code, whether its check is valid. -/
structure LifeCopy where
  count : Nat
  code  : Nat
  ok    : Bool
  deriving DecidableEq, Repr

/-- A key slot: STATE 0 empty, 1 active, 2 revoked. -/
structure KeySlot where
  st     : Nat := 0
  minSvn : Nat := 0
  mod    : List Byte := []
  deriving DecidableEq, Repr

/-- A policy entry of a boot record. -/
structure PolicyRec where
  image   : List Byte
  cores   : Nat
  svn     : Nat
  keyslot : Nat
  deriving DecidableEq, Repr

/-- A boot record (R465); `sig` tells whether it is signed. -/
structure BootRec where
  boots   : Nat := 0
  life    : Nat := 0
  outcome : Nat := 0
  fcode   : Nat := 0
  time    : Nat := 0
  flags   : Nat := 0
  sloterr : Nat := 0
  fwSvn   : Nat := 0
  fwVer   : Nat := 0
  digFw   : Nat := 0
  digSet  : Nat := 0
  digFh   : Nat := 0
  /-- Digests of the moduli in key slots 1 to 4. -/
  keydig  : List Nat := []
  /-- The draw of the signature's salt. -/
  salt    : Nat := 0
  oasis   : Nat := 0
  keystate : Nat := 0
  policy  : List PolicyRec := []
  deriving DecidableEq, Repr

/-- A measurement log entry (R469). -/
structure LogEnt where
  typ     : Nat
  core    : Nat
  keyslot : Nat
  arg     : Nat
  time    : Nat
  svn     : Nat
  /-- What the digest is taken over. -/
  msg     : List Byte
  deriving DecidableEq, Repr

/-- An SPDM session: mailbox, number, secured by FINISH, time of the last message. -/
structure Session where
  mb    : Nat
  id    : Nat
  est   : Bool
  time  : Nat
  deriving DecidableEq, Repr

/-- Emmor. -/
structure EmrSt where
  life    : Life
  /-- The state that step 1 of this boot read (R460, R462). -/
  lifeBoot : Life
  copies  : LifeCopy × LifeCopy
  /-- DEVSECRET and the wrapped identity key in the erasable store; the public modulus; unwrapped and usable. -/
  secret  : Option Nat
  wrapped : Option Nat
  modulus : List Byte
  idok    : Bool
  chains  : SMap (List Byte)
  keys    : SMap KeySlot
  fwMin   : Nat
  fwRev   : Nat
  /-- EMR_CMD: BUSY, STATUS, OP; what the running command does has written NVM. -/
  busy    : Bool
  status  : Nat
  op      : Nat
  cmdbuf  : Memory
  log     : List LogEnt
  /-- EMR_ALARM_STAT: COUNT and LATCH; sensor conditions that hold; ALARM_N asserted. -/
  alarms  : Nat
  latch   : Nat
  sense   : Nat
  alarmN  : Bool
  /-- When the warm reset that follows a GRAVE alarm or DECOMMISSION by 1 ms is due. -/
  resetDue : Option Nat
  nonce   : Option Nat
  /-- Slots of the boot-record ring, newest first, at most 256 (R467); none: a write there failed. -/
  recs    : List (Option BootRec)
  sessions : List Session
  nextSess : Nat
  deriving DecidableEq, Repr

/-! ### Slot power (19) -/

/-- A slot power controller, R525. STATE: 0 OFF, 1 WAIT, 2 RAMP, 3 ON, 4 SWITCH, 5 COOL, 6 LATCHED. -/
structure Spc where
  st      : Nat := 0
  feed    : Bool := false
  pg      : Bool := false
  ew      : Bool := false
  prsnt   : Bool := false
  timer   : Bool := false
  last    : Nat := 0
  retries : Nat := 0
  events  : Nat := 0
  trips   : Nat := 0
  /-- Feeds valid; the feed below FEED_WARN; the gate driven, fully enhanced; PRSNT_N low for 100 ms. -/
  validA  : Bool := false
  validB  : Bool := false
  warn    : Bool := false
  gate    : Bool := false
  full    : Bool := false
  seated  : Bool := false
  /-- The ramp trip is armed. -/
  armed   : Bool := false
  /-- The last measurements, SPC_STAT word 1: ISENSE, VOUT, INA, INB. -/
  meas    : Nat × Nat × Nat × Nat := (0, 0, 0, 0)
  /-- Times: the entry to ON, the entry to COOL, the last fall of PRSNT_N. -/
  onAt    : Nat := 0
  coolAt  : Nat := 0
  prsntAt : Nat := 0
  deriving DecidableEq, Repr

/-! ### Power, reset and stored settings (20) -/

/-- A settings copy (R537): its bytes below the trailer, GEN, and whether MAGIC, FORMAT and DIGEST check. -/
structure SetCopy where
  ok    : Bool
  gen   : Nat
  bytes : Memory
  deriving DecidableEq, Repr

/-- A COMMIT in progress (R538): its slot, the blocks still to write, whether the trailer is written. -/
structure Commit where
  slot   : Nat
  blocks : List Nat
  trailer : Bool
  changed : Nat
  live   : Bool
  deriving DecidableEq, Repr

/-- Power, boot and NVM. -/
structure PwrSt where
  pwrOk    : Bool
  boots    : Nat
  devReady : Bool
  /-- Boot step to run next (1-8; 9: booted; 0: not started), the last completed one, a stopped boot. -/
  step     : Nat
  progress : Nat
  stopped  : Bool
  vid      : Bool
  resetN   : Bool
  warmN    : Bool
  /-- A reset request that waits for a block write: 0 none, 1 warm, 2 cold. -/
  resetReq : Nat
  copyA    : SetCopy
  copyB    : SetCopy
  activeB  : Bool
  /-- The boot copy: 0 A, 1 B; none where no copy is valid. -/
  bootCopy : Option Nat
  /-- What the boot copy held when it was loaded. -/
  bootImg  : Memory
  staging  : Memory
  /-- Commits completed since the cold reset (R307). -/
  commits  : Nat
  commit   : Option Commit
  writing  : Bool
  wear     : SMap Nat
  /-- Failed attempts to write the newest history record (R493). -/
  histTry  : Nat
  idle     : Bool
  lastWake : Nat
  entries  : Nat
  /-- What step 6 and the record of this boot hold. -/
  rec_     : BootRec
  deriving DecidableEq, Repr

/-! ### Test access port (21) -/

/-- The test access port: the instruction in force, what the boundary cells hold, the last value shifted in. -/
structure TapSt where
  ir    : Nat
  cells : Nat
  deriving DecidableEq, Repr

end Sys2Proof.Machine
end

