-- ==== Sys2Proof/Machine/State.lean ====
section
/-!
DEFINITION. Machine/State.lean: the state of the device, its reset, its faults and refusals. The lists of INVENTORY.md
name the rule of each piece.
-/
namespace Sys2Proof.Machine

/-- Why a step ends in a fault. No command of the table ends so (NOTES.md, Stops): the spec gives every command an effect.
The constructor stands so that the outcome type is inhabited as the host asks; no meaning raises it (safe). -/
inductive Fault where
  /-- Raised by no meaning; safe. -/
  | none
  deriving DecidableEq, Repr

/-- Why a step is refused. -/
inductive Refusal where
  /-- Answered by Machine/Dispatch.lean for a command that has no meaning yet, by its mnemonic; safe. -/
  | notModelled (mnemonic : String)
  deriving DecidableEq, Repr

/-- The device. -/
structure State where
  time  : Nat
  dom   : DomSt
  gate  : GateSt
  erg   : ErgSt
  reqs  : List Req
  /-- The serial number of the next request, record or tag. -/
  next  : Nat
  coh   : CohSt
  meld  : MeldSt
  dlr   : DlrSt
  oas   : OasSt
  flg   : FlgSt
  ring  : RingSt
  icu   : IcuSt
  flt   : FltSt
  pmu   : PmuSt
  lane  : LaneSt
  cxp   : CxpSt
  trl   : TrlSt
  mgt   : MgtSt
  emr   : EmrSt
  spc   : SMap Spc
  pwr   : PwrSt
  tap   : TapSt
  /-- Registers that hold only what was last written, by DAS address. -/
  regs  : SMap Word
  out   : List Out
  /-- Counter that the free values are drawn with (log entry 3, DESIGN CHOICE). -/
  free  : Nat
  pending : List Instr
  deriving DecidableEq, Repr

/-! ### Reset. The values that the spec gives are those of INVENTORY.md; the others are log entry 2, DESIGN CHOICE. -/

/-- Chapters 02 and 03: domain 0 is valid from boot (R33). -/
def DomSt.reset : DomSt := {
  doms := [(0, { valid := true, st := .active })], wins := [], vppb := [], vcsOf := [], decoders := [], offers := [], releases := [], removals := []
  devs := [], walks := [], incident := 0, logs := [], lossList := [], lostHost := [] }
def GateSt.reset : GateSt := { rules := [], heads := [], gen := 0, locks := [], violDrop := 0, cached := [], gsyncs := [] }

/-- Chapter 04: the default partitions of R92 with no TRL tile and no CXL port; boot step 4 loads them anew. -/
def ErgSt.reset : ErgSt := {
  part := { poolMib := 100, trlTiles := 0, lcMib := 64, replayMib := 8, ringMib := 4, source := 2 }
  shared := 403456, alpha := [], accts := [(2000, { res := 4096 }), (2001, { res := 2048 })], items := [], ports := [], waits := []
  pqos := [], prof := [], mirrors := [], backed := [], crWait := [], pace := [], cyc := (0, 0, 0, false), ecc := (0, 0)
  eccLast := (false, 0, 0, 0, 0) }

/-- Chapters 05 and 06. -/
def CohSt.reset : CohSt := {
  sf := [], lc := [], txns := [], holds := [], rr := [], victims := [], leases := [], stamp := 0, peak := 0
  toLast := (false, 0, 0, 0, 0, 0), ecc := (0, 0, 0, 0), late := 0 }
def MeldSt.reset : MeldSt := { pred := [], acc := (1, 0), farTo := 0, late := 0, far := [], base := [] }

/-- Chapters 07 and 08. -/
def DlrSt.reset : DlrSt := {
  map := [], tlb := [], misses := [], msyncs := [], near := [], nearTotal := 0, nearScrub := 0, nearToScrub := [], promises := 0
  fills := [], heat := [], hcache := [], con := [], moves := [], cars := [], copied := 0, copiedD := [], epochs := 0, lastMs := 0
  sweep := 0, reports := 0, resume := 0, epochAt := 0, repDrop := 0 }
def OasSt.reset : OasSt := {
  lines := [], chRd := [], chWr := [], queue := [], active := none, subs := [], therm := [], retired := [], ecc := (0, 0)
  eccLast := (false, 0, 0, 0), patrolOld := [], patrolNew := [], patrolAt := 0, rate := 0, refresh := [], zq := [], bad := [] }

/-- Chapters 09 to 11: every core in RESET, zeros in every memory. -/
def FlgSt.reset : FlgSt := { cores := [], mem := [], bad := [], ecc := (0, 0, 0, 0), slots := [], mops := [], seq := 0 }
def IcuSt.reset : IcuSt := { srcs := [], strandedN := 0, stranded := [], claims := [] }

/-- Chapters 12 to 14. -/
def LaneSt.reset : LaneSt := {
  tile := [], tiles := [], lanes := [], avg := [], tilesrc := false, tsrc := false, holdover := false, slewing := false }
def CxpSt.reset : CxpSt := { ports := [], io := [], doe := [], noroute := 0 }
def TrlSt.reset : TrlSt := {
  ports := [], selfId := 0, fabric := 0, incarn := 0, peers := [], meter := 0, meterAt := 0, spillQ := [], code := [], fenced := [] }

/-- Chapter 15: the I3C target starts in SMBus mode (R434). -/
def MgtSt.reset : MgtSt := {
  fmPaths := 1, fmPortN := 0, inBand := false, saddr := 0x62, inst := 0, i3c := false, dynAddr := none, mrl := 256, mwl := 256
  events := 0, rstact := 0, eid := 0, respLim := 12, swLog := {}, asm := none, image := [], flash := [], flashLen := 0x4000000
  flashOp := [], flashDone := 0, flashRet := 0, flashBuf := [], flashRun := false, flashPos := 0, runSlot := none, cfg := [], notify := [], console := 0 }

/-- Chapter 16: a part as it leaves manufacture. -/
def EmrSt.reset : EmrSt := {
  life := .manufacture, lifeBoot := .manufacture, copies := ({ count := 0, code := 0, ok := true }, { count := 0, code := 0, ok := false })
  secret := none, wrapped := none, modulus := [], idok := false, chains := [], keys := [], fwMin := 0, fwRev := 0, busy := false
  status := 0, op := 0, cmdbuf := [], log := [], alarms := 0, latch := 0, sense := 0, alarmN := false
  resetDue := none, nonce := none, recs := [], sessions := [], nextSess := 0 }

/-- Chapters 17 and 18. -/
def FltSt.reset : FltSt := {
  srcs := [], main := [], prot := [], recno := 0, terminal := false, devpend := false, last := none, supp := 0, suppSince := 0
  recent := [], raised := [] }
def PmuSt.reset : PmuSt := { cnts := [], src0 := {}, src1 := {}, trk := [], bw := [] }

/-- A settings copy that was never written. -/
def SetCopy.blank : SetCopy := { ok := false, gen := 0, bytes := [] }

/-- Chapter 20: before power is good, with no settings stored. -/
def PwrSt.reset : PwrSt := {
  pwrOk := false, boots := 0, devReady := false, step := 0, progress := 0, stopped := false, vid := false, resetN := true, warmN := true
  resetReq := 0, copyA := .blank, copyB := .blank, activeB := false, bootCopy := none, bootImg := [], staging := [], commits := 0
  commit := none, writing := false, wear := [], histTry := 0, idle := false, lastWake := 0, entries := 0, rec_ := {} }

/-- The device after reset: PWR_OK has not risen yet, so that the next event is the start of the cold boot (R532). -/
def State.reset : State := {
  time := 0, dom := .reset, gate := .reset, erg := .reset, reqs := [], next := 0, coh := .reset, meld := .reset, dlr := .reset
  oas := .reset, flg := .reset, ring := { rings := [] }, icu := .reset, flt := .reset, pmu := .reset, lane := .reset, cxp := .reset
  trl := .reset, mgt := .reset, emr := .reset, spc := [], pwr := .reset, tap := { ir := 2, cells := 0 }, regs := [], out := []
  free := 0, pending := [] }

end Sys2Proof.Machine
end

