-- ==== Sys2Proof/Machine/Regs.lean ====
section
/-!
DEFINITION. Machine/Regs.lean: the registers that hold only what was last written to them: their addresses, fields,
ranges and reset values (the field maps of R85, R125, R161, R183, R220, R241, R310, R340, R498 and the other register rules),
and the store that the access codes of R6 give.
-/
namespace Sys2Proof.Machine

/-- A writable field: its bits, the least and greatest value a write stores, whether it is RWL. -/
structure FieldD where
  hi  : Nat
  lo  : Nat
  min : Nat := 0
  max : Nat
  rwl : Bool := false
  deriving DecidableEq, Repr

/-- A field of any value. -/
def fAny (hi lo : Nat) : FieldD := { hi := hi, lo := lo, max := 2 ^ (hi - lo + 1) - 1 }

/-- A field with a range. -/
def fRng (hi lo min max : Nat) : FieldD := { hi := hi, lo := lo, min := min, max := max }

/-- An array of registers: first address, stride, number, reset value, writable fields. -/
structure RegD where
  base   : Nat
  stride : Nat
  num    : Nat
  reset  : Word
  fields : List FieldD
  deriving DecidableEq, Repr

def aGateViolCfg : Nat := 0x24290000
def aPaceCfg : Nat := 0x24460000
def aCohCfg : Nat := 0x24500000
def aMeldCfg : Nat := 0x24600000
def aMeldPredCfg : Nat := 0x24600008
def aMeldPredAcc : Nat := 0x24600010
def aDlrCfg : Nat := 0x24700000
def aDlrHeatCfg : Nat := 0x24700008
def aDlrHeatThr : Nat := 0x24700010
def aOasCfg : Nat := 0x24740000
def aOasRetrain : Nat := 0x24740008
def aFltCfg : Nat := 0x25000000
def aFltInject : Nat := 0x25000010
def aIcuFallback : Nat := 0x24B10000
def aScope : Nat := 0x24900800

/-- Registers of chapters 03 to 11 and 17. -/
def regsA : List RegD := [
  { base := aGateViolCfg, stride := 8, num := 1, reset := 0, fields := [fAny 16 16, fAny 9 0] },
  { base := aPaceCfg, stride := 8, num := 1, reset := 0x514#64,
    fields := [{ hi := 15, lo := 0, max := 65535, rwl := true }] },
  { base := aCohCfg, stride := 8, num := 1, reset := word (at_ 0x28 40 + at_ 0xA 30 + at_ 2 20 + 8),
    fields := [fRng 51 40 1 4000, fRng 39 30 1 1000, fRng 21 20 0 2, fRng 8 0 1 256] },
  { base := aMeldCfg, stride := 8, num := 1, reset := 0x10#64, fields := [fRng 6 0 1 64] },
  { base := aMeldPredCfg, stride := 8, num := 1, reset := word (at_ 4 32 + at_ 0x10 24 + 2),
    fields := [fRng 39 32 1 255, fRng 31 24 1 255, fRng 13 12 0 2, fRng 11 0 1 4095] },
  { base := aDlrCfg, stride := 8, num := 1, reset := word (at_ 5 40 + at_ 0x32 20 + at_ 0x3E8 10),
    fields := [fRng 47 40 1 50, fRng 29 20 2 1000, fRng 19 10 10 1000] },
  { base := aDlrHeatCfg, stride := 8, num := 1,
    reset := word (at_ 1 63 + at_ 4 58 + at_ 0x64 44 + at_ 0x10000 17),
    fields := [fAny 63 63, fAny 62 62, fRng 61 58 0 10, fRng 57 44 1 10000, fAny 43 34, fRng 33 17 1 65536] },
  { base := aOasCfg, stride := 8, num := 1,
    reset := word (at_ 8 48 + at_ 5 40 + at_ 0x46 32 + at_ 0x1E 24 + at_ 8 16),
    fields := [fRng 55 48 2 32, fRng 44 40 2 10, fRng 38 32 50 95, fRng 30 24 5 49, fRng 20 16 1 24] },
  { base := aOasRetrain, stride := 8, num := 1, reset := 0, fields := [fAny 5 0] },
  { base := aScope, stride := 8, num := 256, reset := 0, fields := [fAny 63 63, fAny 27 16, fAny 11 0] },
  { base := aIcuFallback, stride := 8, num := 1, reset := 0, fields := [fAny 5 0] },
  { base := aFltCfg, stride := 8, num := 1,
    reset := word (at_ 0x3C 48 + at_ 0x40 40 + at_ 8 36 + at_ 4 32 + 1),
    fields := [{ hi := 63, lo := 63, max := 1, rwl := true }, fRng 55 48 1 255, fRng 47 40 1 255, fRng 39 36 2 15,
      fRng 35 32 1 15, fRng 2 0 0 4] },
  { base := aFltInject, stride := 8, num := 1, reset := 0, fields := [fAny 59 48, fAny 40 34] }]

def aCxpCfg : Nat := 0x24D00000
def aCxpPbr : Nat := 0x24D00008

/-- CXP_PORT_CFG of a port. -/
def aCxpPortCfg (p : Nat) : Nat := 0x24D00100 + 8 * p

/-- CXP_PBR_RT entry. -/
def aCxpRt (i : Nat) : Nat := 0x24D10000 + 8 * i

/-- Registers of chapter 13 (R405). -/
def regsB : List RegD := [
  { base := aCxpCfg, stride := 8, num := 1, reset := word (at_ 0x32 32 + at_ 0x64 23 + 0x64),
    fields := [fRng 41 32 1 1000, fRng 31 23 10 500, fRng 13 0 10 10000] },
  { base := aCxpPbr, stride := 8, num := 1, reset := 0, fields := [fAny 63 63, fAny 4 0] },
  { base := aCxpPortCfg 0, stride := 8, num := 96, reset := 0, fields := [fAny 13 8, fAny 4 0] },
  { base := aCxpRt 0, stride := 8, num := 4096, reset := 0, fields := [fAny 63 63, fAny 6 0] }]

def aLaneChk : Nat := 0x24C00000
def aTrlCfg : Nat := 0x24E00000

/-- Registers of chapters 12 (R372) and 14 (R431). -/
def regsC : List RegD := [
  { base := aLaneChk, stride := 8, num := 1,
    reset := word (at_ 1 40 + at_ 0x10 32 + at_ 6 24 + at_ 0x28 16 + at_ 0x46 8 + 0x1E),
    fields := [fAny 40 40, fRng 39 32 4 64, fRng 28 24 2 20, fRng 22 16 10 90, fRng 14 8 50 95, fRng 6 0 5 49] },
  { base := aTrlCfg, stride := 8, num := 1, reset := word (at_ 0xA 54 + at_ 0xA 44 + at_ 4 8),
    fields := [fRng 63 54 2 1000, fRng 53 44 1 1000, fAny 43 32, fRng 10 8 1 4] },
  { base := 0x24E00100, stride := 8, num := 16, reset := 0, fields := [fAny 63 63, fAny 23 0] },
  { base := 0x24E10000, stride := 8, num := 4096, reset := 0, fields := [fAny 63 63, fAny 3 0] }]

def aAlarmCfg : Nat := 0x24F00008
def aDbgCfg : Nat := 0x24F00018

/-- SPC_CFG of a controller, word k. -/
def aSpcCfg (n k : Nat) : Nat := 0x25200000 + 16 * n + 8 * k

/-- An RWL field with a range. -/
def fLck (hi lo min max : Nat) : FieldD := { hi := hi, lo := lo, min := min, max := max, rwl := true }

/-- Registers of chapters 16 (R479), 19 (R525) and 20 (FLG_DEVIDLE.ARM is kept at its own address, R543). -/
def regsD : List RegD := [
  { base := aAlarmCfg, stride := 8, num := 1, reset := word (at_ 8 48 + 7), fields := [fLck 63 63 0 1, fLck 55 48 2 64, fLck 2 0 0 7] },
  { base := aDbgCfg, stride := 8, num := 1, reset := 4#64, fields := [fLck 3 2 0 3, fLck 0 0 0 1] },
  { base := aSpcCfg 0 0, stride := 16, num := 32, reset := 0,
    fields := [fAny 63 63, fAny 62 62, fAny 61 61, fAny 60 60, fRng 59 54 1 63, fRng 53 46 8 255, fRng 45 38 4 255, fRng 37 30 4 255,
      fRng 29 21 1 500, fRng 20 14 1 100] },
  { base := aSpcCfg 0 1, stride := 16, num := 32, reset := 0, fields := [fRng 63 53 800 1400, fRng 52 42 800 1400, fRng 41 35 1 100] },
  { base := 0x24901000, stride := 8, num := 1, reset := 0, fields := [fAny 63 63] }]

/-- Whether an address is one of an array's registers. -/
def RegD.has (d : RegD) (a : Nat) : Bool :=
  (d.base ≤ a : Bool) && (a < d.base + d.stride * d.num : Bool) && ((a - d.base) % d.stride == 0)

/-- The registers of the device that hold only what was written. -/
def regTable : List RegD :=
  { base := aDlrHeatThr, stride := 8, num := 1, reset := word (at_ 0x100 16 + 0x10), fields := [] } :: (regsA ++ regsB ++ regsC ++ regsD)

/-- The description of a register. -/
def regDesc (a : Nat) : Option RegD := regTable.find? (fun d => d.has a)

/-- The reset value of a register. -/
def regReset (a : Nat) : Word := match regDesc a with | some d => d.reset | none => 0

/-- What a register holds. -/
def regGet (s : State) (a : Nat) : Word := match sfind? s.regs a with | some v => v | none => regReset a

/-- Gives a register a value; the reset value is not listed. -/
def regPut (s : State) (a : Nat) (v : Word) : State :=
  { s with regs := if v = regReset a then sdel s.regs a else sput s.regs a v }

/-- A field of a register. -/
def regFld (s : State) (a hi lo : Nat) : Nat := fld (regGet s a) hi lo

/-- The device runs: power is good, and no reset ball is held; TERMINAL ignores the balls (R489, R532). -/
def alive (s : State) : Bool := s.pwr.pwrOk && !(s.pwr.step == 0) && (s.flt.terminal || (s.pwr.resetN && s.pwr.warmN))

/-- Ports other than host ports may train: boot step 7 has been reached, and no reset waits (R462, R463). -/
def trainLive (s : State) : Bool := (7 ≤ s.pwr.progress : Bool) && !s.flt.terminal && s.pwr.resetReq == 0

/-- The lifecycle state refuses writes to RWL fields (R6): SEALED. -/
def rwlLocked (s : State) : Bool := decide (s.emr.life = .sealed)

/-- One field of a store (R6): stored where the value lies in the field's range and the field is not an RWL field of a
sealed device. -/
def storeField (locked : Bool) (old v : Word) (f : FieldD) : Word :=
  let x := fld v f.hi f.lo
  if (f.rwl && locked) || x < f.min || f.max < x then old else setFld old f.hi f.lo x

/-- The value a store of v leaves in a register (R6, R161, R183, R220, R241, R498). -/
def storeVal (s : State) (d : RegD) (a : Nat) (v : Word) : Word :=
  d.fields.foldl (fun o f => storeField (rwlLocked s) o v f) (regGet s a)

/-- DLR_HEAT_THR (R220): DEMOTE must be below PROMOTE; a store that breaks this leaves both fields unchanged. -/
def storeHeatThr (s : State) (v : Word) : Word :=
  let old := regGet s aDlrHeatThr
  let p := if 1 ≤ fld v 29 16 then fld v 29 16 else fld old 29 16
  let d := if fld v 13 0 ≤ 16382 then fld v 13 0 else fld old 13 0
  if d < p then word (at_ p 16 + d) else old

/-- ERG_PACE_CFG (R125): RWL; a value outside 1,250 to 1,500 stores the nearer bound. -/
def storePaceCfg (s : State) (v : Word) : Word :=
  if rwlLocked s then regGet s aPaceCfg
  else word (if fld v 15 0 < 1250 then 1250 else if 1500 < fld v 15 0 then 1500 else fld v 15 0)

/-- Every field of a value lies in its range. -/
def inRange (d : RegD) (v : Word) : Bool := d.fields.all (fun f => (f.min ≤ fld v f.hi f.lo : Bool) && (fld v f.hi f.lo ≤ f.max : Bool))

/-- The value of a register whose every field is taken from v. -/
def imageOf (d : RegD) (v : Word) : Word := d.fields.foldl (fun o f => setFld o f.hi f.lo (fld v f.hi f.lo)) 0

/-- SPC_CFG (R525): a field out of range, CB_MV or RAMP_MV not below FAST_MV, or FEED_WARN not above FEED_UV leaves the word
unchanged. -/
def spcImage (d : RegD) (k : Nat) (old v : Word) : Word :=
  let ok := if k = 0 then (fld v 45 38 < fld v 53 46 : Bool) && (fld v 37 30 < fld v 53 46 : Bool) else (fld v 63 53 < fld v 52 42 : Bool)
  if inRange d v && ok then imageOf d v else old

/-- An address is one of SPC_CFG. -/
def isSpcCfg (a : Nat) : Bool := (0x25200000 ≤ a : Bool) && (a < 0x25200200 : Bool) && (a % 8 == 0)

/-- EMR_ALARM_CFG: a write of 0 over GRAVE = 1 is ignored (R461). -/
def graveKept (old v : Word) : Word := if bit old 63 then setFld v 63 63 1 else v

/-- A store to a register that holds only what was written to it; no register there: no effect (R249). -/
def storeReg (s : State) (a : Nat) (v : Word) : State :=
  if a = aDlrHeatThr then regPut s a (storeHeatThr s v)
  else if a = aPaceCfg then regPut s a (storePaceCfg s v)
  else match regDesc a with
    | some d =>
      if isSpcCfg a then regPut s a (spcImage d (a / 8 % 2) (regGet s a) v)
      else regPut s a (storeVal s d a (if a = aAlarmCfg then graveKept (regGet s a) v else v))
    | none => s

end Sys2Proof.Machine
end

