-- ==== Sys2Proof/Machine/Ops.lean ====
section
/-!
DEFINITION. Machine/Ops.lean: the operations every chapter shares: what leaves the device, free values, the cores' fields,
interrupt sources (11), event counters (18), event logs (15), rings as device engines push them (11), and the raise of a
fault source (17).
-/
namespace Sys2Proof.Machine

/-! ### Outputs, serial numbers, free values -/

/-- Something leaves the device. -/
def emit (o : Out) (s : State) : State := { s with out := o :: s.out }

/-- A response on an interface. -/
def respond (c : Chan) (code : Nat) (words : List Nat) (s : State) : State := emit (.resp c code words) s

/-- Draws a free value: the counter advances. -/
def drawFree (s : State) : State := { s with free := s.free + 1 }

/-- Takes a serial number. -/
def takeNext (s : State) : State := { s with next := s.next + 1 }

/-! ### Requests in flight -/

/-- The request with a serial number. -/
def reqOf (s : State) (id : Nat) : Option Req := s.reqs.find? (fun r => r.id == id)

/-- Replaces a request. -/
def reqPut (r : Req) (s : State) : State :=
  { s with reqs := s.reqs.map (fun x => if x.id = r.id then r else x) }

/-- Removes a request. -/
def reqDel (id : Nat) (s : State) : State := { s with reqs := s.reqs.filter (fun x => !(x.id == id)) }

/-- Adds a request at the end of the arrival order. -/
def reqAdd (r : Req) (s : State) : State := { s with reqs := s.reqs ++ [r] }

/-! ### Cores -/

/-- Core n. -/
def coreOf (s : State) (n : Nat) : Core := sget {} s.flg.cores n

/-- Replaces core n. -/
def corePut (n : Nat) (c : Core) (s : State) : State :=
  { s with flg := { s.flg with cores := sset {} s.flg.cores n c } }

/-- General register k of a core: g0 reads 0 (R243). -/
def gReg (c : Core) (k : Nat) : Word := if k = 0 then 0 else sget 0 c.g k

/-- Writes a general register: a write to g0 is discarded (R243). -/
def gSet (c : Core) (k : Nat) (v : Word) : Core := if k = 0 then c else { c with g := sset 0 c.g k v }

/-- A core in service for interrupt delivery (R247, R330). -/
def inService (c : Core) : Bool :=
  match c.st with
  | .run => true | .wait => true | .sleep => true | .reset => false | .halted => false | .faulted => false

/-! ### Interrupt sources (R328-R331) -/

/-- Source n. -/
def srcOf (s : State) (n : Nat) : IcuSrc := sget {} s.icu.srcs n

/-- Replaces source n. -/
def srcPut (n : Nat) (x : IcuSrc) (s : State) : State :=
  { s with icu := { s.icu with srcs := sset {} s.icu.srcs n x } }

/-- MODE of a source: edge. -/
def srcEdge (n : Nat) (x : IcuSrc) : Bool := match x.edge with | some b => b | none => icuEdgeReset n

/-- The effective target of a source, R330. -/
def effTarget (s : State) (x : IcuSrc) : Option Nat :=
  if inService (coreOf s x.target) then some x.target
  else if inService (coreOf s (regFld s aIcuFallback 5 0)) then some (regFld s aIcuFallback 5 0)
  else none

/-- A source is stranded: PENDING and to be delivered (EN = 1, PRIO at least 1), with no core in service to take it (R330; log
entry 71). -/
def isStranded (s : State) (x : IcuSrc) : Bool := decide (x.st = .pending) && x.en && !(x.prio == 0) && (effTarget s x).isNone

/-- The transition of a source when its edge input fires, R329. -/
def IState.fire : IState → IState
  | .idle => .pending | .pending => .pending | .active => .activePending | .activePending => .activePending

/-- The transition when PENDCLR is written, R329. -/
def IState.pendClr : IState → IState
  | .idle => .idle | .pending => .idle | .active => .active | .activePending => .active

/-- A source's input: an edge fires, or a level input takes a value (R329). A reserved source never becomes pending
(R328). -/
def srcInput (n : Nat) (lvl : Bool) (s : State) : State :=
  if 7424 ≤ n then s else
  let x := srcOf s n
  if srcEdge n x then
    (if lvl then srcPut n { x with st := x.st.fire } s else s)
  else
    srcPut n { x with
      levelIn := lvl
      st := match x.st, lvl with
        | .idle, true => .pending
        | .pending, false => .idle
        | st, _ => st } s

/-- Updates the stranded mark of a source; says whether it became stranded now (R330). -/
def markStranded (n : Nat) (s : State) : Bool × State :=
  if isStranded s (srcOf s n) then
    (if s.icu.stranded.contains n then (false, s)
     else (true, { s with icu := { s.icu with
              stranded := n :: s.icu.stranded
              strandedN := satAdd (2 ^ 48 - 1) s.icu.strandedN 1 } }))
  else (false, { s with icu := { s.icu with stranded := s.icu.stranded.filter (fun k => !(k == n)) } })

/-! ### Event counters (R500, R501) -/

/-- Whether an occurrence passes a counter's settings (R500): an event code, the domain and port it names. -/
def cntTakes (c : Cnt) (ev : Nat) (dom port : Option Nat) : Bool :=
  bit c.cfg 63 && !(bit c.cfg 62) && (fld c.cfg 47 32 == ev)
    && (!(bit c.cfg 15) || dom == some (fld c.cfg 27 16))
    && (!(bit c.cfg 7) || port == some (fld c.cfg 14 8))

/-- Fires the overflow source of counter n when OVINT is set (R501). -/
def cntOverflow (n : Nat) (c : Cnt) (s : State) : State :=
  if bit c.cfg 61 then srcInput (2048 + n) true s else s

/-- Counter n + 1 counts the overflows of counter n while it is chained; a chained counter may overflow in turn. -/
def chainFrom : Nat → Nat → State → State
  | 0, _, s => s
  | fuel + 1, n, s =>
    match sfind? s.pmu.cnts n with
    | none => s
    | some c =>
      if bit c.cfg 63 && bit c.cfg 62 then
        if c.value + 1 < 2 ^ 48 then
          { s with pmu := { s.pmu with cnts := sput s.pmu.cnts n { c with value := c.value + 1 } } }
        else
          chainFrom fuel (n + 1) (cntOverflow n c
            { s with pmu := { s.pmu with cnts := sput s.pmu.cnts n { c with value := 0 } } })
      else s

/-- Adds an increment to counter n, with the overflow and chain of R501. -/
def cntAdd (n : Nat) (c : Cnt) (inc : Nat) (s : State) : State :=
  if c.value + inc < 2 ^ 48 then
    { s with pmu := { s.pmu with cnts := sput s.pmu.cnts n { c with value := c.value + inc } } }
  else
    chainFrom 3072 (n + 1) (cntOverflow n c
      { s with pmu := { s.pmu with cnts := sput s.pmu.cnts n { c with value := (c.value + inc) % 2 ^ 48 } } })

/-- An event occurs: every counter that selects it adds the increment (R500). -/
def countN (ev : Nat) (dom port : Option Nat) (inc : Nat) (s : State) : State :=
  s.pmu.cnts.foldl (fun s' p => if cntTakes p.2 ev dom port then cntAdd p.1 p.2 inc s' else s') s

/-- One occurrence of a COUNT event that names a domain. -/
def countD (ev dom : Nat) (s : State) : State := countN ev (some dom) none 1 s

/-- One occurrence that names a port (or a core). -/
def countP (ev port : Nat) (s : State) : State := countN ev none (some port) 1 s

/-- One occurrence that names both. -/
def countDP (ev dom port : Nat) (s : State) : State := countN ev (some dom) (some port) 1 s

/-- Bytes that a port receives (true) or transmits count in its bandwidth window (R510). -/
def bwAdd (port : Nat) (rx : Bool) (n : Nat) (s : State) : State :=
  let b := sget {} s.pmu.bw port
  if !b.en || b.armed then s
  else { s with pmu := { s.pmu with bw := sset {} s.pmu.bw port (if rx then { b with rx := (b.rx + n) % 2 ^ 48 } else { b with tx := (b.tx + n) % 2 ^ 48 }) } }

/-- Bytes of a flit of a CXL port (R510). -/
def flitBytes (s : State) (port : Nat) : Nat := if (sget {} s.cxp.ports port).flit = 1 then 68 else 256

/-- Cores that wait, as FLG_STALL and FLG_IDLE count them: true for idle (WAIT, SLEEP). -/
def coreTime (c : Core) : Option Bool :=
  match c.st, c.busy with
  | .wait, _ => some true
  | .sleep, _ => some true
  | .run, .none => none
  | .run, _ => some false
  | _, _ => none

/-- TIME events whose condition holds (R500, R505): the code, the domain, the port or core. -/
def timeOccs (s : State) : List (Nat × Option Nat × Option Nat) :=
  (s.erg.crWait.map (fun k => (0x0004, none, some (k / 8))))
    ++ (if s.erg.cyc.2.2.1 = 0 then [] else [(0x0007, none, none)])
    ++ ((s.coh.txns.filter (fun t => t.await.isSome)).map (fun t => (0x3007, some (t.key / 2 ^ 40), none)))
    ++ (s.reqs.filterMap (fun r => match r.phase with
        | .holdWait => some (0x3007, some r.dom, none)
        | .moveHold _ => some (0x5025, some r.dom, none)
        | _ => none))
    ++ (if s.oas.active.isSome then [(0x6003, none, none)] else [])
    ++ (s.flg.cores.filterMap (fun p => (coreTime p.2).map (fun i => (if i then 0x7004 else 0x7003, none, some p.1))))
    ++ ((s.cxp.ports.filter (fun p => p.2.link == 3)).map (fun p => (0xA003, none, some p.1)))
    ++ ((s.trl.ports.filter (fun p => p.2.st == 5 && (p.2.pace == 0 || p.2.silent))).map (fun p => (0xB004, none, some (4 * p.1))))
    ++ [(0xC001, none, none)]

/-- Device time reaches t (R5): it never goes back, and TIME events are credited with what passes. -/
def advanceTo (t : Nat) (s : State) : State :=
  if t ≤ s.time then s
  else
    { (if s.pmu.cnts.isEmpty then s else (timeOccs s).foldl (fun s' o => countN o.1 o.2.1 o.2.2 (t - s.time) s') s) with time := t }

/-! ### Event logs of KMD instances (R62, R400, R491) -/

/-- VCSs whose vPPBs present a domain's KMD instance. -/
def presenters (s : State) (dom : Nat) : List Nat :=
  (s.dom.vppb.filter (fun p => p.2 == some (VTarget.kmd dom))).map (fun p => p.1 / 256)

/-- Domains whose KMD instances a VCS presents. -/
def presentedBy (s : State) (vcs : Nat) : List Nat :=
  s.dom.vppb.filterMap (fun p =>
    if p.1 / 256 = vcs then (match p.2 with | some (VTarget.kmd d) => some d | _ => none) else none)

/-- The VCS of a host port. -/
def vcsOf? (s : State) (port : Nat) : Option Nat :=
  match sget 0 s.dom.vcsOf port with | 0 => none | v + 1 => some v

/-- The host port of a VCS. -/
def portOfVcs? (s : State) (vcs : Nat) : Option Nat :=
  (s.dom.vcsOf.find? (fun p => p.2 == vcs + 1)).map (fun p => p.1)

/-- A full log loses a record: the overflow indication of CXL 3.1 counts it (R62, R400; log entry 70, PRESUMED). -/
def logLost (log now : Nat) (l : EvLog) : EvLog :=
  let x := sget (0, 0, 0) l.overflow log
  { l with overflow := sput l.overflow log (satAdd 65535 x.1 1, if x.1 = 0 then now else x.2.1, now) }

/-- Places a record in one of the logs of a KMD instance: 256 records, then the overflow indication (R62, R400). -/
def logPush (vcs dom log : Nat) (k : EvKind) (s : State) : State :=
  let key := vcs * 4096 + dom
  let l := sget {} s.dom.logs key
  let l' := if (l.recs.filter (fun r => r.1 == log)).length < 256
    then { l with recs := l.recs ++ [(log, l.nextH, k)], nextH := l.nextH + 1 }
    else logLost log s.time l
  { s with dom := { s.dom with logs := sset {} s.dom.logs key l' } }

/-! ### Fault sources (R480-R495) -/

/-- Source n of the collector. -/
def fltOf (s : State) (n : Nat) : FltSrc := sget {} s.flt.srcs n

/-- Replaces source n. -/
def fltPut (n : Nat) (x : FltSrc) (s : State) : State :=
  { s with flt := { s.flt with srcs := sset {} s.flt.srcs n x } }

/-- The severity in force (R483, R484). -/
def sevOf (s : State) (n : Nat) : Nat :=
  match (fltOf s n).sev with
  | some v => v
  | none => match fltInfo n with | some (_, d, _) => d | none => 0

/-- DETAIL of a history record, R493. -/
def fltDetail (s : State) (n : Nat) : List Word :=
  if n = 3 ∨ n = 4 then
    let l := s.erg.eccLast
    [word (at_ (b2n l.1) 63 + at_ l.2.1 61 + at_ l.2.2.1 24 + at_ l.2.2.2.1 21 + l.2.2.2.2)]
  else if 98 ≤ n ∧ n ≤ 104 then
    let l := s.oas.eccLast
    [word (at_ (b2n l.1) 63 + at_ l.2.1 61 + at_ l.2.2.1 40 + at_ l.2.2.2 6)]
  else if n = fCohBisnpTimeout then
    let l := s.coh.toLast
    [word (at_ (b2n l.1) 63 + at_ l.2.1 62 + at_ l.2.2.1 52 + at_ l.2.2.2.1 40 + l.2.2.2.2.1), word l.2.2.2.2.2]
  else []

/-- Puts a record in the main ring (15,872 records) or the protected ring (512), R492; newest first. Its write has not been read back
yet. -/
def histPush (r : HistRec) (s : State) : State :=
  let s1 := { s with pwr := { s.pwr with histTry := 0 } }
  if r.source = fEmrSigfail ∨ r.source = fEmrAlarm then
    { s1 with flt := { s.flt with prot := (r :: s.flt.prot).take 512, recno := s.flt.recno + 1 } }
  else
    { s1 with flt := { s.flt with main := (r :: s.flt.main).take 15872, recno := s.flt.recno + 1 } }

/-- History records of DEVICE reactions within the last ESC_BOOTS boots, R488. -/
def deviceRecords (s : State) : Nat :=
  (s.flt.main.filter (fun r => (r.sev == 3) && (s.pwr.boots < r.boots + regFld s aFltCfg 39 36 : Bool))).length

/-- Whether a DEVICE raise escalates to TERMINAL, R488. -/
def escalates (s : State) (sev : Nat) : Bool :=
  (sev == 3) && (regFld s aFltCfg 35 32 ≤ deviceRecords s : Bool)

/-- Whether a raise is written to the history (R493 steps 1 to 3). -/
def histDue (s : State) (n sev : Nat) (forced : Bool) (x : FltSrc) : Bool :=
  (n == fEmrSigfail) || (n == fEmrAlarm) || (3 ≤ sev : Bool) || forced || (sev == 2)
    || (x.recAt == 0) || (x.recAt - 1 + regFld s aFltCfg 55 48 * 1000000000 ≤ s.time : Bool)

/-- Whether the rate limit of R493 step 4 applies to a record. -/
def histLimited (n sev : Nat) (forced : Bool) : Bool :=
  !((n == fEmrSigfail) || (n == fEmrAlarm) || (3 ≤ sev : Bool) || forced)

/-- The fault collector writes a raise's history record, or counts it (R493). -/
def histWrite (n sev dom port : Nat) (forced esc : Bool) (extra : List Word) (s : State) : State :=
  let x := fltOf s n
  let s1 := { s with flt := { s.flt with recent := s.flt.recent.filter (fun t => (s.time < t + 1000000000 : Bool)) } }
  if !(histDue s1 n sev forced x) then fltPut n { x with since := x.since + 1 } s1
  else if histLimited n sev forced && (regFld s1 aFltCfg 47 40 ≤ s1.flt.recent.length : Bool) then
    let s2 := fltPut n { x with since := x.since + 1 } s1
    { s2 with flt := { s2.flt with
        supp := satAdd (2 ^ 32 - 1) s2.flt.supp 1
        suppSince := s2.flt.suppSince + 1 } }
  else
    let isProt := (n == fEmrSigfail) || (n == fEmrAlarm)
    let r : HistRec := {
      recno := s1.flt.recno, boots := s1.pwr.boots, time := s1.time, source := n, sev := sev
      flags := b2n forced + at_ (b2n (n == fEmrAlarm)) 1 + at_ (b2n (n == fEmrSigfail)) 2 + at_ (b2n esc) 3
      dom := dom, port := port, count := x.since + 1
      supp := if isProt then 0 else s1.flt.suppSince
      detail := fltDetail s1 n ++ extra }
    let s2 := histPush r (fltPut n { x with since := 0, recAt := s1.time + 1 } s1)
    if isProt then s2
    else { s2 with flt := { s2.flt with suppSince := 0, recent := s2.flt.recent ++ [s2.time] } }

/-- The KMD instances that receive a host record, R491: pairs of VCS and domain. -/
def hostReceivers (s : State) (sc : Scope) (sev dom port : Nat) : List (Nat × Nat) :=
  if 3 ≤ sev then
    s.dom.vppb.filterMap (fun p => match p.2 with | some (VTarget.kmd d) => some (p.1 / 256, d) | _ => none)
  else match sc with
    | .none => []
    | .domain => (presenters s dom).map (fun v => (v, dom))
    | .port => match vcsOf? s port with
      | some v => (presentedBy s v).map (fun d => (v, d))
      | none => []

/-- Host records of a raise, R482, R491: none for NOTE; CORRECTED records are coalesced like history records. -/
def hostRecords (n sev dom port : Nat) (forced esc : Bool) (s : State) : State :=
  match fltInfo n with
  | none => s
  | some (sc, _, _) =>
    let x := fltOf s n
    if sev = 0 then s
    else if (sev == 1) && !((x.hostAt == 0) || (x.hostAt - 1 + regFld s aFltCfg 55 48 * 1000000000 ≤ s.time : Bool))
    then fltPut n { x with hostSince := x.hostSince + 1 } s
    else
      let k := EvKind.devFault n sev (b2n forced + at_ (b2n esc) 1) dom port s.time s.pwr.boots (x.hostSince + 1)
      let log := if sev = 1 then 0 else if sev = 2 then 2 else 3
      (hostReceivers s sc sev dom port).foldl (fun s' p => logPush p.1 p.2 log k s')
        (fltPut n { x with hostSince := 0, hostAt := s.time + 1 } s)

/-- The collector takes a raise (R480): the latch, the count, the severity applied, the history and host records, and
the reaction to take when the step ends (R495). -/
def fltRecordH (hist : Bool) (n dom port : Nat) (forced : Bool) (extra : List Word) (s : State) : State :=
  let sev := sevOf s n
  let esc := escalates s sev && !s.flt.devpend
  let x := fltOf s n
  let s1 := fltPut n { x with latch := true, lastSev := sev, count := satAdd (2 ^ 32 - 1) x.count 1 } s
  let s2 := hostRecords n sev dom port forced esc
    (if hist then histWrite n sev dom port forced esc extra s1 else fltPut n { fltOf s1 n with since := x.since + 1 } s1)
  let react : Bool := !((n == fEmrSigfail) || (n == fEmrAlarm)) && (2 ≤ sev : Bool) && (!s2.flt.devpend || sev == 4)
  { s2 with flt := { s2.flt with
      last := some n
      raised := if react then s2.flt.raised ++ [{ n := n, sev := if esc then 4 else sev, dom := dom, port := port }]
        else s2.flt.raised } }

/-- A raise that the history takes. -/
def fltRecord (n dom port : Nat) (forced : Bool) (extra : List Word) (s : State) : State := fltRecordH true n dom port forced extra s

/-- ICU_STRANDED follows a source that has become stranded (R330); its own interrupt source may be stranded in turn. -/
def raiseStranded : Nat → State → State
  | 0, s => s
  | fuel + 1, s =>
    let s1 := srcInput (5120 + fIcuStranded) true (fltRecord fIcuStranded 0xFFFF 0xFF false [] s)
    let r := markStranded (5120 + fIcuStranded) s1
    if r.1 then raiseStranded fuel r.2 else r.2

/-- A source's input changes, with the stranded rule of R330. -/
def icuInput (n : Nat) (lvl : Bool) (s : State) : State :=
  let r := markStranded n (srcInput n lvl s)
  if r.1 then raiseStranded 2 r.2 else r.2

/-- An edge source fires. -/
def icuEdge (n : Nat) (s : State) : State := icuInput n true s

/-- Every pending source is looked at again when a core leaves service or a target changes (R330, R334). -/
def strandScan (s : State) : State :=
  s.icu.srcs.foldl (fun s' p =>
    let r := markStranded p.1 s'
    if r.1 then raiseStranded 2 r.2 else r.2) s

/-- A raise that writes no history record of its own (R493 step 5). -/
def raiseQuiet (n : Nat) (s : State) : State := icuInput (5120 + n) true (fltRecordH false n 0xFFFF 0xFF false [] s)

/-- A raise with detail words of its own. -/
def raiseX (n dom port : Nat) (forced : Bool) (extra : List Word) (s : State) : State :=
  if (fltInfo n).isNone then s else icuInput (5120 + n) true (fltRecord n dom port forced extra s)

/-- A source of scope none is raised. -/
def raiseN (n : Nat) (s : State) : State := raiseX n 0xFFFF 0xFF false [] s

/-- A source of domain scope is raised. -/
def raiseD (n dom : Nat) (s : State) : State := raiseX n dom 0xFF false [] s

/-- A source of port scope is raised. -/
def raiseP (n port : Nat) (s : State) : State := raiseX n 0xFFFF port false [] s

/-- FAULT_N is asserted (R490). -/
def faultN (s : State) : Bool :=
  s.flt.terminal || s.flt.srcs.any (fun p => p.2.latch && (regFld s aFltCfg 2 0 ≤ p.2.lastSev : Bool))

/-! ### Rings (R314-R324) -/

/-- Ring n. -/
def ringOf (s : State) (n : Nat) : Ring := sget {} s.ring.rings n

/-- Replaces ring n. -/
def ringPut (n : Nat) (r : Ring) (s : State) : State := { s with ring := { rings := sset {} s.ring.rings n r } }

/-- Difference of positions modulo 2^32, R316. -/
def posDiff (a b : Nat) : Nat := (a + 2 ^ 32 - b % 2 ^ 32) % 2 ^ 32

/-- Entries unread. -/
def ringUnread (r : Ring) : Nat := posDiff r.w r.rd

/-- On-die depth, R314. -/
def ringDepth (r : Ring) : Nat := 16 * 2 ^ r.depth

/-- Capacity, R317. -/
def ringCap (r : Ring) : Nat := ringDepth r + (if r.spill then 1024 * 2 ^ r.spDepth else 0)

/-- The data source of a ring is a level: unread entries at least WMARK, and never with WMARK 0 (R328). -/
def ringData (r : Ring) : Bool := r.en && (0 < r.wmark : Bool) && (r.wmark ≤ ringUnread r : Bool)

/-- KMD instances signal the first unread entry of their PORTAL 2 ring (R451): an output of code 25 on the host port, with the
domain and the MSI-X vector. -/
def ringNotify (dom : Nat) (s : State) : State :=
  (presenters s dom).foldl (fun s' v =>
    match sget (false, 0) s'.mgt.notify (v * 4096 + dom), portOfVcs? s' v with
    | (true, vec), some p => emit (.link p 25 (dom * 8 + vec)) s'
    | _, _ => s') s

/-- Stores a ring and drives its data source. -/
def ringCommit (n : Nat) (r : Ring) (s : State) : State :=
  let s1 := icuInput n (ringData r) (ringPut n r s)
  if r.en && (r.portal == 2) && ringUnread (ringOf s n) == 0 && !(ringUnread r == 0) then ringNotify r.dom s1 else s1

/-- The idle timer starts now if IDLE is set, R322. -/
def timerStart (now : Nat) (r : Ring) : Ring :=
  if r.idle = 0 then { r with timer := 0 } else { r with timer := now + 1 }

/-- A push takes position W (R318, R320, R322, R324). -/
def ringPushE (now : Nat) (e : Line) (r : Ring) : Ring :=
  let p := r.w
  let onDie := posDiff p r.rel < ringDepth r
  let r1 := { r with
    ents := sset 0 r.ents p e
    bad := r.bad.filter (fun k => !(k == p))
    w := (p + 1) % 2 ^ 32
    spilled := if onDie then r.spilled else r.spilled ++ [p] }
  if (ringUnread r == 0) || r.fired then { timerStart now r1 with fired := false } else r1

/-- A device engine pushes a record (R82, R198, R508): none when the ring is full, not enabled, or has PORTAL 1 or 3. -/
def enginePush (n : Nat) (e : Line) (s : State) : Option State :=
  let r := ringOf s n
  if !r.en || r.portal = 1 || r.portal = 3 then none
  else if posDiff r.w r.rel = ringCap r then none
  else
    let r' := ringPushE s.time e r
    let s1 := countN 0x8001 none none 1 (ringCommit n r' s)
    some (if posDiff r.w r.rel < ringDepth r then s1 else countN 0x8003 none none 1 s1)

/-- 64 bytes of a record from fields placed at byte offsets. -/
def recLine (fs : List (Nat × Nat)) : Line := BitVec.ofNat 512 (fs.foldl (fun a p => a + at_ p.2 (8 * p.1)) 0)

/-! ### Sampling sources (R506-R508) -/

/-- Sampling source n (0 host, 1 Falgan). -/
def smpSrc (s : State) (n : Nat) : SmpSrc := if n = 0 then s.pmu.src0 else s.pmu.src1

/-- Replaces a sampling source. -/
def smpSrcPut (n : Nat) (x : SmpSrc) (s : State) : State :=
  if n = 0 then { s with pmu := { s.pmu with src0 := x } } else { s with pmu := { s.pmu with src1 := x } }

/-- A sample record is pushed, or counted as dropped (R508). -/
def smpPush (src ring : Nat) (e : Line) (s : State) : State :=
  match enginePush ring e s with
  | some s1 => s1
  | none =>
    let x := smpSrc s src
    countN 0xC002 none none 1 (smpSrcPut src { x with dropped := satAdd (2 ^ 32 - 1) x.dropped 1 } s)

end Sys2Proof.Machine
end

