-- ==== Sys2Proof/Machine/Erg.lean ====
section
/-!
DEFINITION. Machine/Erg.lean: the Erg central store (spec 04): accounts, admission, output queues, parking, deficit round
robin, mirror copies, and the records that wait for cells.
-/
namespace Sys2Proof.Machine

/-! ### Ports and tiles -/

/-- LANE_TILE_CFG of a tile. -/
def tileCfg (s : State) (t : Nat) : Word := sget 0 s.lane.tile t

/-- A TRL tile, R346. -/
def isTrlTile (s : State) (t : Nat) : Bool := bit (tileCfg s t) 63 && bit (tileCfg s t) 62

/-- Whether a tile's mode creates a sub-port, R343. -/
def subPortExists (s : State) (p : Nat) : Bool :=
  let m := fld (tileCfg s (p / 4)) 61 60
  (p < 96 : Bool) && bit (tileCfg s (p / 4)) 63 &&
    (if m = 0 then p % 4 == 0 else if m = 1 then p % 2 == 0 else true)

/-- Role of a port (R345): 0 disabled, 1 host, 2 device, 3 fabric, 4 analysis. -/
def portRole (s : State) (p : Nat) : Nat :=
  if subPortExists s p then fld (tileCfg s (p / 4)) (45 + 3 * (p % 4)) (43 + 3 * (p % 4)) else 0

/-- A TRL port is sub-port 0 of a TRL tile. -/
def isTrlPort (s : State) (p : Nat) : Bool := (p % 4 == 0) && isTrlTile s (p / 4)

/-- A CXL port. -/
def cxpOf (s : State) (p : Nat) : CxpPort := sget {} s.cxp.ports p

/-- Replaces a CXL port. -/
def cxpPut (p : Nat) (x : CxpPort) (s : State) : State :=
  { s with cxp := { s.cxp with ports := sset {} s.cxp.ports p x } }

/-- A TRL port, by tile. -/
def trlOf (s : State) (t : Nat) : TrlPort := sget {} s.trl.ports t

/-- Replaces a TRL port. -/
def trlPut (t : Nat) (x : TrlPort) (s : State) : State :=
  { s with trl := { s.trl with ports := sset {} s.trl.ports t x } }

/-- The port's link carries records: a CXL port that is UP, a TRL port that is ACTIVE. -/
def linkUp (s : State) (p : Nat) : Bool :=
  if isTrlPort s p then (trlOf s (p / 4)).st == 5 else (cxpOf s p).link == 2

/-! ### Accounts (R95-R98) -/

/-- No account: a request that entered with no item admitted before it. -/
def noAcct : Nat := 9999
def acctCaravan : Nat := 2000
def acctControl : Nat := 2001
def acctMirror : Nat := 2002

/-- The receive account of a port and class. -/
def acctKey (p c : Nat) : Nat := p * 8 + c

/-- An account. -/
def acctOf (s : State) (k : Nat) : Acct := sget {} s.erg.accts k

/-- Replaces an account. -/
def acctPut (k : Nat) (a : Acct) (s : State) : State :=
  { s with erg := { s.erg with accts := sset {} s.erg.accts k a } }

/-- F of R96: the shared pool less every draw. Cells held beyond a reserve that was decreased return as they are freed (R98). -/
def sharedFree (s : State) : Nat := s.erg.shared - (s.erg.accts.map (fun p => p.2.s + (p.2.r - p.2.res))).sum

/-- The α code of a class (R98): defaults 1/4 for SC0, 1 for SC1 and SC2, 1/2 for SC3-SC6, 1/8 for SC7. -/
def alphaDefault (c : Nat) : Nat := if c = 0 then 4 else if c ≤ 2 then 6 else if c ≤ 6 then 5 else 3

/-- The α code in force. -/
def alphaCode (s : State) (c : Nat) : Nat :=
  match sfind? s.erg.alpha c with | some v => v | none => alphaDefault c

/-- Whether n cells are at most α × F, for an α code (α = 2^(code - 6)). -/
def withinAlpha (s : State) (code n : Nat) : Bool := (n * 64 ≤ 2 ^ code * sharedFree s : Bool)

/-- The account that holds the reserve of an account: a TRL port's accounts share one (R101). -/
def reserveKey (s : State) (k : Nat) : Nat :=
  if k < 768 && isTrlPort s (k / 8) then 1000 + k / 8 else k

/-- An account takes k cells in one decision, all or none (R97); CARAVAN draws on its reserve only (R98). -/
def takeCells (key n : Nat) (s : State) : Option State :=
  if key = noAcct then some s else
  let a := acctOf s key
  let code := if key = acctControl then 4 else if key = acctMirror then alphaCode s 7 else alphaCode s (key % 8)
  if !(key == acctCaravan) && withinAlpha s code (a.s + n) then some (acctPut key { a with s := a.s + n } s)
  else
    let rk := reserveKey s key
    let b := acctOf s rk
    if b.r + n ≤ b.res then some (acctPut rk { b with r := b.r + n } s) else none

/-- Cells freed: the reserve is credited first (R97). -/
def giveCells (key n : Nat) (s : State) : State :=
  if key = noAcct then s else
  let rk := reserveKey s key
  let b := acctOf s rk
  let m := min n b.r
  let s1 := acctPut rk { b with r := b.r - m } s
  let a := acctOf s1 key
  acctPut key { a with s := a.s - (n - m) } s1

/-! ### Output queues (R104-R108) -/

/-- The queues of a port. -/
def pqOf (s : State) (p : Nat) : PortQ := sget {} s.erg.ports p

/-- Replaces the queues of a port. -/
def pqPut (p : Nat) (q : PortQ) (s : State) : State :=
  { s with erg := { s.erg with ports := sset {} s.erg.ports p q } }

/-- Length of a record in sixteenths of a cell, R105. -/
def recLen (r : OutRec) : Nat := ceilDiv r.bytes 16

/-- Length of a class queue in sixteenths of a cell. -/
def queueLen (q : PortQ) (c : Nat) : Nat := ((q.q.filter (fun r => r.cls == c)).map recLen).sum

/-- A queue that grows by n sixteenths stays within G + α × F cells (G 32 for requests, 0 for SC7). -/
def withinQueue (s : State) (g c n : Nat) : Bool :=
  (n ≤ g * 16 : Bool) || ((n - g * 16) * 64 ≤ 16 * (2 ^ alphaCode s c * sharedFree s) : Bool)

/-- Sub-queues of a port: the class and domain pairs of SC3-SC6 with records waiting. -/
def subQueues (q : PortQ) : List (Nat × Nat) :=
  ((q.q.filter (fun r => (3 ≤ r.cls : Bool) && (r.cls ≤ 6 : Bool))).map (fun r => (r.cls, r.dom))).eraseDups

/-- Sub-queue heads in use (R106). -/
def headsUsed (s : State) : Nat := (s.erg.ports.map (fun p => (subQueues p.2).length)).sum

/-- A record needs a sub-queue head and none is free (R106). -/
def headBlocked (s : State) (q : PortQ) (r : OutRec) : Bool :=
  (3 ≤ r.cls : Bool) && (r.cls ≤ 6 : Bool) && !((subQueues q).contains (r.cls, r.dom)) &&
    (131072 ≤ headsUsed s : Bool)

/-- The class of a domain's records on a port: its profile's, or the old class while that sub-queue holds records
(R104, R107). -/
def domClass (s : State) (p dom : Nat) : Nat :=
  let c := 3 + (sget {} s.erg.prof (sget {} s.dom.doms dom).qos).cls
  match ((pqOf s p).q ++ (pqOf s p).parked).find? (fun r => (r.dom == dom) && (3 ≤ r.cls : Bool) && (r.cls ≤ 6 : Bool)) with
  | some r => r.cls
  | none => c

/-- A record joins its port's queue; a request that would pass the limit, or that waits behind a parked one, or that
lacks a sub-queue head, is parked (R105, R106). -/
def enqueue (p : Nat) (isReq : Bool) (r : OutRec) (s : State) : State :=
  let q := pqOf s p
  if (isReq && ((q.parked.any (fun x => x.cls == r.cls)) ||
      !(withinQueue s 32 r.cls (queueLen q r.cls + recLen r)))) || headBlocked s q r then
    countDP 0x0003 r.dom p (pqPut p { q with parked := q.parked ++ [r] } s)
  else pqPut p { q with q := q.q ++ [r] } s

/-- A record. -/
def mkRec (id cls dom bytes acct cells : Nat) (needs : Option Nat) (item : Nat) (poison : Bool) (smp : Nat) (m : Msg) :
    OutRec :=
  { id := id, cls := cls, dom := dom, bytes := bytes, acct := acct, cells := cells, needs := needs, item := item,
    poison := poison, smp := smp, msg := m }

/-! ### Items (R87, R93, R94) and mirror copies (R113-R116) -/

/-- Applies f to an item. -/
def itemUpd (id : Nat) (f : Item → Item) (s : State) : State :=
  { s with erg := { s.erg with items := s.erg.items.map (fun i => if i.id = id then f i else i) } }

/-- Removes an item. -/
def itemDel (id : Nat) (s : State) : State :=
  { s with erg := { s.erg with items := s.erg.items.filter (fun i => !(i.id == id)) } }

/-- Replaces a mirror session. -/
def mirrorPut (n : Nat) (m : Mirror) (s : State) : State :=
  { s with erg := { s.erg with mirrors := sset {} s.erg.mirrors n m } }

/-- Mirror copies of an item are dropped and counted (R115). -/
def dropCopies (item : Nat) (s : State) : State :=
  s.erg.ports.foldl (fun s' p =>
    let q := pqOf s' p.1
    let gone := q.q.filter (fun r => (r.cls == 7) && (r.item == item))
    gone.foldl (fun s'' r => match r.msg with
      | .mirror n _ _ _ _ _ _ _ =>
        let m := sget {} s''.erg.mirrors n
        countP 0x0006 p.1 (mirrorPut n { m with drop := satAdd (2 ^ 48 - 1) m.drop 1 } s'')
      | _ => s'')
      (pqPut p.1 { q with q := q.q.filter (fun r => !((r.cls == 7) && (r.item == item))) } s')) s

/-- A record of an item is released (R94): with the last one the cells are freed, unless mirror copies still reference
the item, whose charge then moves to MIRROR or which are dropped (R115). -/
def releaseItem (id : Nat) (s : State) : State :=
  match s.erg.items.find? (fun i => i.id == id) with
  | none => s
  | some i =>
    if 1 < i.refs then itemUpd id (fun x => { x with refs := x.refs - 1 }) s
    else if i.mirrors = 0 then giveCells i.acct i.cells (itemDel id s)
    else
      let s1 := giveCells i.acct i.cells s
      match takeCells acctMirror i.cells s1 with
      | some s2 => itemUpd id (fun x => { x with refs := 0, acct := acctMirror }) s2
      | none => itemDel id (dropCopies id s1)

/-- A mirror copy of an item is released. -/
def releaseCopy (id : Nat) (s : State) : State :=
  match s.erg.items.find? (fun i => i.id == id) with
  | none => s
  | some i =>
    if i.refs = 0 && i.mirrors ≤ 1 then giveCells i.acct i.cells (itemDel id s)
    else itemUpd id (fun x => { x with mirrors := x.mirrors - 1 }) s

/-- One session's copy of a record (R114): placed in SC7 of DEST within α × F, or dropped; SEQ counts either way. -/
def copyTo (n : Nat) (m : Mirror) (item dir port cls msgBit dom len addr : Nat) (s : State) : State :=
  let seq := m.seq
  let snap := min len (64 * 2 ^ m.snap)
  let r := mkRec s.next 7 0xFFFF (32 + snap) noAcct 0 none item false 0
    (.mirror n seq dir port dom len addr (cls + at_ msgBit 3))
  let q := pqOf s m.dest
  let s0 := takeNext s
  if withinQueue s 0 7 (queueLen q 7 + recLen r) then
    let s1 := pqPut m.dest { q with q := q.q ++ [r] } s0
    itemUpd item (fun x => { x with mirrors := x.mirrors + 1 })
      (mirrorPut n { m with seq := (seq + 1) % 2 ^ 32 } s1)
  else countP 0x0006 m.dest
    (mirrorPut n { m with seq := (seq + 1) % 2 ^ 32, drop := satAdd (2 ^ 48 - 1) m.drop 1 } s0)

/-- Port sessions copy a record received (dir 1) or transmitted (dir 2) on a port, by message class (R113). -/
def mirrorPort (port dir item cls msgBit dom len addr : Nat) (s : State) : State :=
  s.erg.mirrors.foldl (fun s' p =>
    let m := sget {} s'.erg.mirrors p.1
    if m.en && !m.flow && (m.src == port) && (m.dir / dir % 2 == 1) && (m.msgs / 2 ^ msgBit % 2 == 1)
    then copyTo p.1 m item dir port cls msgBit dom len addr s' else s') s

/-- Flow sessions copy a host request at the binding stage (dir 1) or a response (dir 2), by domain, DA and class. -/
def mirrorFlow (port dir item cls msgBit dom len da : Nat) (s : State) : State :=
  s.erg.mirrors.foldl (fun s' p =>
    let m := sget {} s'.erg.mirrors p.1
    if m.en && m.flow && (m.dom == dom) && (m.dir / dir % 2 == 1) && (m.msgs / 2 ^ msgBit % 2 == 1)
        && (m.daStart ≤ da / 64 : Bool) && (da / 64 ≤ m.daLimit : Bool)
    then copyTo p.1 m item dir port cls msgBit dom len da s' else s') s

/-- Message class bit of an output record, as in ERG_MIRROR.MSGS. -/
def Msg.bitOf : Msg → Nat
  | .devRd _ _ => 0 | .devWr _ _ _ _ _ => 1 | .cmp _ _ => 2 | .memData _ _ _ _ => 3 | .bisnp _ _ _ => 4
  | .biConflictAck _ => 2 | .cplD _ _ _ => 6 | .completerAbort _ => 6 | .unsupported _ => 6 | .malformed _ => 6
  | .passthrough _ _ => 6 | .io _ _ => 6 | .pbr _ _ => 6 | .inter _ => 4 | .mirror _ _ _ _ _ _ _ _ => 6
  | .ctl _ _ => 6

/-! ### Records built by the device (R93, R110) -/

/-- A record is built and queued. -/
def sendRec (p cls dom bytes acct : Nat) (needs : Option Nat) (item : Nat) (isReq : Bool) (poison : Bool) (smp : Nat)
    (m : Msg) (s : State) : State :=
  enqueue p isReq (mkRec s.next cls dom bytes acct 0 needs item poison smp m) (takeNext s)

/-- Cells of a built response: one, R93. -/
def respCells : Nat := 1

/-- A response is built in the account that holds its request (R110); without a cell it waits where it is. -/
def sendResp (p cls dom bytes acct item : Nat) (poison : Bool) (smp : Nat) (m : Msg) (s : State) : State :=
  let r := mkRec s.next cls dom bytes acct respCells none item poison smp m
  match takeCells acct respCells (takeNext s) with
  | some s1 => enqueue p false r s1
  | none => { takeNext s with erg := { s.erg with waits := s.erg.waits ++ [{ acct := acct, port := p, out := r }] } }

/-- Responses that waited for cells are built, in order, as cells allow. -/
def serveWaits (s : State) : State :=
  s.erg.waits.foldl (fun s' w =>
    match takeCells w.acct respCells s' with
    | some s1 => enqueue w.port false w.out
        { s1 with erg := { s1.erg with waits := s1.erg.waits.filter (fun x => !(x.out.id == w.out.id)) } }
    | none => s') s

/-- An internal record (BISnp, control) is charged to CONTROL when it can be, R98. -/
def sendCtl (p cls dom bytes : Nat) (needs : Option Nat) (m : Msg) (s : State) : State :=
  let r := mkRec s.next cls dom bytes acctControl 1 needs 0 false 0 m
  match takeCells acctControl 1 (takeNext s) with
  | some s1 => enqueue p false r s1
  | none => { takeNext s with erg := { s.erg with waits := s.erg.waits ++ [{ acct := acctControl, port := p, out := r }] } }

/-! ### Scheduling (R108) -/

/-- Deficit round robin over members: from the position, the first visited member whose head fits its deficit. A visit
adds the quantum; a member with nothing to send has deficit 0. Answers the member, the position, the deficits. -/
def drr (members : List Nat) (size quantum : Nat → Nat) : Nat → Nat → SMap Nat → Option (Nat × SMap Nat)
  | 0, _, _ => none
  | fuel + 1, pos, df =>
    if members.contains pos && (size pos ≤ sget 0 df pos : Bool) then some (pos, df)
    else
      let nxt := match members.find? (fun m => (pos < m : Bool)) with
        | some m => some m
        | none => members.head?
      match nxt with
      | none => none
      | some m => drr members size quantum fuel m (sset 0 df m (sget 0 df m + quantum m))

/-- Insertion of a number into a rising list without repeats. -/
def insNat (k : Nat) : List Nat → List Nat
  | [] => [k]
  | a :: t => if k < a then k :: a :: t else if k = a then a :: t else a :: insNat k t

/-- Members in rising order. -/
def sortNat (l : List Nat) : List Nat := l.foldl (fun a k => insNat k a) []

/-- Head record of a domain's sub-queue. -/
def subHead (q : List OutRec) (c d : Nat) : Option OutRec := q.find? (fun r => (r.cls == c) && (r.dom == d))

/-- Quantum of a domain, in bytes. -/
def domQuantum (s : State) (d : Nat) : Nat :=
  if d < 4096 then 64 * (sget {} s.erg.prof (sget {} s.dom.doms d).qos).quantum else 64 * 0x10

/-- Quantum of a class on a port, in bytes. -/
def classQuantum (s : State) (p c : Nat) : Nat :=
  let q := sget {} s.erg.pqos p
  64 * (if c = 3 then q.q3 else if c = 4 then q.q4 else if c = 5 then q.q5 else q.q6)

/-- The domain round of a class: the record to send, the new position and deficits. -/
def pickDomain (s : State) (pq : PortQ) (q : List OutRec) (c : Nat) : Option (OutRec × Nat × SMap Nat) :=
  let ms := sortNat ((q.filter (fun r => r.cls == c)).map (fun r => r.dom))
  let sz := fun d => match subHead q c d with | some r => r.bytes | none => 0
  let df := pq.ddef.filterMap (fun e => if e.1 / 65536 = c && ms.contains (e.1 % 65536) then some (e.1 % 65536, e.2) else none)
  match drr ms sz (domQuantum s) (70 * (ms.length + 1)) (sget 0 pq.dpos c) df with
  | none => none
  | some (d, df') => (subHead q c d).map (fun r => (r, d, sset 0 df' d (sget 0 df' d - r.bytes)))

/-- The record a port sends next, among records that can take their backing (R108, R110), and the port's queues with the
scheduling state after it. -/
def pickRecord (s : State) (p : Nat) : Option (OutRec × PortQ) :=
  let pq := pqOf s p
  let ok := fun (r : OutRec) => match r.needs with | some k => (takeCells k 1 s).isSome | none => true
  let q := pq.q.filter ok
  let strict := fun c => q.find? (fun r => r.cls == c)
  let only7 := portRole s p == 4
  match (if only7 then none else (strict 0).orElse (fun _ => (strict 1).orElse (fun _ => strict 2))) with
  | some r => some (r, pq)
  | none =>
    let cs := if only7 then [] else [3, 4, 5, 6].filter (fun c => q.any (fun r => r.cls == c))
    let heads := cs.filterMap (fun c => (pickDomain s pq q c).map (fun x => (c, x)))
    let sz := fun c => match heads.find? (fun h => h.1 == c) with | some h => h.2.1.bytes | none => 0
    let df := pq.cdef.filter (fun e => cs.contains e.1)
    match drr cs sz (classQuantum s p) (70 * 5) pq.cpos df with
    | some (c, df') =>
      (heads.find? (fun h => h.1 == c)).map (fun h =>
        let others := pq.ddef.filter (fun e => !(e.1 / 65536 == c))
        let mine := h.2.2.2.map (fun e => (c * 65536 + e.1, e.2))
        (h.2.1, { pq with cpos := c, cdef := sset 0 df' c (sget 0 df' c - h.2.1.bytes)
                          dpos := sset 0 pq.dpos c h.2.2.1
                          ddef := mine.foldl (fun m e => sset 0 m e.1 e.2) others }))
    | none =>
      if pq.q.any (fun r => !(r.cls == 7)) && !only7 then none
      else (strict 7).map (fun r => (r, pq))

end Sys2Proof.Machine
end

