-- ==== Sys2Proof/Machine/Gate.lean ====
section
/-!
DEFINITION. Machine/Gate.lean: the Gate (spec 03): lists of rules, fixed and locked regions, the evaluation of R70, the
refusal of R82.
-/
namespace Sys2Proof.Machine

/-- Rule slot n. -/
def ruleOf (s : State) (n : Nat) : Rule := sget {} s.gate.rules n

/-- Replaces a rule slot. -/
def rulePut (n : Nat) (r : Rule) (s : State) : State :=
  { s with gate := { s.gate with rules := sset {} s.gate.rules n r } }

/-- Key of the DAS list among the heads. -/
def dasList : Nat := 4096

/-- A list head. -/
def headOf (s : State) (l : Nat) : GHead := sget {} s.gate.heads l

/-- Replaces a list head. -/
def headPut (l : Nat) (h : GHead) (s : State) : State :=
  { s with gate := { s.gate with heads := sset {} s.gate.heads l h } }

/-- The slots of a chain, following NEXT. -/
def chainSlots (s : State) : Nat → Nat → List Nat
  | 0, _ => []
  | n + 1, k => k :: (if (ruleOf s k).last then [] else chainSlots s n (ruleOf s k).next)

/-- The slots of a list, in list order (R68, R70). -/
def listSlots (s : State) (l : Nat) : List Nat := chainSlots s (headOf s l).count (headOf s l).head

/-- The slots of a staged chain (R76): at most 256. -/
def stagedSlots (s : State) (k : Nat) : List Nat := chainSlots s 256 k

/-- PERM of a rule at a level. -/
def permOf (r : Rule) : Priv → Nat
  | .p0 => r.p0 | .p1 => r.p1 | .p2 => r.p2 | .p3 => r.p3

/-- A PERM field includes a bit: R is bit 2, W bit 1, X bit 0 (R66). -/
def permHas (v : Nat) : Perm → Bool
  | .r => v / 4 % 2 == 1 | .w => v / 2 % 2 == 1 | .x => v % 2 == 1

/-- A rule covers a line (R67); the list already fixes the space and the domain. -/
def covers (r : Rule) (line : Nat) : Bool := (r.start ≤ line : Bool) && (line ≤ r.limit : Bool)

/-- An enabled locked region holds a line (R73). -/
def lockedLine (s : State) (line : Nat) : Bool :=
  s.gate.locks.any (fun p => p.2.en && (p.2.base ≤ line : Bool) && (line ≤ p.2.limit : Bool))

/-- The fixed rule of a DAS line (R72): which bits a level has; none outside the fixed regions. -/
def fixedRule (s : State) (line : Nat) (l : Priv) : Option Nat :=
  if lockedLine s line && (match l with | .p1 => true | .p2 => true | _ => false) then some 0
  else if 0x24000000 ≤ line ∧ line ≤ 0x2411FFFF then
    some (match l with | .p0 => 4 | .p1 => 4 | .p2 => 4 | .p3 => 0)
  else if 0x24200000 ≤ line ∧ line ≤ 0x2428FFFF then
    some (match l with | .p0 => 4 | .p1 => 4 | .p2 => 0 | .p3 => 0)
  else if 0x24290000 ≤ line ∧ line ≤ 0x24290FFF then
    some (match l with | .p0 => 6 | .p1 => 6 | .p2 => 0 | .p3 => 0)
  else if 0x010000000000 ≤ line ∧ line ≤ 0x013FFFFFFFFF then
    some (match l with | .p0 => 6 | .p1 => 0 | .p2 => 0 | .p3 => 0)
  else if lockedLine s line then
    some (match l with | .p0 => 6 | .p1 => 0 | .p2 => 0 | .p3 => 0)
  else none

/-- The verdict on one line: allowed, or refused by a deciding slot (a slot number, or a code of R82's table), or by a
locked region. -/
inductive Verdict where
  | allow
  | deny (slot : Nat)
  | locked
  deriving DecidableEq, Repr

/-- The first rule of a list that covers a line decides (R70). -/
def listVerdict (s : State) (l line : Nat) (lv : Priv) (p : Perm) (dflt : Verdict) : Verdict :=
  match (listSlots s l).find? (fun k => covers (ruleOf s k) line) with
  | some k => if permHas (permOf (ruleOf s k) lv) p then .allow else .deny k
  | none => dflt

/-- R70 for a DAS line. -/
def dasVerdict (s : State) (line : Nat) (lv : Priv) (p : Perm) : Verdict :=
  match fixedRule s line lv with
  | some v => if permHas v p then .allow else if lockedLine s line then .locked else .deny 0xFFFF
  | none => listVerdict s dasList line lv p (match lv with | .p2 => .deny 0xFFFE | _ => .allow)

/-- The domain's span, in units of 256 MiB (R30). -/
def spanOf (d : Domain) : Nat := d.privSize + d.scohSize + d.sncoSize

/-- A domain. -/
def domOf (s : State) (d : Nat) : Domain := sget {} s.dom.doms d

/-- Replaces a domain. -/
def domPut (d : Nat) (x : Domain) (s : State) : State :=
  { s with dom := { s.dom with doms := sset {} s.dom.doms d x } }

/-- The bytes of 256 MiB. -/
def unit256 : Nat := 0x10000000

/-- R70 for a DA line of a domain. -/
def daVerdict (s : State) (dom line : Nat) (lv : Priv) (p : Perm) (aperture : Bool) : Verdict :=
  if aperture && (!(domOf s dom).valid || (spanOf (domOf s dom) * unit256 ≤ line : Bool)) then .deny 0xFFFD
  else listVerdict s dom line lv p .allow

/-- The region of a DA, by unit of 256 MiB (R30). -/
def regionOf (d : Domain) (u : Nat) : Option Mode :=
  if u < d.privSize then some .priv
  else if u < d.privSize + d.scohSize then some .scoh
  else if u < spanOf d then some .snco
  else none

/-- The violation record of R82. -/
def violRec (s : State) (addr dom priv kind slot source len : Nat) : Line :=
  recLine [(0, s.time), (8, addr), (0x10, dom), (0x12, priv), (0x13, kind), (0x14, slot), (0x16, source), (0x18, len),
    (0x1C, s.gate.gen)]

/-- A refused access is counted, raised and recorded (R82). -/
def gateRefuse (addr dom : Nat) (lv : Priv) (debug : Bool) (kind slot source len : Nat) (s : State) : State :=
  let s1 := raiseX fGateViolation dom 0xFF false []
    (countN 0x2001 (if dom = 0xFFFF then none else some dom) none 1 s)
  if regFld s1 aGateViolCfg 16 16 = 0 then s1
  else match enginePush (regFld s1 aGateViolCfg 9 0)
      (violRec s1 addr dom (lv.code + (if debug then 4 else 0)) kind slot source len) s1 with
    | some s2 => s2
    | none => { s1 with gate := { s1.gate with violDrop := satAdd (2 ^ 48 - 1) s1.gate.violDrop 1 } }

/-- The slot code of a verdict in the violation record. -/
def Verdict.slot : Verdict → Nat
  | .allow => 0 | .deny k => k | .locked => 0xFFFF

/-- KIND of a violation record: 5 in a locked region, else as the access asks (R82). -/
def Verdict.kind (v : Verdict) (k : Nat) : Nat := match v with | .locked => 5 | _ => k

/-- The lines of an access of n bytes at address a. -/
def linesOf (a n : Nat) : List Nat :=
  (List.range ((a + n + 63) / 64 - a / 64)).map (fun i => (a / 64 + i) * 64)

/-- A DAS access is checked line by line; the first line refused, with its verdict (R80, R81). -/
def dasCheck (s : State) (a n : Nat) (lv : Priv) (p : Perm) : Option (Nat × Verdict) :=
  (linesOf a n).findSome? (fun l =>
    match dasVerdict s l lv p with
    | .allow => none
    | v => some (l, v))

/-- A DA access is checked line by line. -/
def daCheck (s : State) (dom a n : Nat) (lv : Priv) (p : Perm) (aperture : Bool) : Option (Nat × Verdict) :=
  (linesOf a n).findSome? (fun l =>
    match daVerdict s dom l lv p aperture with
    | .allow => none
    | v => some (l, v))

/-- Rules in pinned lists (GATE_STATUS.PINNED). -/
def pinnedRules (s : State) : Nat := ((s.gate.heads.filter (fun p => p.2.pin)).map (fun p => p.2.count)).sum

/-- Rules in a set of lists. -/
def rulesIn (s : State) (ls : List Nat) : Nat := (ls.map (fun l => (headOf s l).count)).sum

/-- A list is loaded into the rule cache of 4,096 rules (R83): unpinned lists are evicted, oldest first, to make room. -/
def evictFor (s : State) (need : Nat) : Nat → List Nat → List Nat
  | 0, ls => ls
  | fuel + 1, ls =>
    if rulesIn s ls + need ≤ 4096 then ls
    else match ls.find? (fun l => !(headOf s l).pin) with
      | some v => evictFor s need fuel (ls.filter (fun l => !(l == v)))
      | none => ls

/-- The rule cache after a load. -/
def cacheLoad (l : Nat) (s : State) : State :=
  { s with gate := { s.gate with
    cached := evictFor s (headOf s l).count s.gate.cached.length (s.gate.cached.filter (fun k => !(k == l))) ++ [l] } }

/-- A list is in the cache; a list without rules needs none. -/
def cacheHas (s : State) (l : Nat) : Bool := s.gate.cached.contains l || (headOf s l).count == 0

end Sys2Proof.Machine
end

