-- ==== Sys2Proof/Machine/CoreOps.lean ====
section
/-!
DEFINITION. Machine/CoreOps.lean: what every Falgan instruction shares (spec 09): the local and shared memories, retirement,
taking an exception and returning from one, the core leaving service, and the result slots (spec 10).
-/
namespace Sys2Proof.Machine

/-! ### Memories (R242, R249, R251) -/

/-- The window of core n. -/
def coreWin (n : Nat) : Nat := 0x2C000000 + 0x100000 * n

/-- Where a local DAS address of core n is kept: instruction memory, data memory. -/
def localAddr (n a : Nat) : Option Nat :=
  if a ≤ 0x1FFFF then some (coreWin n + a)
  else if 0x100000 ≤ a ∧ a ≤ 0x13FFFF then some (coreWin n + 0x40000 + (a - 0x100000))
  else none

/-- Where a core-window, shared-memory or local address is kept. -/
def memAddr (n a : Nat) : Option Nat :=
  match localAddr n a with
  | some x => some x
  | none =>
    if 0x10000000 ≤ a ∧ a ≤ 0x10FFFFFF then some a
    else if 0x2C000000 ≤ a ∧ a < 0x30000000 ∧ (a % 0x100000 < 0x20000 ∨ (0x40000 ≤ a % 0x100000 ∧ a % 0x100000 < 0x80000))
    then some a
    else none

/-- Reads n bytes of the kept memories, as a number. -/
def memNat (s : State) (a n : Nat) : Nat := leNat (memRead s.flg.mem a n)

/-- Writes n bytes of a number. -/
def memPut (a n v : Nat) (s : State) : State :=
  { s with flg := { s.flg with mem := memWrite s.flg.mem a (leBytes n v) } }

/-- An 8-byte word of a core's local data memory, by DAS address. -/
def ldWord (s : State) (n a : Nat) : Word := word (memNat s (coreWin n + 0x40000 + (a - 0x100000)) 8)

/-- A whole word is written: an error it carried is gone (R266). -/
def memHeal (a : Nat) (s : State) : State := { s with flg := { s.flg with bad := s.flg.bad.filter (fun k => !(k == a)) } }

/-- Writes an 8-byte word of a core's local data memory. -/
def stWord (n a : Nat) (v : Word) (s : State) : State :=
  let x := coreWin n + 0x40000 + (a - 0x100000)
  memPut x 8 v.toNat (memHeal x s)

/-- n words of local data memory from a. -/
def ldWords (s : State) (n a k : Nat) : List Word := (List.range k).map (fun i => ldWord s n (a + 8 * i))

/-- Writes words of local data memory from a. -/
def stWords (n a : Nat) : List Word → State → State
  | [], s => s
  | w :: t, s => stWords n (a + 8) t (stWord n a w s)

/-- An address range lies wholly within local data memory. -/
def inLocalData (a n : Nat) : Bool := (0x100000 ≤ a : Bool) && (a + n ≤ 0x140000 : Bool)

/-- A kept 64-bit word carries an uncorrectable error (R266). -/
def badWord (s : State) (a : Nat) : Bool := s.flg.bad.contains (a / 8 * 8)

/-! ### Control registers -/

/-- STATUS as a word, R255. -/
def statusWord (c : Core) : Word :=
  word (at_ c.runpri 16 + at_ c.depth 8 + at_ (b2n c.ie) 1 + b2n c.p2)

/-- Address of entry frame k of a core, R275. -/
def frameAddr (k : Nat) : Nat := 0x103F00 + 32 * k

/-! ### Leaving service (R248, R329, R334) -/

/-- The sources a core has claimed return to PENDING, and its stack empties (R329). -/
def dropClaims (n : Nat) (s : State) : State :=
  let s1 := s.icu.srcs.foldl (fun s' p =>
    let x := srcOf s' p.1
    if (x.claimer == n) && (match x.st with | .active => true | .activePending => true | _ => false)
    then srcPut p.1 { x with st := .pending } s' else s') s
  { s1 with icu := { s1.icu with claims := sset [] s1.icu.claims n [] } }

/-- A core enters RESET, HALTED or FAULTED: its wait ends without retiring, a status not yet written is lost (R248). -/
def leaveService (n : Nat) (st : CState) (s : State) : State :=
  let c := coreOf s n
  let gone := fun (l : List Nat) => l.map (fun k => if k = n then 65 else k)
  let s := { s with
    gate := { s.gate with gsyncs := gone s.gate.gsyncs }
    dlr := { s.dlr with msyncs := gone s.dlr.msyncs } }
  strandScan (dropClaims n (corePut n { c with st := st, busy := .none, stores := [], ask := none, statPc := c.pc, smp := none } s))

/-- The core leaves: in RESET its registers take their reset values, and a START of the same store follows (R246, R280). -/
def left (n : Nat) (st : CState) (start : Bool) (s : State) : State :=
  let s1 := leaveService n st s
  if st = .reset then corePut n (if start then { st := .run } else {}) s1 else s1

/-- Stores already issued complete before the core leaves RUN (R248). -/
def depart (n : Nat) (st : CState) (start : Bool) (s : State) : State :=
  let c := coreOf s n
  if c.stores.isEmpty then left n st start s else corePut n { c with busy := .leave st start, ask := none } s

/-- An instruction boundary: a RESET or HALTREQ that waits for it acts (R248, R278). -/
def boundary (n : Nat) (s : State) : State := match (coreOf s n).ask with | some a => depart n a.1 a.2 s | none => s

/-- A RESET or HALTREQ of a core in RUN: at the next boundary. An FX operation in progress is cut, and its status lost (R248). -/
def askLeave (n : Nat) (st : CState) (start : Bool) (s : State) : State :=
  let c := coreOf s n
  match c.busy with
  | .leave .halted _ => depart n st start s
  | .leave _ _ => s
  | .load _ _ _ | .gsync _ | .msync _ | .fence =>
    if decide (st = .halted) && c.ask.isSome then s else corePut n { c with ask := some (st, start) } s
  | _ => depart n st start s

/-! ### Interrupts presented to a core (R278, R331) and instruction samples (R506-R509) -/

/-- The source a core would be interrupted by: PENDING, enabled, effective target this core, the highest priority, the lowest
number among equals (R331). -/
def bestSource (s : State) (n : Nat) : Option (Nat × Nat) :=
  s.icu.srcs.foldl (fun b p =>
    let x := p.2
    if decide (x.st = .pending) && x.en && effTarget s x == some n then
      match b with
      | some (q : Nat × Nat) => if q.2 < x.prio then some (p.1, x.prio) else some q
      | none => some (p.1, x.prio)
    else b) none

/-- A source is deliverable to a core: its priority exceeds THRESH and RUNPRI. -/
def deliverable (s : State) (n : Nat) : Option (Nat × Nat) :=
  match bestSource s n with
  | some p => if (coreOf s n).thresh < p.2 ∧ (coreOf s n).runpri < p.2 then some p else none
  | none => none

/-- The core takes an interrupt at this boundary (R278). -/
def intDue (s : State) (n : Nat) : Bool :=
  (coreOf s n).ie && ((coreOf s n).depth < 8 : Bool) && (deliverable s n).isSome

/-- The record of an instruction sample (R509). -/
def csmpRec (n : Nat) (x : CSmp) (exc int : Bool) (lat st cause : Nat) : Line :=
  recLine [(0, x.time), (8, 2), (9, n), (0xA, b2n x.mode), (0xB, b2n exc + at_ (b2n int) 1), (0xC, x.insn), (0x10, x.pc),
    (0x18, x.addr), (0x20, min lat (2 ^ 32 - 1)), (0x24, st), (0x25, cause), (0x2C, x.seq)]

/-- An instruction's sample ends at its retirement (no cause), or at its exception entry. -/
def csmpEnd (n : Nat) (cause : Option Nat) (s : State) : State :=
  let c := coreOf s n
  match c.smp with
  | none => s
  | some x =>
    let cls := x.insn / 2 ^ 27
    let st := if cause.isNone && 28 ≤ cls && cls ≤ 30 then (gReg c (x.insn / 2 ^ 21 % 64)).toNat % 256 else 0
    smpPush 1 x.ring (csmpRec n x cause.isSome (cause.isNone && intDue s n) (s.time - x.time) st (cause.getD 0))
      (corePut n { c with smp := none } s)

/-- An instruction starts: it may be selected for a sample (R506). -/
def csmpStart (n insn addr : Nat) (s : State) : State :=
  let x := s.pmu.src1
  if !x.en || x.cores / 2 ^ n % 2 = 0 then s
  else
    let s1 := drawFree s
    if x.rate ≠ 0 && !(Config.freeBool s.free (2 ^ x.rate)) then s1
    else
      let c := coreOf s1 n
      let m : CSmp := { ring := x.ring, seq := x.seq, time := s.time, mode := c.p2, insn := insn, pc := c.pc, addr := addr }
      smpSrcPut 1 { x with seq := (x.seq + 1) % 2 ^ 32 } (corePut n { c with smp := some m } s1)

/-! ### Exceptions (R273-R277) -/

/-- Words 0 and 1 of FLG_CORE_STAT (R280). -/
def coreStat (c : Core) : Word × Word :=
  (word (at_ c.st.code 61 + at_ (b2n c.p2) 60 + (match c.st with | .reset => 0 | _ => c.statPc / 4 * 4)),
   word (at_ c.fdetail 8 + c.fcode))

/-- An entry with STATUS.DEPTH = 8 faults the core (R277). -/
def coreFault (n code detail : Nat) (s : State) : State :=
  let s1 := leaveService n .faulted s
  let c := { coreOf s1 n with fcode := code, fdetail := detail }
  let s2 := corePut n c s1
  raiseX fFlgCoreFault 0xFFFF 0xFF false [(coreStat c).1, (coreStat c).2] s2

/-- Taking an exception or an interrupt (R276): the frame is written, the depth rises, the core runs at P1 with IE 0 at
TVEC, or at TVEC + 0x100 for an interrupt. -/
def takeEntry (n : Nat) (int : Bool) (code detail ret eaddr : Nat) (s : State) : State :=
  let c := coreOf s n
  if 8 ≤ c.depth then coreFault n code detail s
  else
    let f := frameAddr c.depth
    let s1 := stWords n f [word (ret / 4 * 4), word (at_ (b2n c.ie) 1 + b2n c.p2),
      word (at_ (b2n int) 63 + at_ detail 8 + code), word (eaddr % 2 ^ 48)] s
    boundary n (countP 0x7002 n (corePut n { c with
      depth := c.depth + 1, p2 := false, ie := false, busy := .none,
      pc := if int then c.tvec + 0x100 else c.tvec } s1))

/-- An exception of the instruction at PC (R273). -/
def except (n code detail eaddr : Nat) (s : State) : State :=
  takeEntry n false code detail (coreOf s n).pc eaddr (csmpEnd n (some code) s)

/-- The return from an entry (R275): DEPTH falls, and PC, MODE and IE come from the frame. -/
def takeReturn (n : Nat) (s : State) : State :=
  let c := coreOf s n
  let f := frameAddr (c.depth - 1)
  let sv := ldWord s n (f + 8)
  corePut n { c with depth := c.depth - 1, pc := fld (ldWord s n f) 47 2 * 4, p2 := bit sv 0, ie := bit sv 1 } s

/-! ### Retirement (R258, R500) -/

/-- The instruction retires: PC moves on, STEPS counts it. -/
def retireAt (n pc : Nat) (s : State) : State :=
  let c := coreOf s n
  boundary n (csmpEnd n none (countP 0x7001 n (corePut n { c with pc := pc, steps := c.steps + 1, busy := .none } s)))

/-- The instruction retires and the next one follows it. -/
def retire (n : Nat) (s : State) : State := retireAt n ((coreOf s n).pc + 4) s

/-- The instruction writes gd and retires. -/
def retireWith (n gd : Nat) (v : Word) (s : State) : State := retire n (corePut n (gSet (coreOf s n) gd v) s)

/-- A status is returned in gd. -/
def retireStatus (n gd : Nat) (st : Status) (s : State) : State := retireWith n gd (word st.code) s

/-! ### Result slots (R285-R288) -/

/-- Slot n. -/
def slotOf (s : State) (n : Nat) : Slot := sget {} s.flg.slots n

/-- Replaces slot n. -/
def slotPut (n : Nat) (x : Slot) (s : State) : State :=
  { s with flg := { s.flg with slots := sset {} s.flg.slots n x } }

/-- A posting form accepted: the slot becomes PENDING (R287). -/
def slotTake (n core op : Nat) (echo : Word) (s : State) : State :=
  let x := slotOf s n
  slotPut n {
    st := 1, core := core, op := op, status := .notReady, seq := (x.seq + 1) % 2 ^ 32, echo := echo,
    detail := 0, time := 0, data := [] } s

/-- An outcome is posted in one step (R287); slot 4096 stands for a move that has none. -/
def slotPost (n : Nat) (st : Status) (detail : Word) (s : State) : State :=
  if 4096 ≤ n then s else
  let x := slotOf s n
  if x.st = 1 then slotPut n { x with st := 2, status := st, detail := detail, time := s.time, data := [] } s else s

end Sys2Proof.Machine
end

