-- ==== Sys2Proof/Machine/Answer.lean ====
section
/-!
DEFINITION. Machine/Answer.lean: what a requester receives when its request ends (R22, R23, R43, R81, R174, R175, R264, R265), and
the host samples that follow a request (R506-R509).
-/
namespace Sys2Proof.Machine

/-- How a request ends. -/
inductive Res where
  /-- Data of the line, poisoned or not. -/
  | data (l : Line) (p : Bool)
  /-- A write, ownership or eviction notice is complete. -/
  | done
  /-- Refused under R43. -/
  | refused
  /-- Refused by the Gate under R81. -/
  | denied
  /-- An atomic: the value the target held, poisoned or not. -/
  | old (v : Nat) (p : Bool)
  /-- Ends with a status of its own: a timeout, a containment. -/
  | status (st : Status)
  deriving DecidableEq, Repr

/-! ### Host samples (R506-R509) -/

/-- Applies f to a sample tracker, given as its number plus one. -/
def smpUpd (t : Nat) (f : HSmp → HSmp) (s : State) : State :=
  if t = 0 then s else { s with pmu := { s.pmu with trk := supd {} s.pmu.trk (t - 1) f } }

/-- Sets a FLAGS bit of a sample. -/
def smpFlag (t b : Nat) (s : State) : State :=
  smpUpd t (fun x => { x with flags := if x.flags / 2 ^ b % 2 = 1 then x.flags else x.flags + 2 ^ b }) s

/-- A sample starts to wait. -/
def smpWait (t : Nat) (s : State) : State :=
  smpUpd t (fun x => if x.waitAt = 0 then { x with waitAt := s.time + 1 } else x) s

/-- A sample's wait ends. -/
def smpGo (t : Nat) (s : State) : State :=
  smpUpd t (fun x => if x.waitAt = 0 then x else { x with wait := x.wait + (s.time + 1 - x.waitAt), waitAt := 0 }) s

/-- The record of a host request sample (R509). -/
def hsmpRec (x : HSmp) (lat : Nat) : Line :=
  recLine [(0, x.time), (8, 1), (9, x.opcode), (0xA, x.port), (0xB, x.flags), (0xC, x.dom), (0xE, x.loc), (0xF, x.dev),
    (0x10, x.hpa), (0x18, x.da), (0x20, min lat (2 ^ 32 - 1)), (0x24, x.slice), (0x28, min x.wait (2 ^ 32 - 1)),
    (0x2C, x.seq)]

/-- A host sample ends: its record is pushed and the tracker is free (R507, R508). -/
def smpEnd (t : Nat) (lost : Bool) (s : State) : State :=
  if t = 0 then s else
  let x := sget {} s.pmu.trk (t - 1)
  if !x.used then s else
  let e := if lost then hsmpRec { x with flags := x.flags % 32 + 32 + x.flags / 64 * 64 } (2 ^ 32 - 1)
    else hsmpRec x (s.time - x.time)
  smpPush 0 x.ring e { s with pmu := { s.pmu with trk := sdel s.pmu.trk (t - 1) } }

/-- The lowest free tracker of 256. -/
def freeTracker (s : State) : Option Nat :=
  (List.range 256).find? (fun k => !(sget {} s.pmu.trk k).used)

/-- A host request enters a KMD instance: it may be selected for a sample (R506, R507); answers the tracker plus one. -/
def smpSelect (port vcs opcode dom hpa : Nat) (s : State) : Nat × State :=
  let _ := vcs
  let x := s.pmu.src0
  if !x.en || (x.domv && !(x.dom == dom)) || (x.portv && !(x.port == port)) then (0, s)
  else
    let s1 := drawFree s
    if x.rate ≠ 0 && !(Config.freeBool s.free (2 ^ x.rate)) then (0, s1)
    else
      let s2 := smpSrcPut 0 { x with seq := (x.seq + 1) % 2 ^ 32 } s1
      match freeTracker s2 with
      | none =>
        let y := s2.pmu.src0
        (0, countN 0xC002 none none 1 (smpSrcPut 0 { y with missed := satAdd (2 ^ 32 - 1) y.missed 1 } s2))
      | some k =>
        (k + 1, { s2 with pmu := { s2.pmu with trk := sput s2.pmu.trk k {
            used := true, ring := x.ring, seq := x.seq, time := s.time, opcode := opcode, port := port, dom := dom,
            hpa := hpa } } })

/-! ### Answers -/

/-- Bytes of a record without data and with data on a CXL link (log entry 12, DESIGN CHOICE). -/
def bytesHdr : Nat := 16
def bytesData : Nat := 80

/-- A lost host: its responses are discarded (R54). A request of a host that was lost carries port 255. -/
def hostGone (s : State) (port : Nat) : Bool := (96 ≤ port : Bool) || s.dom.lostHost.contains port

/-- Sends a host its answer, unless the host is lost (R54). -/
def toHost (port : Nat) (r : Req) (bytes : Nat) (poison : Bool) (m : Msg) (s : State) : State :=
  if hostGone s port then smpEnd r.smp true s else
  mirrorFlow port 2 0 3 m.bitOf r.dom bytes r.da
    (sendResp port (domClass s port r.dom) r.dom bytes r.acct 0 poison r.smp m s)

/-- The MetaValue that a read is answered with (R142): what the device granted. -/
def grantMeta : Op → Meta
  | .rdS => .s | .rdA => .a | _ => .i

/-- A host's CXL.mem request is answered (R22, R23, R43, R142). -/
def answerHost (port tag : Nat) (r : Req) (res : Res) (s : State) : State :=
  let rd := match r.op with | .rdS => true | .rdA => true | .rdI => true | _ => false
  match res with
  | .data l p => toHost port r bytesData p (.memData tag (if decide (r.mode = .scoh) then grantMeta r.op else .noOp) l p) (if p then smpFlag r.smp 4 s else s)
  | .done => toHost port r bytesHdr false (.cmp tag (match r.op with | .invA => true | _ => false)) s
  | _ =>
    if rd then toHost port r bytesData true (.memData tag (if decide (r.mode = .scoh) then grantMeta r.op else .noOp) 0 true) (smpFlag r.smp 4 (smpFlag r.smp 3 s))
    else toHost port r bytesHdr false (.cmp tag false) (smpFlag r.smp 3 s)

/-- A host's AtomicOp is answered (R174, R175). -/
def answerAtomic (port tag : Nat) (r : Req) (res : Res) (s : State) : State :=
  match res with
  | .old v p => toHost port r bytesData p (.cplD tag v p) (if p then smpFlag r.smp 4 s else s)
  | _ => toHost port r bytesHdr false (.completerAbort tag) (smpFlag r.smp 3 s)

/-- An earlier aperture store of a core to a line is outstanding (R254). -/
def storeTo (s : State) (n dom da : Nat) : Bool :=
  s.reqs.any (fun x => (match x.who, x.op with | .core k _ _, .wr => k == n | .core k _ _, .wrPtl => k == n | _, _ => false)
    && (x.dom == dom) && (x.da == da))

/-- A load that waited for stores to its line goes on (R254). -/
def loadWake (n id : Nat) (s : State) : State :=
  match reqOf s id with
  | some r => if decide (r.phase = .storeWait) && !(storeTo s n r.dom r.da) then reqPut { r with phase := .ready } s else s
  | none => s

/-- A core's aperture access ends: a load writes gd, or raises POISON (R265); a store leaves the pending list (R254). -/
def answerCore (n off size : Nat) (r : Req) (res : Res) (s : State) : State :=
  let c := coreOf s n
  match c.busy, r.op with
  | .load id gd addr, .rdI =>
    if id = r.id then
      (match res with
       | .data l false => retireWith n gd (word (l.toNat / 2 ^ (8 * off) % 2 ^ (8 * size))) s
       | _ => except n 0x0A 2 addr s)
    else s
  | b, _ =>
    let c' := { c with stores := c.stores.filter (fun k => !(k == r.id)) }
    let s1 := corePut n c' s
    match b with
    | .fence => if c'.stores.isEmpty then retire n s1 else s1
    | .leave st start => if c'.stores.isEmpty then left n st start s1 else s1
    | .load id _ _ => loadWake n id s1
    | _ => s1

/-- The status that an atomic or flush ends with for an issuer. -/
def resStatus : Res → Status
  | .data _ p => if p then .poisoned else .ok
  | .done => .ok
  | .refused => .denied
  | .denied => .denied
  | .old _ p => if p then .poisoned else .ok
  | .status st => st

/-- The value of an atomic's answer. -/
def resOld : Res → Nat
  | .old v _ => v
  | _ => 0

/-- A core's MELD retires: OLD into words 7 and 8, the status into gd (R303). -/
def answerCoreMeld (n : Nat) (r : Req) (res : Res) (s : State) : State :=
  match (coreOf s n).busy with
  | .meld id gd desc =>
    if id = r.id then
      let st := resStatus res
      let s1 := match res with
        | .old v _ => stWords n (desc + 56) [word v, word (v / 2 ^ 64)] s
        | _ => s
      countP 0x7005 n (retireStatus n gd st s1)
    else s
  | _ => s

/-- A line of a vendor memory read lands in its operation's buffer. -/
def mopLand (o : MgmtOp) (r : Req) (res : Res) : MgmtOp :=
  let o1 := { o with reqs := o.reqs.filter (fun k => !(k == r.id)) }
  match res with
  | .data l false =>
    { o1 with bytes := (List.range 64).foldl (fun m i =>
        if o.addr ≤ r.da + i && r.da + i < o.addr + o.len then memSet m (r.da + i - o.addr) (lineByte l i) else m) o1.bytes }
  | .done => o1
  | .old v p =>
    { o1 with bytes := memWrite [] 0 (leBytes 16 v), st := if p then .poisoned else o1.st }
  | res => { o1 with st := if o1.st = .ok then (match resStatus res with | .ok => .poisoned | x => x) else o1.st }

/-- A management operation whose requests have all ended is answered (R445, R447). -/
def mopFinish (o : MgmtOp) (s : State) : State :=
  let s1 := { s with flg := { s.flg with mops := s.flg.mops.filter (fun x => !(x.seq == o.seq)) } }
  respond .mgmt o.st.code
    (if o.kind = 2 && !(o.st = .ok) then [] else if o.kind = 2 then [leNat (memRead o.bytes 0 o.len)]
     else if o.kind = 0 then (o.desc.take 7).map BitVec.toNat ++ [leNat (memRead o.bytes 0 8), leNat (memRead o.bytes 8 8)]
     else o.desc.map BitVec.toNat) s1

/-- A request of a management operation ends. -/
def answerMgmt (seq : Nat) (r : Req) (res : Res) (s : State) : State :=
  match s.flg.mops.find? (fun o => o.seq == seq) with
  | none => s
  | some o =>
    let o1 := mopLand o r res
    if o1.reqs.isEmpty then mopFinish o1 s
    else { s with flg := { s.flg with mops := s.flg.mops.map (fun x => if x.seq = seq then o1 else x) } }

/-! ### Messages between switches (R155, R178, R427-R429); codes of the table "Message opcodes" -/

def mHreqS : Nat := 0x01
def mHreqX : Nat := 0x02
def mHreqCur : Nat := 0x03
def mHreqWr : Nat := 0x04
def mHwb : Nat := 0x05
def mHgntS : Nat := 0x06
def mHgntX : Nat := 0x07
def mHcmp : Nat := 0x08
def mHsnpInv : Nat := 0x09
def mHsnpData : Nat := 0x0A
def mHsnpCur : Nat := 0x0B
def mHrspI : Nat := 0x0C
def mHrspS : Nat := 0x0D
def mHrspE : Nat := 0x0E
def mHmeld : Nat := 0x0F
def mHmeldRsp : Nat := 0x10
def mHeartbeat : Nat := 0x11

/-- TRL_NOROUTE, a counter kept at its own address. -/
def aTrlNoRoute : Nat := 0x24E00010

/-- TRL_ROUTE of switch k: VALID and PORTS. -/
def trlRoute (s : State) (k : Nat) : Word := regGet s (0x24E00100 + 8 * k)

/-- The home switch of a domain that is homed elsewhere (R427). -/
def homedElse (s : State) (d : Nat) : Option Nat :=
  let w := regGet s (0x24E10000 + 8 * d)
  if bit w 63 && !(fld w 3 0 == s.trl.selfId) then some (fld w 3 0) else none

/-- Tiles of the usable TRL ports toward a switch, in tile order (R428). -/
def routeTiles (s : State) (k : Nat) : List Nat :=
  if bit (trlRoute s k) 63 then
    (List.range 24).filter (fun t => bit (trlRoute s k) t && isTrlTile s t && ((trlOf s t).st == 5 || (trlOf s t).st == 6))
  else []

/-- S of R127 for a line key K = domain ∥ DA[45:6]. -/
def keyS (k : Nat) : Nat :=
  let x := k / 2 ^ 19 % 2 ^ 33
  (k % 2 ^ 19) ^^^ ((x % 2 ^ 19) ^^^ (x / 2 ^ 19 * 32))

/-- The line key of R127. -/
def keyOf (dom da : Nat) : Nat := dom * 2 ^ 40 + da / 64 % 2 ^ 40

/-- The home slice of a line. -/
def sliceOf (k : Nat) : Nat := keyS k % 64

/-- The tile a message leaves on (R428): position S[5:0] mod n; a HEARTBEAT the first. -/
def routeTile (s : State) (m : Inter) : Option Nat :=
  let ts := routeTiles s m.dst
  if m.op = mHeartbeat then ts.head?
  else ts[sliceOf (m.dom * 2 ^ 40 + m.line) % ts.length]?

/-- The class a message travels in: SC0 for HEARTBEAT, the domain's class for HMELD and NOTRACK traffic, SC2 for requests
and snoops, SC1 for responses (R155, R178, R429). -/
def interClass (s : State) (p : Nat) (m : Inter) : Nat :=
  if m.op = mHeartbeat then 0
  else if m.op = mHmeld || m.notrack then domClass s p m.dom
  else if m.op ≤ mHreqWr || (mHsnpInv ≤ m.op && m.op ≤ mHsnpCur) then 2
  else 1

/-- Bytes of a message: 16 for each slot. -/
def interBytes (m : Inter) : Nat :=
  16 + (match m.data with | some _ => if m.op = mHmeld then 32 else if m.op = mHmeldRsp then 16 else 64 | none => 0)
    + (if m.mask.isSome then 16 else 0)

/-- A port on the way to a switch waits for a route fence, R428. -/
def fencedTo (s : State) (k : Nat) : Bool :=
  (List.range 24).any (fun t => bit (trlRoute s k) t && !(trlOf s t).fence.isEmpty)

/-- A message is queued on the port that leads to its destination; none: discarded and counted (R428). -/
def routeMsg (m : Inter) (needs : Bool) (s : State) : State :=
  match routeTile s m with
  | none => regPut s aTrlNoRoute (word (satAdd (2 ^ 48 - 1) (regGet s aTrlNoRoute).toNat 1))
  | some t =>
    let p := 4 * t
    sendCtl p (interClass s p m) (if m.op = mHmeld || m.notrack then m.dom else 0xFFFF) (interBytes m)
      (if needs then some (acctKey p 1) else none) (.inter m) s

/-- A message of this switch to another one; while a route fence toward it holds, it waits (R428). -/
def toSwitch (m : Inter) (needs : Bool) (s : State) : State :=
  let m1 := { m with src := s.trl.selfId }
  if fencedTo s m.dst then { s with trl := { s.trl with fenced := s.trl.fenced ++ [(m1, needs)] } }
  else routeMsg m1 needs s

/-- STATUS of a response message. -/
def interSt : Res → Nat
  | .data _ p => b2n p
  | .old _ p => b2n p
  | .done => 0
  | .denied => 3
  | .refused => 2
  | .status .poisoned => 1
  | .status _ => 2

/-- Data of a response message. -/
def interData : Res → Option Line
  | .data l _ => some l
  | .old v _ => some (BitVec.ofNat 512 v)
  | _ => none

/-- A remote switch's request ends at the home: a grant, a completion, or the answer of a far atomic (R155, R178). -/
def answerRemote (sw tag : Nat) (r : Req) (res : Res) (s : State) : State :=
  let op := match r.op with
    | .atomic _ _ _ _ _ => mHmeldRsp | .rdS => mHgntS | .rdI => mHgntS | .rdA => mHgntX | _ => mHcmp
  let m : Inter := {
    op := op, src := 0, dst := sw, dom := r.dom, tag := tag, st := interSt res
    notrack := !(decide (r.mode = .scoh)), line := r.da / 64, data := interData res
    args := if op = mHmeldRsp then r.hpa else 0 }
  toSwitch m false s

/-- Ends a request: it leaves the requests in flight, its item is released, and its requester is answered. -/
def answer (r : Req) (res : Res) (s : State) : State :=
  let s1 := releaseItem r.item (smpGo r.smp (reqDel r.id s))
  match r.who with
  | .host port _ tag => answerHost port tag r res s1
  | .hostAtomic port _ tag => answerAtomic port tag r res s1
  | .core n off size => answerCore n off size r res s1
  | .coreMeld n => answerCoreMeld n r res s1
  | .mgmt seq => answerMgmt seq r res s1
  | .flush slot => slotPost slot (resStatus res) 0 s1
  | .wback _ => s1
  | .gather _ => s1
  | .remote sw tag => answerRemote sw tag r res s1
  | .home _ _ => s1

end Sys2Proof.Machine
end

