-- ==== Sys2Proof/Machine/Place.lean ====
section
/-!
DEFINITION. Machine/Place.lean: the placement stage (spec 07, 01): the map, the TLB, the free pool, fills, heat, the routing of
an access to its locations, and the Oasis channel queues (spec 08).
-/
namespace Sys2Proof.Machine

/-! ### The map and its counts (R185-R200, R216) -/

/-- Map entry idx. -/
def mapOf (s : State) (idx : Nat) : MapEntry := sget {} s.dlr.map idx

/-- The map index of a parcel (R31, R185). -/
def mapIdx (s : State) (dom parcel : Nat) : Nat := (domOf s dom).mapBase * 1024 + parcel

/-- The map index of a DA. -/
def idxOf (s : State) (dom da : Nat) : Nat := mapIdx s dom (da / 2 ^ 18)

/-- Writes an entry in the map and in every TLB copy in one step (R191). -/
def mapNow (idx : Nat) (e : MapEntry) (s : State) : State :=
  { s with dlr := { s.dlr with
    map := sset {} s.dlr.map idx e
    tlb := if (sfind? s.dlr.tlb idx).isSome then sput s.dlr.tlb idx e else s.dlr.tlb } }

/-- Writes an entry in the map only: a PMAPSET, in force after the next MSYNC (R191). -/
def mapSlow (idx : Nat) (e : MapEntry) (s : State) : State :=
  { s with dlr := { s.dlr with map := sset {} s.dlr.map idx e } }

/-- GEN + 1 modulo 65,536 (R189). -/
def genUp (e : MapEntry) : MapEntry := { e with gen := (e.gen + 1) % 65536 }

/-- The domain whose map segment holds an index (R31). -/
def domOfIdx (s : State) (idx : Nat) : Option Nat :=
  (s.dom.doms.find? (fun p => p.2.valid && (p.2.mapBase * 1024 ≤ idx : Bool)
    && (idx < (p.2.mapBase + spanOf p.2) * 1024 : Bool))).map (fun p => p.1)

/-- Leg counts of R200 of a device for a domain: single, duplex. -/
def legsOf (s : State) (dev dom : Nat) : Nat × Nat :=
  ((s.dlr.map.filter (fun p => (p.2.tag == dom) && decide (p.2.kind = .pool) && (p.2.devA == dev))).length,
   (s.dlr.map.filter (fun p => (p.2.tag == dom) && decide (p.2.kind = .duplex) &&
      ((p.2.devA == dev) || (p.2.devB == dev)))).length)

/-- OASIS_USED of a domain (R216). -/
def oasisUsed (s : State) (dom : Nat) : Nat :=
  (s.dlr.map.filter (fun p => (p.2.tag == dom) && decide (p.2.kind = .oasis))).length

/-- RDUP_COUNT of a domain (R216). -/
def rdupCount (s : State) (dom : Nat) : Nat := (s.dlr.map.filter (fun p => (p.2.tag == dom) && p.2.rdup)).length

/-- A domain's constraints. -/
def conOf (s : State) (dom : Nat) : DCon := sget {} s.dlr.con dom

/-- A pool device index. -/
def devOf (s : State) (n : Nat) : PoolDev := sget {} s.dom.devs n

/-- Replaces a pool device index. -/
def devPut (n : Nat) (d : PoolDev) (s : State) : State :=
  { s with dom := { s.dom with devs := sset {} s.dom.devs n d } }

/-- A device index is marked lost at the placement stage (R58): LOST, or ABSENT after its walk. -/
def devLost (s : State) (n : Nat) : Bool :=
  match (devOf s n).st with | .lost => true | .absent => true | _ => false

/-! ### The free pool (R192, R193) -/

/-- DLR_POOL.FREE: free parcels of ACTIVE devices and of the near tier. -/
def poolFree (s : State) : Nat :=
  ((s.dom.devs.filter (fun p => decide (p.2.st = .active))).map (fun p => rcount p.2.free)).sum + rcount s.dlr.near

/-- An all-zero DEVSET allows every device (R216). -/
def devAllowed (c : DCon) (n : Nat) : Bool := (c.devset == 0) || (c.devset / 2 ^ n % 2 == 1)

/-- Allowed ACTIVE devices of a rank with a free parcel, except one. -/
def rankDevs (s : State) (c : DCon) (rank : Nat) (except : Option Nat) : List (Nat × Nat) :=
  (s.dom.devs.filter (fun p => decide (p.2.st = .active) && (p.2.rank == rank) && devAllowed c p.1
    && (0 < rcount p.2.free : Bool) && !(except == some p.1))).map (fun p => (p.1, rcount p.2.free))

/-- The device with the most free parcels; a tie goes to the lowest index (R193 step 3). -/
def mostFree (l : List (Nat × Nat)) : Option Nat :=
  (l.foldl (fun b p => match b with
    | some q => if q.2 < p.2 then some p else some q
    | none => some p) none).map (fun p => p.1)

/-- Takes the lowest free parcel of a device, or of the near tier (255). -/
def takeFrom (n : Nat) (s : State) : Option (Loc × State) :=
  if n = 255 then
    match rtake? s.dlr.near with
    | some (p, r) => some ((255, p), { s with dlr := { s.dlr with near := r } })
    | none => none
  else
    match rtake? (devOf s n).free with
    | some (p, r) => some ((n, p), devPut n { devOf s n with free := r } s)
    | none => none

/-- The device chosen as a fill of a rank, and a second one for DUPLEX (R193 steps 3 and 4). -/
def rankChoice (s : State) (c : DCon) (rank : Nat) : Option (List Nat) :=
  match mostFree (rankDevs s c rank none) with
  | none => none
  | some a =>
    if c.duplex then
      match mostFree (rankDevs s c rank (some a)) with
      | some b => some [a, b]
      | none => none
    else some [a]

/-- The fastest rank that can serve. -/
def fastest (s : State) (c : DCon) : Option (List Nat) :=
  (List.range 8).findSome? (fun t => rankChoice s c t)

/-- The near tier can take a parcel of the domain. -/
def nearOk (s : State) (dom : Nat) : Bool :=
  (oasisUsed s dom < (conOf s dom).quota : Bool) && (0 < rcount s.dlr.near : Bool)

/-- The devices a fill takes its backing from (R193); none: it waits (R194). -/
def fillChoice (s : State) (dom : Nat) : Option (List Nat) :=
  let c := conOf s dom
  if c.pinTier = 8 then (if nearOk s dom then some [255] else none)
  else if c.pinTier ≠ 15 then rankChoice s c c.pinTier
  else if c.fill = 8 then (if nearOk s dom then some [255] else fastest s c)
  else if c.fill = 15 then fastest s c
  else rankChoice s c c.fill

/-- Takes parcels from each of the devices. -/
def takeAll : List Nat → State → Option (List Loc × State)
  | [], s => some ([], s)
  | n :: t, s =>
    match takeFrom n s with
    | none => none
    | some (l, s1) =>
      match takeAll t s1 with
      | none => none
      | some (ls, s2) => some (l :: ls, s2)

/-- An entry that names locations (R187). -/
def withLoc (e : MapEntry) (ls : List Loc) : MapEntry :=
  match ls with
  | [] => { e with kind := .zero, devA := 0, pA := 0, devB := 0, pB := 0 }
  | [a] => if a.1 = 255 then { e with kind := .oasis, devA := 255, pA := a.2, devB := 0, pB := 0 }
      else { e with kind := .pool, devA := a.1, pA := a.2, devB := 0, pB := 0 }
  | a :: b :: _ => { e with kind := .duplex, devA := a.1, pA := a.2, devB := b.1, pB := b.2 }

/-- The locations of an entry. -/
def locsOf (e : MapEntry) : List Loc :=
  match e.kind with
  | .pool => [(e.devA, e.pA)]
  | .oasis => [(255, e.pA)]
  | .duplex => [(e.devA, e.pA), (e.devB, e.pB)]
  | _ => []

/-- Former backing is scrubbed before it returns to the free pool (R48, R49); a retired near-tier parcel does not return
(R240), and a lost device's parcels do not. -/
def scrubLater (l : Loc) (s : State) : State :=
  if l.1 = 255 then
    (if s.oas.retired.contains l.2 then s
     else { s with dlr := { s.dlr with nearToScrub := s.dlr.nearToScrub ++ [l.2] } })
  else if devLost s l.1 then s
  else devPut l.1 { devOf s l.1 with toScrub := (devOf s l.1).toScrub ++ [l.2] } s

/-- Scrubs several locations. -/
def scrubAll (ls : List Loc) (s : State) : State := ls.foldl (fun s' l => scrubLater l s') s

/-- The promise a ZERO parcel with EXT = 1 holds (R192). -/
def promiseOf (s : State) (dom : Nat) : Nat := if (conOf s dom).duplex then 2 else 1

/-- A promise ends. -/
def promiseEnd (n : Nat) (s : State) : State := { s with dlr := { s.dlr with promises := s.dlr.promises - n } }

/-! ### Oasis addresses and queues (R223, R224, R231) -/

/-- The OA of a near-tier parcel's byte. -/
def nearOa (parcel off : Nat) : Nat := 0x0150000000 + parcel * 0x40000 + off

/-- The channel of an OA, R223. -/
def oaChannel (oa : Nat) : Nat := (oa / 2 ^ 8 % 32) ^^^ (oa / 2 ^ 13 % 32) ^^^ (oa / 2 ^ 18 % 32)

/-- A stored line, by OA[37:6]. -/
def oLine (s : State) (oa : Nat) : OLine := sget {} s.oas.lines (oa / 64)

/-- The read and write queues of a channel. -/
def rdQ (s : State) (c : Nat) : List OAcc := sget [] s.oas.chRd c
def wrQ (s : State) (c : Nat) : List OAcc := sget [] s.oas.chWr c

/-- A write applied to a stored line (R228, R229): a partial write merges, with zeros over a scrubbed line, and keeps POIS;
a full-line write clears POIS unless it carries poison. -/
def oMerge (old : OLine) (w : OLine) (m : Word) : OLine :=
  if m = BitVec.allOnes 64 then w
  else { data := mergeLine (if old.scr then 0 else old.data) w.data m, tag := w.tag, pois := old.pois || w.pois, scr := false }

/-- The line as every queued write leaves it: the newest queued write serves a read (R231). -/
def oasNow (s : State) (oa : Nat) : OLine :=
  (wrQ s (oaChannel oa)).foldl (fun l a =>
    if a.oa = oa then (match a.wr with | some (w, m) => oMerge l w m | none => l) else l) (oLine s oa)

/-- What a read of a stored line by a domain returns (R228, R229, R50): data, poison, and whether the tag mismatched. -/
def oasRead (l : OLine) (dom : Nat) : Line × Bool × Bool :=
  if l.scr then (0, l.pois, false)
  else if l.tag ≠ dom then (0, true, true)
  else if l.pois then (0, true, false)
  else (l.data, false, false)

/-- A tag mismatch raises its fault (R50, R228). -/
def tagRaise (mism : Bool) (dom : Nat) (s : State) : State := if mism then raiseD fOasTag dom s else s

/-! ### Heat (R195, R196) -/

/-- The least recently used entry of the heat cache is written back when 65,536 are held (R196). -/
def heatRoom (s : State) : State :=
  if s.dlr.hcache.length < 65536 then s
  else
    match s.dlr.hcache.foldl (fun b p => match b with
        | some (q : Nat × HeatC) => if p.2.used < q.2.used then some p else some q
        | none => some p) none with
    | none => s
    | some (k, h) =>
      { s with dlr := { s.dlr with
        hcache := sdel s.dlr.hcache k
        heat := sset (0, 0) s.dlr.heat k (h.count, h.wmix) } }

/-- A sample of an access counts in the heat cache. -/
def heatSample (idx : Nat) (wr : Bool) (dom : Nat) (s : State) : State :=
  let s1 := match sfind? s.dlr.hcache idx with | some _ => s | none => heatRoom s
  let h : HeatC := match sfind? s1.dlr.hcache idx with
    | some h => h
    | none => let t := sget (0, 0) s1.dlr.heat idx; { count := t.1, wmix := t.2, rd := 0, wr := 0, used := 0 }
  countD 0x5020 dom { s1 with
    next := s1.next + 1
    dlr := { s1.dlr with hcache := sput s1.dlr.hcache idx { h with
      count := satAdd 16383 h.count 1
      rd := if wr then h.rd else satAdd 16383 h.rd 1
      wr := if wr then satAdd 16383 h.wr 1 else h.wr
      used := s1.next } } }

/-- An eligible access may be sampled with probability 1 ÷ 2^SAMPLE (R195). -/
def heatTouch (idx : Nat) (wr : Bool) (dom : Nat) (s : State) : State :=
  if regFld s aDlrHeatCfg 63 63 = 0 || (conOf s dom).heatOff then s
  else
    let s1 := drawFree s
    if regFld s aDlrHeatCfg 61 58 = 0 || Config.freeBool s.free (2 ^ regFld s aDlrHeatCfg 61 58)
    then heatSample idx wr dom s1 else s1

/-! ### Requests -/

/-- A request with no cells and nothing outstanding. -/
def mkReq (id : Nat) (who : Who) (op : Op) (dom da : Nat) (mode : Mode) : Req :=
  { id := id, who := who, op := op, dom := dom, da := da, hpa := 0, win := none, mode := mode, mv := .i, data := 0,
    mask := BitVec.allOnes 64, poison := false, phase := .ready, legs := [], fetch := false, acct := noAcct, item := 0,
    smp := 0, time := 0, placed := false, old := 0, oldP := false, got := none, wb := false }

/-- Whether the access a request now makes at the placement stage is a write. -/
def accWr (r : Req) : Bool :=
  !r.fetch && (match r.op with
    | .wr => true | .wrPtl => true | .atomic _ _ _ _ _ => true | .flushKeep => true | .flushInv => true | _ => false)

/-- The arrival port of a request, which R21 orders by; internal requesters are ordered among themselves. -/
def Who.port : Who → Nat
  | .host p _ _ => p | .hostAtomic p _ _ => p | .core n _ _ => 1000 + n | .coreMeld n => 1000 + n | _ => 2000

/-- Phases in which a request waits at the placement stage. -/
def waitsAtPlace : Phase → Bool
  | .tlbFill _ => true | .tlbFull _ => true | .fillHold _ => true | .moveHold _ => true | .chunkHold _ => true
  | .oasisFull _ => true | _ => false

/-- The phase of an earlier request of the same port to the same line that waits at the placement stage: a later one waits
with it (R21). -/
def behind (s : State) (r : Req) : Option Phase :=
  if r.who.port = 2000 then none else
  ((s.reqs.takeWhile (fun x => !(x.id == r.id))).find? (fun x =>
    waitsAtPlace x.phase && (x.dom == r.dom) && (x.da == r.da) && (x.who.port == r.who.port))).map (fun x => x.phase)

/-- Waits that a host sample's WAIT counts (R509): line queue, hold marks, fills, SWITCHING. -/
def waitCounted : Phase → Bool
  | .lineQueue => true | .meldQueue => true | .holdWait => true | .fillHold _ => true | .moveHold _ => true
  | _ => false

/-- A request waits in a phase. -/
def waitIn (r : Req) (ph : Phase) (s : State) : State :=
  let s1 := reqPut { r with phase := ph } s
  if waitCounted ph then smpWait r.smp s1 else s1

/-- A sample's WAIT counts the parking of the request it sent (R509). -/
def parkWait (smp port tag : Nat) (s : State) : State :=
  if (pqOf s port).parked.any (fun x => match x.msg with | .devRd t _ => t == tag | .devWr t _ _ _ _ => t == tag | _ => false)
  then smpWait smp s else s

/-- A command leg at a pool device: the device request is built with the device's own tag and queued (trace step 7). -/
def sendLeg (r : Req) (l : Loc) (rd dest : Bool) (s : State) : Leg × State :=
  let d := devOf s l.1
  let tag := s.next
  let dpa := l.2 * 0x40000 + r.da % 0x40000
  let m := if rd then Msg.devRd tag dpa else Msg.devWr tag dpa r.data r.mask r.poison
  let s1 := parkWait r.smp d.port s.next (sendRec d.port (domClass s d.port r.dom) r.dom (if rd then bytesHdr else bytesData) noAcct
    (some (acctKey d.port (3 + (sget {} s.erg.pqos d.port).rxclass))) 0 true r.poison 0 m (takeNext s))
  ({ tag := tag, dev := l.1, port := d.port, dpa := dpa, rd := rd, dest := dest }, s1)

/-- The Caravan of a parcel's running move. -/
def carOf (s : State) (n : Nat) : Caravan := sget {} s.dlr.cars n

/-- Replaces a Caravan. -/
def carPut (n : Nat) (c : Caravan) (s : State) : State :=
  { s with dlr := { s.dlr with cars := sset {} s.dlr.cars n c } }

/-- What an access does next at the placement stage. -/
inductive Route where
  | unbacked
  | hold (ph : Phase)
  /-- The data of the line at once, poisoned or not. -/
  | now (l : Line) (p : Bool)
  /-- A write that is discarded, and complete. -/
  | drop
  | read (l : Loc)
  | write (ls ds : List Loc)
  /-- The first write to a ZERO parcel starts a fill (R193). -/
  | fill
  deriving DecidableEq, Repr

/-- The location a read goes to: the first present, R22, R59. -/
def readLoc (s : State) (e : MapEntry) : Option Loc :=
  match e.kind with
  | .oasis => some (255, e.pA)
  | _ => (locsOf e).find? (fun l => !(devLost s l.1))

/-- R22, R59, R188, R193, R204, R207: where an access to a parcel goes. -/
def routeOf (s : State) (r : Req) (idx : Nat) (e : MapEntry) : Route :=
  let m := mapOf s idx
  let i := r.da % 0x40000 / 64
  let filling := s.dlr.fills.any (fun f => f.idx == idx)
  if decide (r.who = .wback 1) then (if decide (m.ms = .switching) then .write [] (carOf s m.car).dest else .drop)
  else if e.tag ≠ r.dom || !e.ext then .unbacked
  else match e.kind with
    | .poisoned => if accWr r then .drop else .now 0 true
    | .zero => if filling then .hold (.fillHold idx) else if accWr r then .fill else .now 0 false
    | _ =>
      if decide (m.ms = .switching) then .hold (.moveHold idx)
      else
        let c := carOf s m.car
        let copying := decide (m.ms = .copying)
        if accWr r then
          if copying && c.flight && (c.cursor ≤ i : Bool) && (i < c.cursor + 16 : Bool) then .hold (.chunkHold idx)
          else
            let ls := (locsOf e).filter (fun l => (l.1 == 255) || !(devLost s l.1))
            let ds := if copying && (i < c.cursor : Bool) then c.dest else []
            if ls.isEmpty && ds.isEmpty then .drop else .write ls ds
        else match readLoc s e with
          | some l => .read l
          | none => .now 0 true

/-- The event of an access on an entry of a kind, and of its rank (18, 0x5003-0x5007, 0x5010-0x5017). -/
def placeCount (s : State) (e : MapEntry) (dom : Nat) : State :=
  let s1 := countD (0x5003 + e.kind.code) dom s
  match e.kind with
  | .pool => countD (0x5010 + (devOf s e.devA).rank) dom s1
  | .duplex => countD (0x5010 + (devOf s e.devA).rank) dom s1
  | _ => s1

end Sys2Proof.Machine
end

