-- ==== Sys2Proof/Machine/Coh.lean ====
section
/-!
DEFINITION. Machine/Coh.lean: the home slices (spec 05): snoop filter, line cache, transactions, snoops, grants, hold marks,
and the Meld units' execution of coherent atomics (spec 06).
-/
namespace Sys2Proof.Machine

/-! ### Keys, entries and lines (R127-R130) -/

/-- Domain of a line key. -/
def keyDom (k : Nat) : Nat := k / 2 ^ 40

/-- DA of a line key. -/
def keyDa (k : Nat) : Nat := k % 2 ^ 40 * 64

/-- Set within the slice, R127. -/
def setOf (k : Nat) : Nat := keyS k / 64

/-- The line is homed on another switch (R427). -/
def keyElse (s : State) (k : Nat) : Bool := (homedElse s (keyDom k)).isSome

/-- The entry of a line. -/
def sfOf (s : State) (k : Nat) : Option SfEntry := sfind? s.coh.sf k

/-- Agents an entry may stand for: its pointers, or every agent of its groups (R128). -/
def holders (e : SfEntry) : List Nat :=
  if e.grp then (List.range 80).filter (fun a => e.groups / 2 ^ (a / 5) % 2 == 1) else e.agents

/-- Writes an entry; an entry without agents is freed (R139: an empty S entry is freed; log entry 21, DEDUCED). -/
def sfPut (k : Nat) (e : SfEntry) (s : State) : State :=
  { s with coh := { s.coh with
    sf := if (holders e).isEmpty then sdel s.coh.sf k else sput s.coh.sf k { e with used := s.coh.stamp }
    stamp := s.coh.stamp + 1 } }

/-- Frees an entry. -/
def sfFree (k : Nat) (s : State) : State := { s with coh := { s.coh with sf := sdel s.coh.sf k } }

/-- Sets of the line cache in one home slice, R130. -/
def lcSets (s : State) : Nat := 16 * s.erg.part.lcMib

/-- The device has a line cache for a line: of its own, or the lease buffer for a line homed elsewhere. -/
def hasLc (s : State) (k : Nat) : Bool := keyElse s k || !(lcSets s == 0)

/-- The line lies in a parcel of kind poisoned: a write of it goes on to the placement stage, which discards it (R22, R60). -/
def parcelGone (s : State) (k : Nat) : Bool :=
  !(keyElse s k) && decide ((mapOf s (idxOf s (keyDom k) (keyDa k))).kind = .poisoned)

/-- A lease seen as a line of the line cache (R156). -/
def leaseLine (l : Lease) : LcLine :=
  { data := l.data, dirty := l.dirty, poison := l.poison, way := 0, used := l.order, wb := false }

/-- The line the line cache, or the lease buffer, holds. -/
def lcOf (s : State) (k : Nat) : Option LcLine :=
  if keyElse s k then (sfind? s.coh.leases k).map leaseLine else sfind? s.coh.lc k

/-- Writes a held line. -/
def lcPut (k : Nat) (l : LcLine) (s : State) : State :=
  if keyElse s k then
    match sfind? s.coh.leases k with
    | some x => { s with coh := { s.coh with
        leases := sput s.coh.leases k { x with data := l.data, dirty := l.dirty, poison := l.poison } } }
    | none => s
  else { s with coh := { s.coh with
      lc := sput s.coh.lc k { l with used := s.coh.stamp }
      stamp := s.coh.stamp + 1 } }

/-- Drops a line from the line cache. -/
def lcDel (k : Nat) (s : State) : State := { s with coh := { s.coh with lc := sdel s.coh.lc k } }

/-- The line is held DIRTY. -/
def lcDirty (s : State) (k : Nat) : Bool := match lcOf s k with | some l => l.dirty | none => false

/-- An entry owned by one agent: E, M or WBP. -/
def owned (e : SfEntry) : Bool := match e.st with | .e => true | .m => true | .wbp => true | _ => false

/-- STATE of an entry: a shared entry is O where the line is DIRTY, else S (R129, R153). -/
def dirState (s : State) (k : Nat) (e : SfEntry) : Dir :=
  if owned e then e.st else if lcDirty s k then .o else .s

/-- The owner of a line. -/
def ownerOf (s : State) (k : Nat) : Option Nat :=
  match sfOf s k with
  | some e => if owned e then e.agents.head? else none
  | none => none

/-- An entry with pointers. -/
def ptrEntry (st : Dir) (l : List Nat) : SfEntry := { st := st, grp := false, agents := l, groups := 0, used := 0 }

/-- One more sharer: a fourth turns the entry into group format (R128). -/
def addSharer (e : SfEntry) (a : Nat) : SfEntry :=
  if e.grp then { e with groups := e.groups ||| 2 ^ (a / 5) }
  else if e.agents.contains a then e
  else if e.agents.length < 3 then { e with agents := e.agents ++ [a] }
  else { e with grp := true, agents := [], groups := (e.agents ++ [a]).foldl (fun g x => g ||| 2 ^ (x / 5)) 0 }

/-- An agent leaves an entry; in group format nothing changes (R139). -/
def dropAgent (e : SfEntry) (a : Nat) : SfEntry :=
  if e.grp then e else { e with agents := e.agents.filter (fun x => !(x == a)), st := if e.agents.contains a && owned e then .s else e.st }

/-- An agent leaves a line. -/
def leaveLine (k a : Nat) (s : State) : State :=
  match sfOf s k with
  | some e => sfPut k (dropAgent e a) s
  | none => s

/-! ### Transactions and trackers (R135, R137) -/

/-- The open transactions of a line. -/
def txnsOf (s : State) (k : Nat) : List Txn := s.coh.txns.filter (fun t => t.key == k)

/-- The line has an open transaction. -/
def txnOn (s : State) (k : Nat) : Bool := s.coh.txns.any (fun t => t.key == k)

/-- The transaction that a request opened. -/
def txnOf (s : State) (req : Nat) : Option Txn := s.coh.txns.find? (fun t => t.req == req)

/-- Replaces a transaction. -/
def txnPut (t : Txn) (s : State) : State :=
  { s with coh := { s.coh with txns := s.coh.txns.map (fun x => if x.req = t.req then t else x) } }

/-- Opens a transaction. -/
def txnAdd (t : Txn) (s : State) : State := { s with coh := { s.coh with txns := s.coh.txns ++ [t] } }

/-- Closes the transaction that a request opened. -/
def txnDel (req : Nat) (s : State) : State :=
  { s with coh := { s.coh with txns := s.coh.txns.filter (fun t => !(t.req == req)) } }

/-- Trackers of a slice in use. -/
def trackers (s : State) (slice : Nat) : Nat := (s.coh.txns.filter (fun t => sliceOf t.key == slice)).length

/-- Ends a request and the transaction it opened. -/
def finishReq (r : Req) (res : Res) (s : State) : State := txnDel r.id (answer r res s)

/-! ### Hold marks (R138) -/

/-- A hold mark of an owner that has not ended. -/
def holdActive (s : State) (k a : Nat) : Bool :=
  s.coh.holds.any (fun h => (h.key == k) && (h.agent == a) && ((h.til == 0) || (s.time < h.til : Bool)))

/-- A hold mark ends. -/
def holdEnd (k a : Nat) (s : State) : State :=
  { s with coh := { s.coh with holds := s.coh.holds.filter (fun h => !((h.key == k) && (h.agent == a))) } }

/-- Marks held in a slice. -/
def holdsIn (s : State) (slice : Nat) : Nat := (s.coh.holds.filter (fun h => sliceOf h.key == slice)).length

/-- A grant of ownership takes a hold mark; the record that carries the grant starts it. -/
def holdAdd (k a grant : Nat) (s : State) : State :=
  let s1 := holdEnd k a s
  let h : Hold := { key := k, agent := a, til := 0, grant := grant }
  let s2 := { s1 with coh := { s1.coh with holds := s1.coh.holds ++ [h] } }
  { s2 with coh := { s2.coh with peak := max s2.coh.peak (holdsIn s2 (sliceOf k)) } }

/-! ### Line-cache allocation (R51, R131-R133) -/

/-- Ways walled off for other domains. -/
def walledWays (s : State) (dom : Nat) : Nat :=
  s.dom.doms.foldl (fun w p => if p.1 = dom || !p.2.valid then w else w ||| p.2.wall) 0

/-- The ways a domain allocates into, R51. -/
def allowedWays (s : State) (dom : Nat) : List Nat :=
  let own := (domOf s dom).wall
  if own = 0 then (List.range 16).filter (fun w => walledWays s dom / 2 ^ w % 2 == 0)
  else (List.range 16).filter (fun w => own / 2 ^ w % 2 == 1)

/-- The lines of a line's set. -/
def lcSetLines (s : State) (k : Nat) : SMap LcLine :=
  sfilter (fun x _ => (sliceOf x == sliceOf k) && (setOf x % lcSets s == setOf k % lcSets s)) s.coh.lc

/-- The least recently used line of a list. -/
def lruLine (l : SMap LcLine) : Option (Nat × LcLine) :=
  l.foldl (fun b p => match b with
    | some (q : Nat × LcLine) => if p.2.used < q.2.used then some p else some q
    | none => some p) none

/-- What an allocation finds (R132). -/
inductive Alloc where
  | way (w : Nat)
  | drop (victim w : Nat)
  | evict (victim : Nat)
  | wait
  deriving DecidableEq, Repr

/-- The line cache chooses a way for a line of a domain, R132. -/
def lcAlloc (s : State) (k : Nat) : Alloc :=
  let ls := lcSetLines s k
  let ways := allowedWays s (keyDom k)
  match ways.find? (fun w => !(ls.any (fun p => p.2.way == w))) with
  | some w => .way w
  | none =>
    let cand := ls.filter (fun p => ways.contains p.2.way && !(txnOn s p.1))
    match lruLine (cand.filter (fun p => !p.2.dirty)) with
    | some p => .drop p.1 p.2.way
    | none => match lruLine (cand.filter (fun p => p.2.dirty && !p.2.wb)) with
      | some p => .evict p.1
      | none => .wait

/-- A DIRTY line is written to its backing location (R132, R153): an internal write enters the placement stage. -/
def writeBack (k why : Nat) (l : LcLine) (s : State) : State :=
  let r := mkReq s.next (.wback why) .wr (keyDom k) (keyDa k) .scoh
  countD 0x3006 (keyDom k) (reqAdd { r with data := l.data, poison := l.poison, time := s.time } (takeNext s))

/-- A line is placed in the line cache: at once where it is present or a way can be had; else a dirty victim's eviction
starts, and the allocation waits (R132). Answers whether the line is placed. -/
def lcPlace (k : Nat) (l : LcLine) (s : State) : Bool × State :=
  if (lcOf s k).isSome || keyElse s k then (true, lcPut k { l with way := match lcOf s k with | some x => x.way | none => 0 } s)
  else match lcAlloc s k with
    | .way w => (true, lcPut k { l with way := w } s)
    | .drop v w => (true, lcPut k { l with way := w } (lcDel v s))
    | .evict v => match lcOf s v with
      | some x => (false, writeBack v 0 x (lcPut v { x with wb := true } s))
      | none => (false, s)
    | .wait => (false, s)

/-- A held line, dirty. -/
def dirtyLine (d : Line) (p : Bool) : LcLine := { data := d, dirty := true, poison := p, way := 0, used := 0, wb := false }

/-- A write merges into the held line: a full write replaces the poison, a partial one keeps it (R133). -/
def lcMerge (old : LcLine) (d : Line) (m : Word) (p : Bool) : LcLine :=
  { old with
    data := mergeLine old.data d m
    dirty := true
    wb := false
    poison := if m = BitVec.allOnes 64 then p else old.poison || p }

/-- A line of which the latest data is lost is held POISON and DIRTY, by force where no way can be had (R55, R133; log
entry 22). -/
def lcPoison (k : Nat) (s : State) : State :=
  if !(hasLc s k) then s
  else match lcOf s k with
    | some l => lcPut k { l with poison := true, dirty := true } s
    | none =>
      let l := dirtyLine 0 true
      match lcAlloc s k with
      | .way w => lcPut k { l with way := w } s
      | .drop v w => lcPut k { l with way := w } (lcDel v s)
      | _ => lcPut k { l with way := 255 } s

/-! ### Snoops (R139, R140, R144) -/

/-- The agent that a request belongs to: a host's VCS, a remote switch, none for internal requesters and atomics (R126). -/
def agentOf (r : Req) : Option Nat :=
  match r.who, r.op with
  | _, .atomic _ _ _ _ _ => none
  | .host _ vcs _, _ => some vcs
  | .remote sw _, _ => some (64 + sw)
  | .gather sw, _ => some (64 + sw)
  | _, _ => none

/-- The snoops that a request needs (R139): a kind, and the agents it goes to. -/
def snoopsFor (op : Op) (e : SfEntry) : Option (Snoop × List Nat) :=
  match op with
  | .rdS => if owned e then some (.data, e.agents) else none
  | .rdI => if owned e then some (.cur, e.agents) else none
  | .flushKeep => none
  | .clean => none
  | .snoop .inv => some (.inv, holders e)
  | .snoop k => if owned e then some (k, e.agents) else none
  | _ => some (.inv, holders e)

/-- Windows of a VCS and domain that cover a DA, draining ones included (R144). -/
def coveringWins (s : State) (vcs dom da : Nat) : List Window :=
  (s.dom.wins.filter (fun p => p.2.valid && (p.2.vcs == vcs) && (p.2.dom == dom)
    && (p.2.da * unit256 ≤ da : Bool) && (da < (p.2.da + p.2.size) * unit256 : Bool))).map (fun p => p.2)

/-- One BISnp to a host holder, by HPA. -/
def sendBisnp (port a : Nat) (k : Snoop) (hpa : Nat) (s : State) : Snp × State :=
  let id := s.next
  ({ id := id, agent := a, k := k, hpa := hpa, time := 0, ans := none, data := false, dirty := false },
   sendCtl port 2 0xFFFF 16 (some (acctKey port 1)) (.bisnp id k hpa) (takeNext s))

/-- BISnps for a list of HPAs. -/
def sendBisnps (port a : Nat) (k : Snoop) : List Nat → State → List Snp × State
  | [], s => ([], s)
  | h :: t, s =>
    let x := sendBisnp port a k h s
    let y := sendBisnps port a k t x.2
    (x.1 :: y.1, y.2)

/-- Opcode of a snoop message. -/
def hsnpOp : Snoop → Nat
  | .inv => mHsnpInv | .data => mHsnpData | .cur => mHsnpCur

/-- Snoops one agent: a remote switch by HSNP, a host by one BISnp per covering window. A lost host counts as having
answered I (R54); a holder with no covering window is lost for the line (R144, R55). -/
def snoopAgent (key : Nat) (k : Snoop) (a : Nat) (s : State) : List Snp × State :=
  if 64 ≤ a then
    let id := s.next
    let m : Inter := { op := hsnpOp k, src := 0, dst := a - 64, dom := keyDom key, tag := id % 65536, line := key % 2 ^ 40 }
    ([{ id := id, agent := a, k := k, hpa := 0, time := 0, ans := none, data := false, dirty := false }],
     toSwitch m true (takeNext s))
  else
    let gone : Snp := { id := s.next, agent := a, k := k, hpa := 0, time := 0, ans := some .i, data := false, dirty := false }
    match portOfVcs? s a with
    | none => ([gone], takeNext s)
    | some port =>
      if s.dom.lostHost.contains port then ([gone], takeNext s)
      else match coveringWins s a (keyDom key) (keyDa key) with
        | [] => ([gone], takeNext (match ownerOf s key, sfOf s key with
            | some o, some e => if o = a && decide (e.st = .m) then lcPoison key s else s
            | _, _ => s))
        | ws => sendBisnps port a k (ws.map (fun w => keyDa key - w.da * unit256 + w.hpa * unit256)) s

/-- Snoops several agents. -/
def snoopAll (key : Nat) (k : Snoop) : List Nat → State → List Snp × State
  | [], s => ([], s)
  | a :: t, s =>
    let x := snoopAgent key k a s
    let y := snoopAll key k t x.2
    (x.1 ++ y.1, y.2)

/-- A snoop of a transaction is outstanding. -/
def Snp.isOpen (x : Snp) : Bool := x.ans.isNone || x.data

/-- The answer of a holder to its BISnps: what it keeps at most (R144). -/
def ansJoin : Ans → Ans → Ans
  | .e, _ => .e | _, .e => .e | .s, _ => .s | _, .s => .s | .i, .i => .i

/-- The entry after a holder's answer, R140. -/
def ansApply (k : Snoop) (a : Nat) (ans : Ans) (e : SfEntry) : SfEntry :=
  match k, ans with
  | .data, .s => if owned e then ptrEntry .s [a] else e
  | .cur, .s => if owned e then ptrEntry .s [a] else e
  | .cur, .e => e
  | .inv, _ => if e.grp then e else dropAgent e a
  | _, _ => dropAgent e a

/-- The results of a transaction's snoops move the directory (R140); when every holder of a group-format entry was
invalidated, the entry is freed. -/
def applySnoops (key : Nat) (l : List Snp) (s : State) : State :=
  let s1 := (l.map (fun x => x.agent)).eraseDups.foldl (fun s' a =>
    match l.filter (fun x => x.agent == a), sfOf s' key with
    | x :: t, some e =>
      let ans := (x :: t).foldl (fun b y => ansJoin b (y.ans.getD .i)) .i
      let s2 := sfPut key (ansApply x.k a ans e) s'
      let s3 := if (x :: t).any (fun y => y.dirty) then
          countN 0x3004 (some (keyDom key)) (if a < 64 then portOfVcs? s' a else none) 1 s2 else s2
      if decide (ans = .e) then s3 else holdEnd key a s3
    | _, _ => s') s
  match l.head?, sfOf s1 key with
  | some x, some e => if e.grp && decide (x.k = .inv) then sfFree key s1 else s1
  | _, _ => s1

/-! ### Grants -/

/-- A host that is lost takes no grant; every other agent does. -/
def grantable (s : State) (r : Req) : Option Nat :=
  match r.who with
  | .host port _ _ => if hostGone s port then none else agentOf r
  | _ => agentOf r

/-- The directory after a grant (R139), the answer, and the end of the transaction. -/
def grant (r : Req) (d : Line) (p : Bool) (s : State) : State :=
  let key := keyOf r.dom r.da
  match grantable s r, r.op with
  | some a, .rdS =>
    let e := match sfOf s key with | some e => addSharer e a | none => ptrEntry .s [a]
    finishReq r (.data d p) (sfPut key e s)
  | some a, .rdA => finishReq r (.data d p) (holdAdd key a s.next (sfPut key (ptrEntry .e [a]) s))
  | some a, .invA => finishReq r .done (holdAdd key a s.next (sfPut key (ptrEntry .m [a]) s))
  | _, .invA => finishReq r .done s
  | _, _ => finishReq r (.data d p) s

/-- A grant of ownership needs a hold mark. -/
def needsHold (s : State) (r : Req) : Bool :=
  (grantable s r).isSome && (match r.op with | .rdA => true | .invA => true | _ => false)

/-! ### Meld units (R162-R166, R172, R174, R175) -/

/-- The atomic of a request, on a held line: the answer, and the line after it. -/
def meldExec (r : Req) (l : LcLine) : Res × LcLine :=
  match r.op with
  | .atomic op w off a b =>
    let old := meldOld l.data w off
    if l.poison then (.old old true, l)
    else if meldWrites op w old a then
      (.old old false, lcMerge l (meldLine off (meldNew op w old a b)) (maskAt off w.bytes) false)
    else (.old old false, l)
  | _ => (.done, l)

/-- Atomics queued for a line, oldest first. -/
def meldQueued (s : State) (k : Nat) : List Req :=
  s.reqs.filter (fun r => decide (r.phase = .meldQueue) && (keyOf r.dom r.da == k))

/-- A lease counts its local atomics (R181). -/
def leaseAtom (k : Nat) (s : State) : State :=
  if keyElse s k then
    match sfind? s.coh.leases k with
    | some x => { s with coh := { s.coh with leases := sput s.coh.leases k { x with atoms := x.atoms + 1 } } }
    | none => s
  else s

/-- A unit that holds a line executes queued atomics in order, at most `fuel` of them (R165, R166). -/
def meldRun : Nat → Req → State → State
  | 0, _, s => s
  | n + 1, r, s =>
    let k := keyOf r.dom r.da
    match lcOf s k with
    | none => s
    | some l =>
      let x := meldExec r l
      let s1 := leaseAtom k (countD 0x4001 r.dom (if x.2 = l then s else lcPut k x.2 s))
      let s2 := finishReq r x.1 s1
      match meldQueued s2 k with
      | r2 :: _ => meldRun n r2 s2
      | [] => s2

/-- MELD_CFG.BATCH; a near atomic under a lease executes the whole queue (R179). -/
def meldBatch (s : State) (k : Nat) : Nat :=
  if keyElse s k then s.reqs.length + 1 else regFld s aMeldCfg 6 0

/-! ### What a transaction does when its snoops are answered -/

/-- Asks the home of a line for what the request needs (R155, R178). -/
def askHome (r : Req) (op : Nat) (data : Option Line) (mask : Option Word) (args : Nat) (s : State) : State :=
  match homedElse s r.dom with
  | none => s
  | some k =>
    let m : Inter := {
      op := op, src := 0, dst := k, dom := r.dom, tag := r.id % 65536, notrack := !(decide (r.mode = .scoh))
      line := r.da / 64, data := data, mask := mask, args := args }
    let s1 := smpFlag r.smp 6 (toSwitch m false (reqPut { r with phase := .remoteWait } s))
    if op ≤ mHreqWr then countD 0x3009 r.dom s1 else s1

/-- A write, as a message: the mask travels with a partial write (R429). -/
def askWrite (r : Req) (s : State) : State :=
  askHome r mHreqWr (some r.data) (if r.mask = BitVec.allOnes 64 then none else some r.mask) 0 s

/-- A request that needs the backing of a line reads it through the placement stage. -/
def fetchLine (r : Req) (s : State) : State :=
  countD 0x3002 r.dom (reqPut { r with phase := .ready, fetch := true } s)

/-- The line is written to its backing by the request itself. -/
def backWrite (r : Req) (d : Line) (m : Word) (p : Bool) (s : State) : State :=
  reqPut { r with phase := .ready, fetch := false, data := d, mask := m, poison := p } s

/-- The clean fill policy of R131 takes a line read from backing. -/
def fillDue (s : State) (r : Req) : Bool :=
  let k := keyOf r.dom r.da
  let c := regFld s aCohCfg 21 20
  !(keyElse s k) && !(lcSets s == 0) && !(decide (r.dom = 4096)) &&
    (if c = 0 then false else if c = 1 then true
     else match r.op, grantable s r, sfOf s k with
      | .rdS, some a, some e => (2 ≤ (holders (addSharer e a)).length : Bool)
      | _, _, _ => false)

/-- A read takes its data: a fill where the policy asks for one, a hold mark where it needs one, then the grant. -/
def actRead (r : Req) (d : Line) (p hit : Bool) (s : State) : State :=
  let k := keyOf r.dom r.da
  let r1 := if hit then r else { r with got := some (d, p) }
  if needsHold s r && (512 ≤ holdsIn s (sliceOf k) : Bool) then waitIn r1 .holdWait s
  else if !hit && !p && fillDue s r then
    let x := lcPlace k { dirtyLine d p with dirty := false } s
    if x.1 then grant r d p x.2 else waitIn r1 .lcWait x.2
  else grant r d p s

/-- A write takes its place in the line cache; the line is O with no sharers (R139, R143). -/
def actWrite (r : Req) (s : State) : State :=
  let k := keyOf r.dom r.da
  if !(hasLc s k) || parcelGone s k then reqPut { r with phase := .ready, fetch := false } s
  else
    let l := match lcOf s k, r.got with
      | some l, _ => some (lcMerge l r.data r.mask r.poison)
      | none, some (d, p) => some (lcMerge (dirtyLine d p) r.data r.mask r.poison)
      | none, none => if r.mask = BitVec.allOnes 64 then some (dirtyLine r.data r.poison) else none
    match l with
    | none => fetchLine r s
    | some l =>
      let x := lcPlace k l s
      if x.1 then finishReq r .done (sfFree k x.2) else waitIn r .lcWait x.2

/-- An atomic executes on the held line, or on the line read from backing (R172, R175). -/
def actAtomic (r : Req) (s : State) : State :=
  let k := keyOf r.dom r.da
  match lcOf s k, r.got with
  | some _, _ => meldRun (meldBatch s k) r s
  | none, none => fetchLine r s
  | none, some (d, p) =>
    let x := meldExec r (dirtyLine d p)
    if p then finishReq r x.1 (countD 0x4001 r.dom s)
    else if !(hasLc s k) then
      match r.op, x.1 with
      | .atomic _ w off _ _, .old v _ =>
        if x.2 = dirtyLine d p then finishReq r x.1 (countD 0x4001 r.dom s)
        else countD 0x4001 r.dom (backWrite { r with old := v } x.2.data (maskAt off w.bytes) false s)
      | _, _ => s
    else
      let y := lcPlace k { dirtyLine d p with dirty := false } s
      if y.1 then meldRun (meldBatch s k) r y.2 else waitIn r .lcWait y.2

/-- LINEFLUSH (R154): a DIRTY line is written to backing; INVALIDATE drops the line. -/
def actFlush (r : Req) (inv : Bool) (s : State) : State :=
  let k := keyOf r.dom r.da
  match lcOf s k with
  | none => finishReq r .done s
  | some l =>
    let r1 := { r with oldP := l.poison }
    if l.dirty then countD 0x3006 r.dom (backWrite r1 l.data (BitVec.allOnes 64) l.poison s)
    else finishReq r (if l.poison then .status .poisoned else .done) (if inv then lcDel k s else s)

/-- Changes a predictor counter, saturating at 0 and 3 (R180). -/
def predIdx (dom da : Nat) : Nat :=
  let g := dom * 2 ^ 30 + da / 2 ^ 16 % 2 ^ 30
  (g % 2 ^ 15) ^^^ (g / 2 ^ 15 % 2 ^ 15) ^^^ (g / 2 ^ 30 % 2 ^ 12)

/-- The predictor counter of a region. -/
def predOf (s : State) (i : Nat) : Nat := sget 1 s.meld.pred i

/-- Writes a predictor counter. -/
def predPut (i v : Nat) (s : State) : State := { s with meld := { s.meld with pred := sset 1 s.meld.pred i v } }

/-- Trains the predictor up or down. -/
def predTrain (i : Nat) (up : Bool) (s : State) : State :=
  predPut i (if up then min 3 (predOf s i + 1) else predOf s i - 1) s

/-- A lease recalled by the home trains the predictor (R181). -/
def leaseRecall (k : Nat) (l : Lease) (s : State) : State :=
  let i := predIdx (keyDom k) (keyDa k)
  let s1 := countD 0x4004 (keyDom k) s
  if regFld s aMeldPredCfg 31 24 ≤ l.atoms then predTrain i true s1
  else if s.time < l.time + regFld s aMeldPredCfg 11 0 * 1000 + 1 then
    countD 0x4005 (keyDom k) (predTrain i false s1)
  else s1

/-- A remote switch answers a snoop from the home with one HRSP that carries dirty data (R157). -/
def actHome (r : Req) (sw tag : Nat) (k : Snoop) (s : State) : State :=
  let key := keyOf r.dom r.da
  let lease := sfind? s.coh.leases key
  let own := sfOf s key
  let stays : Bool := decide (k = .cur) && lease.isSome && (match own with | some e => owned e | none => true)
  let op := if stays then mHrspE
    else if decide (k = .inv) then mHrspI
    else if own.isSome then mHrspS else mHrspI
  let data := match lease with | some l => if l.dirty then some l.data else none | none => none
  let pois := match lease with | some l => l.dirty && l.poison | none => false
  let m : Inter := {
    op := op, src := 0, dst := sw, dom := r.dom, tag := tag, st := b2n pois, line := r.da / 64, data := data }
  let s1 := toSwitch m false s
  let s2 := match lease with
    | some l =>
      if stays then { s1 with coh := { s1.coh with leases := sput s1.coh.leases key { l with dirty := false } } }
      else leaseRecall key l { s1 with coh := { s1.coh with leases := sdel s1.coh.leases key } }
    | none => s1
  finishReq r .done (if decide (k = .inv) then sfFree key s2 else s2)

/-- The oldest lease returns to the home with HWB (R156), once its own hosts hold no ownership. -/
def actLeaseReturn (r : Req) (s : State) : State :=
  let key := keyOf r.dom r.da
  match sfind? s.coh.leases key, homedElse s r.dom with
  | some l, some sw =>
    let m : Inter := {
      op := mHwb, src := 0, dst := sw, dom := r.dom, tag := r.id % 65536, st := b2n (l.dirty && l.poison), line := r.da / 64
      data := if l.dirty then some l.data else none, args := at_ (b2n (sfOf s key).isSome) 22 }
    finishReq r .done (toSwitch m false { s with coh := { s.coh with leases := sdel s.coh.leases key } })
  | _, _ => finishReq r .done s

/-- The transaction of a request acts: every holder it had to snoop has answered (R139). -/
def homeAct (r0 : Req) (s : State) : State :=
  let r := { r0 with phase := .open_ }
  let k := keyOf r.dom r.da
  let bare := keyElse s k && (sfind? s.coh.leases k).isNone
  match r.op with
  | .snoop sn => match r.who with
    | .home sw tag => actHome r sw tag sn s
    | _ => actLeaseReturn r s
  | .clean => finishReq r .done s
  | .flushKeep => if bare then waitIn r .remoteWait (emit (.link 255 1 r.id) s) else actFlush r false s
  | .flushInv => if bare then waitIn r .remoteWait (emit (.link 255 1 r.id) s) else actFlush r true s
  | .atomic _ _ _ _ _ => if bare then askHome r mHreqX none none 0 s else actAtomic r s
  | .wr => if bare then askWrite r s else actWrite r s
  | .wrPtl => if bare then askWrite r s else actWrite r s
  | op =>
    if bare then askHome r (match op with | .rdS => mHreqS | .rdI => mHreqCur | _ => mHreqX) none none 0 s
    else match op, lcOf s k, r.got with
      | .invA, _, _ =>
        if needsHold s r && (512 ≤ holdsIn s (sliceOf k) : Bool) then waitIn r .holdWait s else grant r 0 false s
      | _, some l, _ => actRead r l.data l.poison true (smpFlag r.smp 0 (countD 0x3001 r.dom s))
      | _, none, some (d, p) => actRead r d p false s
      | _, none, none => fetchLine r s

/-! ### Opening and driving transactions -/

/-- Snoops the holders a request needs, or waits for the owner's hold mark (R138, R139). Answers whether the request may
act at once. -/
def txnSnoop (r : Req) (s : State) : Bool × State :=
  let key := keyOf r.dom r.da
  match sfOf s key, txnOf s r.id with
  | some e, some t =>
    match (snoopsFor r.op e).map (fun p => (p.1, p.2.filter (fun a => !(agentOf r == some a)))) with
    | none => (true, s)
    | some (_, []) => (true, s)
    | some (k, a :: l) =>
      if owned e && holdActive s key a then (false, smpWait r.smp (txnPut { t with await := some a } s))
      else
        let x := snoopAll key k (a :: l) s
        let s1 := smpFlag r.smp 2 (smpWait r.smp (txnPut { t with await := none, snoops := x.1 } x.2))
        if x.1.any Snp.isOpen then (false, s1)
        else (true, applySnoops key x.1 (txnPut { t with await := none, snoops := [] } s1))
  | _, _ => (true, s)

/-- A request opens its line's transaction: its own copy is dropped, snoops go out, or it acts at once (R135, R139). -/
def homeStart (r0 : Req) (s : State) : State :=
  let key := keyOf r0.dom r0.da
  let r := { r0 with phase := .open_ }
  let s1 := txnAdd { key := key, req := r.id } (reqPut r s)
  let s2 := match agentOf r with | some a => holdEnd key a (leaveLine key a s1) | none => s1
  let x := txnSnoop r s2
  if x.1 then homeAct r x.2 else x.2

/-- A transaction whose snoops have all been answered goes on. -/
def txnCheck (req : Nat) (s : State) : State :=
  match txnOf s req with
  | none => s
  | some t =>
    if t.await.isSome || t.snoops.any Snp.isOpen || t.snoops.isEmpty then s
    else
      let s1 := applySnoops t.key t.snoops (txnPut { t with snoops := [] } s)
      if t.victim then
        txnDel req { s1 with coh := { s1.coh with victims := s1.coh.victims.filter (fun k => !(k == t.key)) } }
      else match reqOf s1 req with
        | some r => homeAct r (smpGo r.smp s1)
        | none => txnDel req s1

/-- The transactions that waited for an owner's hold mark go on: the snoops they need now are sent (R138). -/
def holdRelease (key a : Nat) (s : State) : State :=
  s.coh.txns.foldl (fun s' t =>
    if t.key = key && t.await == some a && !(holdActive s' key a) then
      match reqOf s' t.req with
      | some r =>
        let x := txnSnoop r (txnPut { t with await := none } s')
        if x.1 then homeAct r (smpGo r.smp x.2) else x.2
      | none => s'
    else s') s

/-! ### Snoop filter ways and victims (R147) -/

/-- Whether a request takes a new entry. -/
def needsEntry (r : Req) : Bool :=
  (agentOf r).isSome && (match r.op with | .rdS => true | .rdA => true | .invA => true | _ => false)

/-- Entries, and opened requests that will take one, in a line's set. -/
def setUsed (s : State) (k : Nat) : Nat :=
  let same := fun x => (sliceOf x == sliceOf k) && (setOf x == setOf k)
  (s.coh.sf.filter (fun p => same p.1)).length
    + (s.coh.txns.filter (fun t => !t.victim && same t.key && (sfOf s t.key).isNone &&
        (match reqOf s t.req with | some r => needsEntry r | none => false))).length

/-- Order in which victims are taken: S with the fewest agents, then E, then M, then O. -/
def victimRank (s : State) (p : Nat × SfEntry) : Nat :=
  (match dirState s p.1 p.2 with
   | .s => (holders p.2).length | .e => 100 | .m => 200 | .o => 300 | .wbp => 400) * 2 ^ 64 + p.2.used

/-- The victim of a full set, R147. -/
def sfVictim (s : State) (k : Nat) : Option Nat :=
  ((s.coh.sf.filter (fun p => (sliceOf p.1 == sliceOf k) && (setOf p.1 == setOf k) && !(txnOn s p.1)
      && !(s.coh.holds.any (fun h => (h.key == p.1) && ((h.til == 0) || (s.time < h.til : Bool)))))).foldl
    (fun b p => match b with
      | some (q : Nat × SfEntry) => if victimRank s p < victimRank s q then some p else some q
      | none => some p) none).map (fun p => p.1)

/-- The victim moves to the victim buffer and its holders are invalidated. -/
def sfEvict (k : Nat) (s : State) : State :=
  match sfOf s k with
  | none => s
  | some e =>
    let id := s.next
    let x := snoopAll k .inv (holders e) (takeNext s)
    let s1 := countD 0x3005 (keyDom k) (sfFree k x.2)
    if x.1.any Snp.isOpen then
      txnAdd { key := k, req := id, victim := true, snoops := x.1 } { s1 with coh := { s1.coh with victims := k :: s1.coh.victims } }
    else s1

/-- A way for a new entry: at once, by a victim, or none yet. -/
def sfRoom (k : Nat) (s : State) : Option State :=
  if setUsed s k < 16 then some s
  else if 64 ≤ (s.coh.victims.filter (fun v => sliceOf v == sliceOf k)).length then none
  else match sfVictim s k with
    | some v => some (sfEvict v s)
    | none => none

/-- A request for a line opens, or waits for a tracker or a way (R137, R147; log entry 23, DEDUCED). -/
def tryOpen (r : Req) (s : State) : State :=
  let k := keyOf r.dom r.da
  if 224 ≤ trackers s (sliceOf k) then waitIn r .trackerWait s
  else if needsEntry r && (sfOf s k).isNone then
    match sfRoom k s with
    | some s1 => homeStart r s1
    | none => waitIn r .trackerWait s
  else homeStart r s

/-! ### Write-backs and clean evictions (R139, R148) -/

/-- An agent has an unanswered snoop of a line. -/
def snoopedNow (s : State) (k a : Nat) : Bool :=
  (txnsOf s k).any (fun t => t.snoops.any (fun x => (x.agent == a) && x.isOpen))

/-- Marks the snoops of an agent: data seen, or placed. -/
def snpMark (k a : Nat) (f : Snp → Snp) (s : State) : State :=
  { s with coh := { s.coh with txns := s.coh.txns.map (fun t =>
      if t.key = k then { t with snoops := t.snoops.map (fun x => if x.agent = a && x.isOpen then f x else x) } else t) } }

/-- A write-back is placed: the directory moves (R139, R140), the requester is answered, and a transaction that waited for
it goes on. -/
def wbApply (r : Req) (a : Nat) (s : State) : State :=
  let k := keyOf r.dom r.da
  if snoopedNow s k a then
    let ts := (txnsOf s k).map (fun t => t.req)
    let s1 := snpMark k a (fun x => { x with data := false, dirty := true }) s
    let s2 := match sfOf s1 k with
      | some e => if decide (e.st = .wbp) then sfPut k { e with st := .m } s1 else s1
      | none => s1
    ts.foldl (fun s' t => txnCheck t s') (finishReq r .done s2)
  else
    let s1 := match r.mv with
      | .a => s
      | .s => holdEnd k a (sfPut k (ptrEntry .s [a]) s)
      | _ => holdEnd k a (leaveLine k a s)
    holdRelease k a (finishReq r .done s1)

/-- A write-back whose data cannot be placed at once holds the line: in WBP while a snoop to its owner is outstanding
(R148), else with a transaction of its own. -/
def wbBlock (r : Req) (a : Nat) (s : State) : State :=
  let k := keyOf r.dom r.da
  if snoopedNow s k a then
    let s1 := snpMark k a (fun x => { x with data := true }) s
    match sfOf s1 k with
    | some e => if owned e then sfPut k { e with st := .wbp } s1 else s1
    | none => s1
  else if (txnOf s r.id).isSome || txnOn s k then s else txnAdd { key := k, req := r.id } s

/-- A write-back's data goes into the line cache, or to backing where there is none (R131, R143). -/
def wbPlace (r0 : Req) (s : State) : State :=
  let r := { r0 with wb := true }
  match agentOf r with
  | none => s
  | some a =>
    let k := keyOf r.dom r.da
    if !(hasLc s k) || parcelGone s k then wbBlock r a (reqPut { r with phase := .ready, fetch := false } s)
    else
      let l := match lcOf s k, r.got with
        | some l, _ => some (lcMerge l r.data r.mask r.poison)
        | none, some (d, p) => some (lcMerge (dirtyLine d p) r.data r.mask r.poison)
        | none, none => if r.mask = BitVec.allOnes 64 || keyElse s k then some (dirtyLine r.data r.poison) else none
      match l with
      | none => wbBlock r a (fetchLine r s)
      | some l =>
        let x := lcPlace k l s
        if x.1 then wbApply r a (reqPut r x.2) else wbBlock r a (waitIn r .lcWait x.2)

/-- A clean eviction by a holder (R139). -/
def cleanEvict (r : Req) (s : State) : State :=
  let k := keyOf r.dom r.da
  match agentOf r with
  | none => finishReq r .done s
  | some a =>
    if ownerOf s k == some a then holdRelease k a (finishReq r .done (holdEnd k a (leaveLine k a s)))
    else finishReq r .done (leaveLine k a s)

/-- A write is a write-back: its host owns the line, or is being snooped for it (R139). -/
def isWriteBack (s : State) (r : Req) : Bool :=
  match agentOf r, r.op with
  | some a, .wr => ownerOf s (keyOf r.dom r.da) == some a || snoopedNow s (keyOf r.dom r.da) a
  | some a, .wrPtl => ownerOf s (keyOf r.dom r.da) == some a || snoopedNow s (keyOf r.dom r.da) a
  | _, _ => false

/-! ### Arrival at the home slice -/

/-- Other requests wait for the line, or hold it. -/
def lineBusy (s : State) (r : Req) : Bool :=
  let k := keyOf r.dom r.da
  txnOn s k || s.reqs.any (fun x => !(x.id == r.id) && (keyOf x.dom x.da == k) &&
    (decide (x.phase = .lineQueue) || decide (x.phase = .meldQueue) || decide (x.phase = .trackerWait))
    && decide (x.mode = .scoh))

/-- The Meld unit of an atomic has a tracker and a line slot for it (R164). -/
def meldRoom (s : State) (k : Nat) : Bool :=
  let mine := s.reqs.filter (fun x => (match x.op with | .atomic _ _ _ _ _ => true | _ => false)
    && !(decide (x.phase = .meldTracker)) && (sliceOf (keyOf x.dom x.da) == sliceOf k))
  let lines := (mine.map (fun x => keyOf x.dom x.da)).eraseDups
  (mine.length < 64 : Bool) && ((lines.length < 32 : Bool) || lines.contains k)

/-- A snoop from the home waits only for a local transaction that is not itself waiting for the home (log entry 24, DEDUCED). -/
def snoopWaits (s : State) (k : Nat) : Bool :=
  (txnsOf s k).any (fun t => match reqOf s t.req with | some r => !(decide (r.phase = .remoteWait)) | none => true)

/-- An atomic enters its Meld unit, R164; in a coherent window the unit enters the line queue (R166), elsewhere it serves
one atomic of a line at a time (R165, R173). -/
def enterMeld (r : Req) (s : State) : State :=
  let k := keyOf r.dom r.da
  let busy := s.reqs.any (fun x => !(x.id == r.id) && (keyOf x.dom x.da == k) && !(decide (x.phase = .meldTracker))
    && (match x.op with | .atomic _ _ _ _ _ => true | _ => false))
  if decide (r.mode = .scoh) then
    (if lineBusy s r || busy then waitIn r .meldQueue s else tryOpen r s)
  else if busy then waitIn r .meldQueue s
  else reqPut { r with phase := .ready, fetch := true } s

/-- An atomic arrives at its Meld unit. -/
def atomicArrive (r : Req) (s : State) : State :=
  let k := keyOf r.dom r.da
  if s.reqs.any (fun x => decide (x.phase = .meldTracker) && (sliceOf (keyOf x.dom x.da) == sliceOf k) && !(x.id == r.id))
      || !(meldRoom { s with reqs := s.reqs.filter (fun x => !(x.id == r.id)) } k)
  then waitIn r .meldTracker s
  else enterMeld r s

/-- The number of atomics queued ahead of one at its unit, and whether all came from the same switch (R178): the ARGS of its
HMELD_RSP. -/
def meldAhead (s : State) (r : Req) : Nat :=
  let k := keyOf r.dom r.da
  let ahead := s.reqs.filter (fun x => !(x.id == r.id) && (keyOf x.dom x.da == k)
    && (match x.op with | .atomic _ _ _ _ _ => true | _ => false))
  let same := ahead.all (fun x => match x.who, r.who with | .remote a _, .remote b _ => a == b | _, _ => false)
  at_ (min 255 ahead.length) 16 + at_ (b2n same) 15

/-- R177: how an atomic to a line homed elsewhere runs: near, or far. -/
def atomicNear (s : State) (r : Req) : Bool :=
  let k := keyOf r.dom r.da
  decide (r.mode = .scoh) && ((sfind? s.coh.leases k).isSome ||
    (let m := regFld s aMeldPredCfg 13 12
     if m = 1 then false else if m = 2 then true else (2 ≤ predOf s (predIdx r.dom r.da) : Bool)))

/-- A far atomic is sent to the home as HMELD (R178). -/
def farAtomic (r : Req) (s : State) : State :=
  match r.op with
  | .atomic op w off a b =>
    let s1 := askHome r mHmeld (some (BitVec.ofNat 512 (a % 2 ^ 128 + b % 2 ^ 128 * 2 ^ 128))) none
      (at_ op.code 20 + at_ w.code 18 + at_ off 12) (countD 0x4002 r.dom s)
    { s1 with meld := { s1.meld with far := s1.meld.far ++ [{ tag := r.id % 65536, req := r.id, time := s1.time }] } }
  | _ => s

/-- A request reaches the home slice of its line (R19, R135). -/
def enterHome (r0 : Req) (s : State) : State :=
  let k := keyOf r0.dom r0.da
  let r := { r0 with phase := .lineQueue }
  let s1 := smpUpd r.smp (fun x => { x with slice := sliceOf k }) (reqPut r s)
  match r.op with
  | .clean => cleanEvict r s1
  | .atomic _ _ _ _ _ =>
    if keyElse s k then
      (if atomicNear s r then atomicArrive r (countD 0x4003 r.dom s1) else farAtomic r s1)
    else atomicArrive { r with hpa := if (match r.who with | .remote _ _ => true | _ => false) then meldAhead s1 r else r.hpa } s1
  | .snoop _ => if snoopWaits s1 k then waitIn r .lineQueue s1 else homeStart r s1
  | _ =>
    if isWriteBack s r then
      (if 256 ≤ trackers s (sliceOf k) then waitIn r .trackerWait s1 else wbPlace r s1)
    else if lineBusy s1 r then waitIn r .lineQueue s1
    else tryOpen r s1

/-- The line queue's position of a request, R136. -/
def linePos (r : Req) : Nat :=
  match r.who with
  | .host p _ _ => min p 96
  | _ => 96

/-- Requests that wait on a line's queue. -/
def lineWaiters (s : State) (k : Nat) : List Req :=
  s.reqs.filter (fun r => (keyOf r.dom r.da == k) && decide (r.mode = .scoh)
    && (decide (r.phase = .lineQueue) || decide (r.phase = .meldQueue)))

/-- The slice chooses the next request of a line: from RR, the first position with a waiting request, its oldest; RR moves
past it (R136). -/
def lineGrant (k : Nat) (s : State) : State :=
  let rr := sget 0 s.coh.rr (sliceOf k)
  let w := lineWaiters s k
  match (List.range 97).findSome? (fun i => w.find? (fun r => linePos r == (rr + i) % 97)) with
  | none => s
  | some r => tryOpen (r) (smpGo r.smp { s with coh := { s.coh with rr := sset 0 s.coh.rr (sliceOf k) ((linePos r + 1) % 97) } })

/-! ### What backing answers -/

/-- The backing of a line has been read for a coherent request. -/
def cohFetched (r : Req) (d : Line) (p : Bool) (s : State) : State :=
  let r1 := { r with got := some (d, p), fetch := false, phase := .open_ }
  if r.wb then wbPlace r1 (reqPut r1 s) else homeAct r1 (reqPut r1 s)

/-- A coherent request's own write to backing is complete: a LINEFLUSH, or a write with no line cache (R131, R154, R172). -/
def cohWritten (r : Req) (s : State) : State :=
  let k := keyOf r.dom r.da
  match r.op with
  | .flushKeep =>
    finishReq r (if r.oldP then .status .poisoned else .done) (match lcOf s k with
      | some l => if l.data = r.data then lcPut k { l with dirty := false } s else s
      | none => s)
  | .flushInv => finishReq r (if r.oldP then .status .poisoned else .done) (lcDel k s)
  | .atomic _ _ _ _ _ => finishReq r (.old r.old false) (sfFree k s)
  | _ =>
    if r.wb then (match agentOf r with | some a => wbApply r a s | none => finishReq r .done s)
    else finishReq r .done (sfFree k s)

end Sys2Proof.Machine
end

