-- ==== Sys2Proof/Machine/Path.lean ====
section
/-!
DEFINITION. Machine/Path.lean: requests at the placement stage (spec 01 R18-R24, 07 R188-R195, 204): a request that is ready
looks up the placement TLB and goes to its locations, waits, or ends; and what happens when its locations have answered.
-/
namespace Sys2Proof.Machine

/-! ### Atomics outside SHARED_COHERENT windows (R165, R173) -/

/-- The next atomic of a line starts. -/
def meldNext (k : Nat) (s : State) : State :=
  match (meldQueued s k).filter (fun r => !(decide (r.mode = .scoh))) with
  | r :: _ => reqPut { r with phase := .ready, fetch := true } s
  | [] => s

/-- The unit has read the target: it computes, and writes only the target bytes back (R173). -/
def meldPlain (r : Req) (d : Line) (p : Bool) (s : State) : State :=
  let k := keyOf r.dom r.da
  let x := meldExec r (dirtyLine d p)
  let s1 := countD 0x4001 r.dom s
  match r.op, x.1 with
  | .atomic _ w off _ _, .old v _ =>
    if x.2 = dirtyLine d p then meldNext k (finishReq r x.1 s1)
    else backWrite { r with old := v } x.2.data (maskAt off w.bytes) false s1
  | _, _ => s1

/-! ### What the locations answer -/

/-- A request has its data. -/
def gotData (r : Req) (d : Line) (p : Bool) (s : State) : State :=
  match r.op with
  | .atomic _ _ _ _ _ =>
    if decide (r.mode = .scoh) then cohFetched r d p s else meldPlain { r with fetch := false } d p s
  | _ => if r.fetch then cohFetched r d p s else finishReq r (.data d p) s

/-- A request's write has reached its completion point (R23). -/
def gotDone (r : Req) (s : State) : State :=
  match r.who, r.op with
  | .wback 0, _ => reqPut { r with phase := .wbDone } s
  | .wback _, _ => reqDel r.id s
  | _, .atomic _ _ _ _ _ =>
    if decide (r.mode = .scoh) then cohWritten r s
    else meldNext (keyOf r.dom r.da) (finishReq r (.old r.old false) s)
  | _, _ => if decide (r.mode = .scoh) then cohWritten r s else finishReq r .done s

/-- The placement stage refuses a request under R188: BIND_UNBACKED of R43. -/
def unbacked (r : Req) (s : State) : State :=
  let s1 := raiseD fBindUnbacked r.dom (countD 0x1005 r.dom s)
  match r.who with
  | .wback 0 => reqPut { r with phase := .wbDone } s1
  | .wback _ => reqDel r.id s1
  | _ => if r.wb then cohWritten r s1 else finishReq r .refused s1

/-! ### The locations of an access -/

/-- A read of a near-tier line enters its channel's read queue, or waits for room (R231). -/
def oasisRead (r : Req) (parcel : Nat) (s : State) : State :=
  let oa := nearOa parcel (r.da % 0x40000)
  let c := oaChannel oa
  if 128 ≤ (rdQ s c).length then waitIn r (.oasisFull c) s
  else reqPut { r with phase := .oasisRd c oa, placed := true } { s with oas := { s.oas with
      chRd := sput s.oas.chRd c (rdQ s c ++ [{ oa := oa, req := r.id, wr := none }]) } }

/-- A write enters a channel's write queue. -/
def oasisPut (oa id : Nat) (l : OLine) (m : Word) (s : State) : State :=
  let c := oaChannel oa
  { s with oas := { s.oas with chWr := sput s.oas.chWr c (wrQ s c ++ [{ oa := oa, req := id, wr := some (l, m) }]) } }

/-- The channel of a location's write, when its queue is full. -/
def oasisBlocked (s : State) (r : Req) (ls : List Loc) : Option Nat :=
  ls.findSome? (fun l =>
    if l.1 = 255 then
      let c := oaChannel (nearOa l.2 (r.da % 0x40000))
      if 128 ≤ (wrQ s c).length then some c else none
    else none)

/-- Writes one location: an Oasis write is complete when queued, a pool write is a leg. -/
def writeLoc (dest : Bool) (r : Req) (l : Loc) (x : List Leg × State) : List Leg × State :=
  if l.1 = 255 then
    (x.1, oasisPut (nearOa l.2 (r.da % 0x40000)) r.id
      { data := r.data, tag := r.dom, pois := r.poison, scr := false } r.mask x.2)
  else
    let y := sendLeg r l false dest x.2
    (x.1 ++ [y.1], y.2)

/-- A write goes to its locations, and to a move's destinations (R22, R204). -/
def writeTo (r : Req) (ls ds : List Loc) (s : State) : State :=
  match oasisBlocked s r (ls ++ ds) with
  | some c => waitIn r (.oasisFull c) s
  | none =>
    let x := ds.foldl (fun x l => writeLoc true r l x) (ls.foldl (fun x l => writeLoc false r l x) ([], s))
    let r1 := { r with phase := .pool, legs := x.1, placed := true }
    if x.1.isEmpty then gotDone r1 (reqPut r1 x.2) else reqPut r1 x.2

/-- A read goes to its location (R22). -/
def readFrom (r : Req) (l : Loc) (s : State) : State :=
  if l.1 = 255 then oasisRead r l.2 s
  else
    let y := sendLeg r l true false s
    reqPut { r with phase := .pool, legs := [y.1], placed := true } y.2

/-! ### Fills (R193, R194) -/

/-- A fill starts; without a parcel that meets the constraints it stalls (R194). -/
def fillStart (idx dom : Nat) (s : State) : State :=
  let stall := (fillChoice s dom).isNone
  let f : FillW := { idx := idx, dom := dom, stall := stall, since := s.time }
  let s1 := { s with dlr := { s.dlr with fills := s.dlr.fills ++ [f] } }
  if stall then raiseD fDlrFillStall dom s1 else s1

/-! ### The placement stage -/

/-- Accesses that heat counts (R195): host requests, Meld accesses and aperture accesses. -/
def heatOk (r : Req) : Bool :=
  match r.who with
  | .wback _ => false
  | .flush _ => false
  | .mgmt _ => false
  | .home _ _ => false
  | _ => true

/-- An access is eligible on a backed kind only. -/
def backedKind (e : MapEntry) : Bool := match e.kind with | .pool => true | .oasis => true | .duplex => true | _ => false

/-- The TLB holds the entry: the access goes where it says. -/
def placeHit (r : Req) (idx : Nat) (e : MapEntry) (s : State) : State :=
  let s1 := smpUpd r.smp (fun x => { x with loc := e.kind.code, dev := if backedKind e then e.devA else 0xFF })
    (countD 0x5001 r.dom s)
  let go := fun (x : State) =>
    let y := placeCount x e r.dom
    if heatOk r && backedKind e then heatTouch idx (accWr r) r.dom y else y
  match routeOf s r idx e with
  | .unbacked => unbacked r s1
  | .hold ph => waitIn r ph s1
  | .fill => waitIn r (.fillHold idx) (fillStart idx r.dom s1)
  | .now l p => gotData r l p (go s1)
  | .drop => gotDone r (if decide (e.kind = .poisoned) then countD 0x1006 r.dom (go s1) else go s1)
  | .read l => readFrom r l (go s1)
  | .write ls ds => writeTo r ls ds (go s1)

/-- A ready request enters the placement stage (R190). -/
def placeStep (r : Req) (s : State) : State :=
  let idx := idxOf s r.dom r.da
  match behind s r with
  | some ph => waitIn r ph s
  | none =>
    match sfind? s.dlr.tlb idx with
    | some e => placeHit r idx e s
    | none =>
      let s1 := smpFlag r.smp 1 (countD 0x5002 r.dom s)
      if s.dlr.misses.contains idx then waitIn r (.tlbFill idx) s1
      else if 512 ≤ s.dlr.misses.length then waitIn r (.tlbFull idx) s1
      else waitIn r (.tlbFill idx) { s1 with dlr := { s1.dlr with misses := s1.dlr.misses ++ [idx] } }

/-- Requests that are ready pass the placement stage, in arrival order. -/
def pumpN : Nat → State → State
  | 0, s => s
  | n + 1, s =>
    match s.reqs.find? (fun r => decide (r.phase = .ready)) with
    | none => s
    | some r => pumpN n (placeStep r (smpGo r.smp s))

/-- The placement stage runs until nothing is ready. -/
def pump (s : State) : State := pumpN (8 * (s.reqs.length + 4)) s

/-- Requests in a phase become ready again. -/
def wake (p : Phase → Bool) (s : State) : State :=
  { s with reqs := s.reqs.map (fun r => if p r.phase then { r with phase := .ready } else r) }

/-! ### TLB fills (R190, R191) -/

/-- Room in the TLB: a set of 16 ways per map index modulo 16,384 gives up one entry (log entry 25, DEDUCED). -/
def tlbRoom (idx : Nat) (s : State) : SMap MapEntry :=
  let set := s.dlr.tlb.filter (fun p => p.1 % 16384 == idx % 16384)
  if set.length < 16 then s.dlr.tlb
  else match set.head? with
    | some p => sdel s.dlr.tlb p.1
    | none => s.dlr.tlb

/-- The map entry of a miss arrives: the TLB holds it, and the requests that missed look up again. -/
def tlbFill (idx : Nat) (s : State) : State :=
  let s1 := { s with dlr := { s.dlr with
      tlb := sput (tlbRoom idx s) idx (mapOf s idx)
      misses := s.dlr.misses.filter (fun k => !(k == idx)) } }
  let n := match s1.reqs.find? (fun r => match r.phase with | .tlbFull _ => true | _ => false) with
    | some r => (match r.phase with | .tlbFull i => some i | _ => none)
    | none => none
  wake (fun p => decide (p = .tlbFill idx) || (match n with | some i => decide (p = .tlbFull i) | none => false)) s1

/-! ### Completions -/

/-- The request that owns a device tag, and the leg. -/
def legOf (s : State) (port tag : Nat) : Option (Req × Leg) :=
  s.reqs.findSome? (fun r => (r.legs.find? (fun l => (l.tag == tag) && (l.port == port))).map (fun l => (r, l)))

/-- A leg has ended. -/
def legDone (r : Req) (l : Leg) : Req := { r with legs := r.legs.filter (fun x => !(x.tag == l.tag)) }

/-- A write leg has ended: the request is complete when every leg is (R23, R205). -/
def legCmp (r : Req) (l : Leg) (s : State) : State :=
  let r1 := legDone r l
  if r1.legs.isEmpty then gotDone r1 (reqPut r1 s) else reqPut r1 s

end Sys2Proof.Machine
end

