-- ==== Sys2Proof/Machine/Capacity.lean ====
section
/-!
DEFINITION. Machine/Capacity.lean: moves that end (spec 07 R208), entries that leave a domain (R296), releases and offers of
capacity (spec 02 R44, R45), retirement and evacuation (R291), and what of them goes on by itself when a step ends.
-/
namespace Sys2Proof.Machine

/-! ### Moves that end (R208) -/

/-- The detail word of a move's result. -/
def moveDetail (cause gen dev : Nat) : Word := word (at_ cause 56 + at_ gen 32 + dev)

/-- The outcome of a move is posted: its slot, its counter. -/
def movePost (slot dom : Nat) (st : Status) (cause gen dev : Nat) (s : State) : State :=
  countD (if cause = 0 then 0x5022 else 0x5023) dom (slotPost slot st (moveDetail cause gen dev) s)

/-- The status of a cause code, R208. -/
def causeStatus : Nat → Status
  | 0 => .ok | 1 => .conflict | 2 => .faulted | 3 => .faulted | 4 => .timeout | 5 => .denied | 6 => .faulted
  | _ => .noSpace

/-- Destination legs of a request are given up: the write completes on the source alone (R205). -/
def dropDest (dom idx : Nat) (s : State) : State :=
  s.reqs.foldl (fun s' r =>
    if r.dom = dom && idxOf s' r.dom r.da == idx && r.legs.any (fun l => l.dest) then
      let r1 := { r with legs := r.legs.filter (fun l => !l.dest) }
      if r1.legs.isEmpty then gotDone r1 (reqPut r1 s') else reqPut r1 s'
    else s') s

/-- Accesses held by a move proceed. -/
def wakeMove (idx : Nat) (s : State) : State :=
  wake (fun p => decide (p = .moveHold idx) || decide (p = .chunkHold idx)) s

/-- A running move ends ABORTED (R208): MSTATE NONE, CARAVAN 0, GEN unchanged; the destination is scrubbed. -/
def moveAbort (n cause : Nat) (s : State) : State :=
  let c := carOf s n
  if decide (c.st = .none) then s else
  let e := mapOf s c.idx
  let s1 := mapNow c.idx { e with ms := .none, car := 0 } s
  let s2 := scrubAll c.dest s1
  let s3 := carPut n { done := c.done, aborted := satAdd (2 ^ 32 - 1) c.aborted 1 } s2
  let dev := match c.dest with | l :: _ => l.1 | [] => 0
  movePost c.slot c.dom (causeStatus cause) cause e.gen dev (wakeMove c.idx (dropDest c.dom c.idx s3))

/-- Running moves that satisfy a condition end with a cause. -/
def abortMoves (p : Caravan → Bool) (cause : Nat) (s : State) : State :=
  s.dlr.cars.foldl (fun s' x => if p (carOf s' x.1) && !(decide ((carOf s' x.1).st = .none)) then moveAbort x.1 cause s' else s') s

/-- A domain has left ACTIVE: its running moves end with CAUSE 5. -/
def domLeft (d : Nat) (s : State) : State := abortMoves (fun c => c.dom == d) 5 s

/-! ### Entries that leave a domain (R45, R296) -/

/-- An access that passed the placement stage and has not completed. -/
def inFlight (r : Req) : Bool := match r.phase with | .pool => true | .oasisRd _ _ => true | _ => false

/-- Serial numbers of the accesses in flight on a map index. -/
def flightOn (s : State) (idx : Nat) : List Nat :=
  (s.reqs.filter (fun r => inFlight r && (idxOf s r.dom r.da == idx))).map (fun r => r.id)

/-- A fill in progress on an entry ends with it; the accesses it held look the entry up again. -/
def fillDrop (idx : Nat) (s : State) : State :=
  wake (fun p => decide (p = .fillHold idx))
    { s with dlr := { s.dlr with fills := s.dlr.fills.filter (fun f => !(f.idx == idx)) } }

/-- The promise of an entry ends when it leaves KIND ZERO or EXT = 1 (R192). -/
def promiseLeave (e : MapEntry) (s : State) : State :=
  if decide (e.kind = .zero) && e.ext then promiseEnd (promiseOf s e.tag) s else s

/-- The move of an entry is aborted by FORCE (R211). -/
def forceMove (idx : Nat) (s : State) : State :=
  if decide ((mapOf s idx).ms = .none) then s else moveAbort (mapOf s idx).car 1 s

/-- An entry returns to its reset value but for GEN (R296): `now` in every TLB copy too. Answers its former backing. -/
def entryRelease (now : Bool) (idx : Nat) (s : State) : List Loc × State :=
  let e := mapOf s idx
  let e' : MapEntry := { gen := (e.gen + 1) % 65536 }
  (locsOf e, promiseLeave e (fillDrop idx (if now then mapNow idx e' s else mapSlow idx e' s)))

/-- A line of the parcels of an entry. -/
def inParcel (dom parcel : Nat) (k : Nat) : Bool := (keyDom k == dom) && (keyDa k / 2 ^ 18 == parcel)

/-- Every line of a parcel leaves the line cache, whatever its state. -/
def discardLines (p : Nat → Bool) (s : State) : State :=
  { s with coh := { s.coh with lc := s.coh.lc.filter (fun x => !(p x.1)) } }

/-! ### Releases (R45) -/

/-- A line of a DA block (2 MiB) of a domain. -/
def inBlocks (dom : Nat) (blocks : List Nat) (k : Nat) : Bool := (keyDom k == dom) && blocks.contains (keyDa k / 2 ^ 21)

/-- Every host copy of a line is recalled; answers the transaction that waits for the answers. -/
def recallLine (k : Nat) (s : State) : Option Nat × State :=
  match sfOf s k with
  | none => (none, s)
  | some e =>
    let id := s.next
    let x := snoopAll k .inv (holders e) (takeNext s)
    let s1 := sfFree k x.2
    if x.1.any Snp.isOpen then (some id, txnAdd { key := k, req := id, victim := true, snoops := x.1 } s1) else (none, s1)

/-- Recalls several lines. -/
def recallLines : List Nat → State → List Nat × State
  | [], s => ([], s)
  | k :: t, s =>
    let x := recallLine k s
    let y := recallLines t x.2
    ((match x.1 with | some i => [i] | none => []) ++ y.1, y.2)

/-- The parcels of a list of blocks. -/
def blockParcels (blocks : List Nat) : List Nat := blocks.flatMap (fun b => (List.range 8).map (fun i => 8 * b + i))

/-- A release starts: the blocks leave the extents, host copies of coherent lines are recalled (R45 step 1). -/
def releaseStart (dom : Nat) (blocks : List Nat) (report : Bool) (s : State) : State :=
  if blocks.isEmpty then s else
  let d := domOf s dom
  let s1 := domPut dom { d with extents := d.extents.filter (fun b => !(blocks.contains b)) } s
  let ks := (s1.coh.sf.filter (fun p => inBlocks dom blocks p.1 && !(txnOn s1 p.1))).map (fun p => p.1)
  let x := recallLines ks s1
  let r : Release := { dom := dom, blocks := blocks, backing := [], waits := x.1, phase := 0, report := report }
  { x.2 with dom := { x.2.dom with releases := x.2.dom.releases ++ [r] } }

/-- The entries of a release's blocks flip, with FORCE (R45 steps 1 and 2, R211). -/
def releaseFlip (r : Release) (s : State) : Release × State :=
  let idxs := ((blockParcels r.blocks).map (fun p => mapIdx s r.dom p)).filter (fun i => (mapOf s i).tag == r.dom)
  let s1 := { s with coh := { s.coh with sf := s.coh.sf.filter (fun p => !(inBlocks r.dom r.blocks p.1)) } }
  let s2 := discardLines (inBlocks r.dom r.blocks) s1
  let waits := idxs.flatMap (fun i => flightOn s2 i)
  let x := idxs.foldl (fun (x : List Loc × State) i =>
    let y := entryRelease true i (forceMove i x.2)
    (x.1 ++ y.1, y.2)) ([], s2)
  ({ r with phase := 1, backing := x.1, waits := waits }, x.2)

/-- The requests of a release's drain have completed. -/
def releaseDrained (s : State) (r : Release) : Bool := r.waits.all (fun i => (reqOf s i).isNone)

/-- A scrub of a location is still due. -/
def scrubDue (s : State) (l : Loc) : Bool :=
  if l.1 = 255 then s.dlr.nearToScrub.contains l.2 else (devOf s l.1).toScrub.contains l.2

/-- A release goes on by itself: its flip when every host copy is gone, its report when its backing is scrubbed. -/
def releaseStep (r : Release) (s : State) : List Release × State :=
  if r.phase = 0 && r.waits.all (fun i => (txnOf s i).isNone) then
    let x := releaseFlip r s
    ([x.1], x.2)
  else if r.phase = 2 && r.backing.all (fun l => !(scrubDue s l)) then
    let d := domOf s r.dom
    let s1 := domPut r.dom { d with scrubbed := d.scrubbed + r.backing.length } s
    ([], if r.report then respond .mgmt 0 (r.dom :: r.blocks) s1 else s1)
  else ([r], s)

/-- Every release goes on. -/
def releasesStep (s : State) : State :=
  let x := s.dom.releases.foldl (fun (x : List Release × State) r =>
    let y := releaseStep r x.2
    (x.1 ++ y.1, y.2)) ([], s)
  { x.2 with dom := { x.2.dom with releases := x.1 } }

/-- What a host hears of its vPPBs: 2 hot-add, 3 hot-remove, 4 surprise removal (R399). -/
def hotPlug (vcs vppb code : Nat) (s : State) : State :=
  match portOfVcs? s vcs with
  | some p => emit (.link p code vppb) s
  | none => s

/-- Replaces the binding of a vPPB. -/
def vppbPut (vcs vppb : Nat) (t : Option VTarget) (s : State) : State :=
  { s with dom := { s.dom with vppb := sset none s.dom.vppb (vcs * 256 + vppb) t } }

/-- A KMD instance leaves a vPPB: HOSTS falls, the host sees a hot-remove, its decoders go, and it declines the offers it has not
answered (R44 step 5, R47, R291). -/
def unbindKmd (vcs vppb d : Nat) (s : State) : State :=
  let x := domOf s d
  let s1 := domPut d { x with hosts := x.hosts - 1 } (vppbPut vcs vppb none s)
  hotPlug vcs vppb 3 { s1 with dom := { s1.dom with
    decoders := s1.dom.decoders.filter (fun c => !((c.vcs == vcs) && (c.dom == d)))
    offers := s1.dom.offers.map (fun o => if o.dom = d then { o with waiting := o.waiting.filter (fun v => !(v == vcs)) } else o) } }

/-! ### Orderly removals (R47, R53) -/

/-- The lines of a domain that a VCS holds and that can be recalled now: no transaction is open on them and no hold mark runs. -/
def recallable (s : State) (vcs dom : Nat) : List Nat :=
  (s.coh.sf.filter (fun p => (keyDom p.1 == dom) && (holders p.2).contains vcs && !(txnOn s p.1) && !(holdActive s p.1 vcs))).map (fun p => p.1)

/-- A VCS's copy of a line is back-invalidated; dirty data lands in the line cache (R53 step 2). A group-format entry names no
single holder, so all of its holders are. -/
def recallFrom (vcs k : Nat) (s : State) : Option Nat × State :=
  match sfOf s k with
  | none => (none, s)
  | some e =>
    let id := s.next
    let x := snoopAll k .inv (if e.grp then holders e else [vcs]) (takeNext s)
    let s1 := txnAdd { key := k, req := id, victim := true, snoops := x.1 } x.2
    if x.1.any Snp.isOpen then (some id, s1) else (none, txnCheck id s1)

/-- A removal goes on by itself: it recalls the VCS's lines, then drains its windows, then unbinds and answers. -/
def removalStep (r : Removal) (s : State) : List Removal × State :=
  if r.phase = 0 then
    if !(r.waits.all (fun i => (txnOf s i).isNone)) then ([r], s)
    else
      let x := (recallable s r.vcs r.dom).foldl (fun (x : List Nat × State) k =>
        let y := recallFrom r.vcs k x.2
        ((match y.1 with | some i => [i] | none => []) ++ x.1, y.2)) ([], s)
      if x.2.coh.sf.any (fun p => (keyDom p.1 == r.dom) && (holders p.2).contains r.vcs) then ([{ r with waits := x.1 }], x.2)
      else ([{ r with waits := [], phase := 1 }], { x.2 with dom := { x.2.dom with wins := x.2.dom.wins.map (fun p =>
        if p.2.valid && (p.2.vcs == r.vcs) && (p.2.dom == r.dom) && p.2.slot.isNone then (p.1, { p.2 with drain := true, slot := some 4096 })
        else p) } })
  else if s.dom.wins.any (fun p => p.2.valid && (p.2.vcs == r.vcs) && (p.2.dom == r.dom)) then ([r], s)
  else
    let s1 := unbindKmd r.vcs r.vppb r.dom s
    let d := domOf s1 r.dom
    ([], respond .mgmt 0 [] (domPut r.dom { d with quiesced := d.quiesced.filter (fun v => !(v == r.vcs)) } s1))

/-- Every removal goes on. -/
def removalsStep (s : State) : State :=
  let x := s.dom.removals.foldl (fun (x : List Removal × State) r =>
    let y := removalStep r x.2
    (x.1 ++ y.1, y.2)) ([], s)
  { x.2 with dom := { x.2.dom with removals := x.1 } }

/-! ### Offers (R44) -/

/-- An offer every host has answered ends: blocks that a host accepted join the extents, the others are released. -/
def offerClose (o : Offer) (s : State) : State :=
  let d := domOf s o.dom
  let acc := o.blocks.filter (fun b => o.accepted.contains b)
  releaseStart o.dom (o.blocks.filter (fun b => !(o.accepted.contains b))) true
    (domPut o.dom { d with extents := d.extents ++ acc.filter (fun b => !(d.extents.contains b)) } s)

/-- Offers that wait for no host end. -/
def offersStep (s : State) : State :=
  (s.dom.offers.filter (fun o => o.waiting.isEmpty)).foldl (fun s' o => offerClose o s')
    { s with dom := { s.dom with offers := s.dom.offers.filter (fun o => !o.waiting.isEmpty) } }

/-! ### Retirement (R291) and evacuation (R57) -/

/-- A RETIRING domain without windows and releases becomes FREE, and its RETIRE is posted. -/
def retireStep (s : State) : State :=
  s.dom.doms.foldl (fun s' p =>
    if decide (p.2.st = .retiring) && !(s'.dom.wins.any (fun w => w.2.valid && (w.2.dom == p.1)))
        && !(s'.dom.releases.any (fun r => r.dom == p.1)) then
      let d := domOf s' p.1
      let s1 := domPut p.1 {} s'
      match d.retireSlot with
      | some n => slotPost n .ok (word (d.scrubbed % 2 ^ 28)) s1
      | none => s1
    else s') s

/-- Map indices whose entries name a device. -/
def naming (s : State) (dev : Nat) : List Nat :=
  (s.dlr.map.filter (fun p => (locsOf p.2).any (fun l => l.1 == dev))).map (fun p => p.1)

/-- Where a parcel of an evacuated device goes: a device or tier that meets the domain's constraints. -/
def evTarget (s : State) (dev idx : Nat) : Option Target :=
  let e := mapOf s idx
  let c := conOf s e.tag
  match e.kind with
  | .duplex =>
    let b := e.devB == dev
    let other := if b then e.devA else e.devB
    ((List.range 8).findSome? (fun t => mostFree (rankDevs s c t (some other)))).map (fun d => .leg b d)
  | .pool =>
    if c.pinTier = 8 then (if nearOk s e.tag then some .oasis else none)
    else if c.pinTier ≠ 15 then (if (rankChoice s c c.pinTier).isSome then some (.tier c.pinTier) else none)
    else ((List.range 8).find? (fun t => (rankChoice s c t).isSome)).map (fun t => .tier t)
  | _ => none

/-- The moves of an evacuation join the move queue as it has room. -/
def evQueue (dev : Nat) (s : State) : State :=
  (naming s dev).foldl (fun s' i =>
    let e := mapOf s' i
    if (s'.dlr.moves.length < 256 : Bool) && decide (e.ms = .none) && !(s'.dlr.moves.any (fun m => m.idx == i))
        && decide ((domOf s' e.tag).st = .active) then
      match evTarget s' dev i with
      | some t => { s' with dlr := { s'.dlr with moves := s'.dlr.moves ++ [{ dom := e.tag, idx := i, tgt := t, high := true, gen := e.gen, slot := 4096 }] } }
      | none => s'
    else s') s

/-- An EVACUATING device that no entry names becomes ABSENT, and EVACUATE is posted; another one's moves are queued. -/
def evacStep (s : State) : State :=
  s.dom.devs.foldl (fun s' p =>
    let d := devOf s' p.1
    match d.st with
    | .evacuating =>
      if (naming s' p.1).isEmpty then
        let s1 := promiseEnd d.evProm (devPut p.1 { d with st := .absent, free := [], toScrub := [], evSlot := none, evProm := 0 } s')
        match d.evSlot with
        | some n => slotPost n .ok (word (d.moved % 2 ^ 28)) s1
        | none => s1
      else evQueue p.1 s'
    | _ => s') s

/-- What goes on by itself at the end of a step. -/
def capStep (s : State) : State := evacStep (retireStep (releasesStep (offersStep (releasesStep (removalsStep (removalsStep s))))))

end Sys2Proof.Machine
end

