-- ==== Sys2Proof/Machine/Reaction.lean ====
section
/-!
DEFINITION. Machine/Reaction.lean: what follows when a link, a host, a pool device, a domain or the device is lost or contained
(R54-R61, R124, R151, R208-R215, R485-R489), and the one reaction of the fault collector to the raises of a step (R495).
-/
namespace Sys2Proof.Machine

/-! ### Lanes of a port (R343) -/

/-- Physical lanes of a port, R343. -/
def portLanes (s : State) (p : Nat) : List Nat :=
  let m := fld (tileCfg s (p / 4)) 61 60
  let w := if m = 0 then 16 else if m = 1 then 8 else 4
  (List.range w).map (fun i => 18 * (p / 4) + 4 * (p % 4) + i)

/-- A lane. -/
def laneOf (s : State) (l : Nat) : LaneS := sget {} s.lane.lanes l

/-- Replaces a lane. -/
def lanePut (l : Nat) (x : LaneS) (s : State) : State := { s with lane := { s.lane with lanes := sset {} s.lane.lanes l x } }

/-- Lanes change from one power state to another. -/
def lanesTo (ls : List Nat) (from_ to_ : Nat) (s : State) : State :=
  ls.foldl (fun s' l => if (laneOf s' l).st = from_ then lanePut l { laneOf s' l with st := to_ } s' else s') s

/-- The 18 lanes of a tile. -/
def tileLanes (t : Nat) : List Nat := (List.range 18).map (fun j => 18 * t + j)

/-- A lane falls idle: OFF unless FAILED, and out of any check (R362, R369). -/
def laneIdle (l : Nat) (s : State) : State :=
  let x := laneOf s l
  lanePut l { x with st := if x.st = 5 then 5 else 0, logical := 0x1F, stage := 0, adaptAt := 0 } s

/-- Lanes fall idle; a check of their tile that has no lane left to measure ends (R369). -/
def lanesIdle (t : Nat) (ls : List Nat) (s : State) : State :=
  let s1 := ls.foldl (fun s' l => laneIdle l s') s
  let x := sget {} s1.lane.tiles t
  if x.check && (tileLanes t).all (fun l => (laneOf s1 l).stage == 0) then
    { s1 with lane := { s1.lane with tiles := sset {} s1.lane.tiles t { x with check := false, checkBy := 0, failed := false } } }
  else s1

/-! ### Records discarded with a link (R124) -/

/-- A record discarded: its cells and its item are released, a sample of its request ends (R507). -/
def discardRec (port : Nat) (r : OutRec) (s : State) : State :=
  let s1 := countP 0x0005 port (giveCells r.acct r.cells s)
  let s2 := if r.cls = 7 then releaseCopy r.item s1 else releaseItem r.item s1
  smpEnd r.smp true s2

/-- Discards every record queued, parked or waiting for cells for a port, and returns the backing of its credits. -/
def discardPort (port : Nat) (s : State) : State :=
  let q := pqOf s port
  let ws := (s.erg.waits.filter (fun w => w.port == port)).map (fun w => w.out)
  let s1 := pqPut port {} { s with erg := { s.erg with waits := s.erg.waits.filter (fun w => !(w.port == port)) } }
  let s2 := (q.q ++ q.parked ++ ws).foldl (fun s' r => discardRec port r s') s1
  let s3 := (List.range 7).foldl (fun s' c =>
    let k := acctKey port c
    giveCells k (sget 0 s'.erg.backed k) { s' with erg := { s'.erg with backed := sdel s'.erg.backed k } }) s2
  { s3 with erg := { s3.erg with crWait := s3.erg.crWait.filter (fun k => !(k / 8 == port)) } }

/-- The VCS of a DOE mailbox (R395). -/
def mbVcs (fn : Nat) : Nat := if fn < 64 then fn else (fn - 64) / 4096

/-- Sessions carried by a port's mailboxes are erased (R472). -/
def sessDrop (port : Nat) (s : State) : State :=
  match vcsOf? s port with
  | some v => { s with emr := { s.emr with sessions := s.emr.sessions.filter (fun x => !(mbVcs x.mb == v)) } }
  | none => s

/-- A CXL link goes down, to DOWN (0) or HELD (4): R124, and R385 for a RETRAIN that waits. -/
def cxpDown (port to_ : Nat) (s : State) : State :=
  let x := cxpOf s port
  let s1 := discardPort port (sessDrop port s)
  let s2 := match x.slot with
    | some n => slotPost n .faulted 0 s1
    | none => s1
  cxpPut port { x with
    link := to_, flit := 0, rate := 0, width := 0, io := false, mem := false, cache := false, degraded := false,
    ideIo := if x.ideIo = 0 then 0 else 3, ideCm := if x.ideCm = 0 then 0 else 3, pbr := false, replay := [], replayNum := 0, txSeq := 0, rxSeq := 0, cred := [],
    inf := [], pausedAt := 0, slot := none, timers := [], low := 0, keys := [], keySet := [], keyCnt := [] }
    (lanesIdle (port / 4) (portLanes s port) s2)

/-! ### TRL links (R420, R421, R424, R428) -/

/-- A TRL fault source of a tile (R430, R481). -/
def trlFault (t k : Nat) (s : State) : State := raiseP (fTrl t k) (4 * t) s

/-- Interrupt source of a TRL port (R430). -/
def trlEvent (t : Nat) (s : State) : State := icuEdge (7168 + 4 * t) s

/-- Messages that waited for a route fence leave once it has ended (R428). -/
def fenceGo (s : State) : State :=
  let go := s.trl.fenced.filter (fun m => !(fencedTo s m.1.dst))
  go.foldl (fun s' m => routeMsg m.1 m.2 s') { s with trl := { s.trl with fenced := s.trl.fenced.filter (fun m => fencedTo s m.1.dst) } }

/-- Frames of a tile whose session has ended no longer hold up a route fence: one that loses its last frame so ends. -/
def fenceDrop (t : Nat) (s : State) : State :=
  fenceGo { s with trl := { s.trl with ports := s.trl.ports.map (fun e =>
      (e.1, { e.2 with fence := e.2.fence.filter (fun f => !(f.1 == t)) })) } }

/-- A port with its session ended: the replay buffer is discarded, SEQ and E restart at 0 (R421). -/
def TrlPort.ended (x : TrlPort) (to_ : Nat) : TrlPort :=
  { st := to_, replays := x.replays, badN := x.badN, dups := x.dups, stalls := x.stalls, fails := x.fails
    retryAt := x.retryAt, off := x.off, slot := x.slot }

/-- A port that keeps its session in HOLD (R421): sparing, idle handshake and replay in progress end. -/
def TrlPort.heldAt (x : TrlPort) (now : Nat) : TrlPort :=
  { x with
    st := 7, kept := true, holdAt := now, replay := [], nak := false, nakPos := 0, nakAt := 0, ctlq := [], spareA := none
    spareB := none, txA := none, txB := none, idle := 0, fence := [], silent := false, sent := 0, ctlSent := false, trains := 0
    trainSum := 0, markers := 0, ready := false, peerHealth := 0, peerSpa := 0, peerSpb := 0, pace := 15 }

/-- The link is up: ACTIVE or IDLE. -/
def TrlPort.up (x : TrlPort) : Bool := x.st == 5 || x.st == 6

/-- What every TRL link down does (R124, R420): records are discarded, lanes fall idle, and TRL_LINK_DOWN is raised if the link
was up. -/
def trlDrop (t : Nat) (was : Bool) (s : State) : State :=
  let s1 := lanesIdle t (tileLanes t) (discardPort (4 * t) s)
  fenceGo (if was then trlFault t 3 s1 else s1)

/-- The slot of a PORTCTL RETRAIN that waits is posted. -/
def trlPost (t : Nat) (st : Status) (detail : Word) (s : State) : State :=
  match (trlOf s t).slot with
  | some n => trlPut t { trlOf s t with slot := none } (slotPost n st detail s)
  | none => s

/-- The link goes down with a session: HOLD (R420, R421). -/
def trlLinkDown (t : Nat) (s : State) : State :=
  if !((trlOf s t).up) then s else trlEvent t (trlDrop t true (trlPut t ((trlOf s t).heldAt s.time) s))

/-- The port goes OFF (0), or to DETECT with no session (1). -/
def trlDown (t to_ : Nat) (s : State) : State :=
  let x := trlOf s t
  let s1 := fenceDrop t (trlDrop t x.up (trlPost t .faulted 0 (trlPut t (x.ended to_) s)))
  if to_ = 0 && !(x.st == 0) then trlEvent t s1 else s1

/-- Training fails (R420): the port detects again after its backoff; the eighth failure in a row raises TRL_LINK_FAIL. -/
def trlFail (t : Nat) (s : State) : State :=
  let x := trlOf s t
  let n := x.fails + 1
  let s1 := trlPost t .faulted 0 (trlPut t { x with
    st := 1, fails := n, retryAt := s.time + (if 8 ≤ n then 1000000000 else 10000000), trains := 0, trainSum := 0, markers := 0
    ready := false } s)
  let s2 := lanesIdle t (tileLanes t) s1
  if n = 8 then trlFault t 2 s2 else s2

/-! ### Loss of a host (R54-R56) -/

/-- Capacity responses of a host that is gone count as declined (R44 step 5): the VCS leaves every offer it has not
answered. -/
def offerLeave (vcs : Nat) (s : State) : State :=
  { s with dom := { s.dom with offers := s.dom.offers.map (fun o => { o with waiting := o.waiting.filter (fun v => !(v == vcs)) }) } }

/-- The HPA of a DA through a VCS's lowest covering window of a domain; 0 where none covers it. -/
def hpaFor (s : State) (vcs dom da : Nat) : Nat :=
  match coveringWins s vcs dom da with
  | w :: _ => da - w.da * unit256 + w.hpa * unit256
  | [] => 0

/-- A Memory Loss record goes to a KMD instance's Informational log, and to the loss list (R62, R450). -/
def lossRec (vcs dom : Nat) (k : EvKind) (s : State) : State :=
  logPush vcs dom 0 k { s with dom := { s.dom with lossList := s.dom.lossList ++ [(vcs, dom, k)] } }

/-- Parcels of a domain that hold lost lines, with the number of lines. -/
def lostParcels (keys : List Nat) (dom : Nat) : List (Nat × Nat) :=
  let ps := (keys.filter (fun k => keyDom k == dom)).map (fun k => keyDa k / 2 ^ 18)
  (sortNat ps).map (fun p => (p, (ps.filter (fun q => q == p)).length))

/-- CAUSE 2 records of one domain to one host, FLAGS[0] on the last (R56). -/
def dirtyLossRecs (vcs dom incident : Nat) : List (Nat × Nat) → State → State
  | [], s => s
  | (p, n) :: t, s =>
    dirtyLossRecs vcs dom incident t (lossRec vcs dom
      (.memLoss 2 (b2n t.isEmpty) 0xFF dom (hpaFor s vcs dom (p * 2 ^ 18)) (2 ^ 18) n incident s.time) s)

/-- Every remaining host that presents a domain hears of lines lost. -/
def dirtyLoss (keys : List Nat) (incident : Nat) (except : Option Nat) (s : State) : State :=
  (sortNat (keys.map keyDom)).foldl (fun s' d =>
    (presenters s' d).foldl (fun s'' v => if except == some v then s'' else dirtyLossRecs v d incident (lostParcels keys d) s'') s') s

/-- An incident is counted (R62). -/
def newIncident (s : State) : Nat × State :=
  (s.dom.incident + 1, { s with dom := { s.dom with incident := (s.dom.incident + 1) % 2 ^ 32 } })

/-- Agents leave every sharer set and every owner's place; lines held in M are lost and held poisoned (R54, R55). -/
def agentsLeave (p : Nat → Bool) (s : State) : List Nat × State :=
  s.coh.sf.foldl (fun x e =>
    match sfOf x.2 e.1 with
    | none => x
    | some en =>
      if en.grp then x
      else
        let lost := decide (en.st = .m) && en.agents.any p
        let s1 := if decide (en.st = .wbp) then x.2
          else sfPut e.1 { en with agents := en.agents.filter (fun a => !(p a)), st := if owned en && en.agents.any p then .s else en.st } x.2
        if lost then (x.1 ++ [e.1], lcPoison e.1 s1) else (x.1, s1)) ([], s)

/-- Hold marks of agents end; the transactions that waited for them go on. -/
def agentsHolds (p : Nat → Bool) (s : State) : State :=
  (s.coh.holds.filter (fun h => p h.agent)).foldl (fun s' h => holdRelease h.key h.agent (holdEnd h.key h.agent s')) s

/-- Outstanding snoops of agents are answered I. -/
def agentsSnoops (p : Nat → Bool) (s : State) : State :=
  s.coh.txns.foldl (fun s' t =>
    if t.snoops.any (fun x => p x.agent && x.ans.isNone) then
      txnCheck t.req (match txnOf s' t.req with
        | some t' => txnPut { t' with snoops := t'.snoops.map (fun x => if p x.agent && x.ans.isNone then { x with ans := some .i } else x) } s'
        | none => s')
    else s') s

/-- Agents are lost: their lines, hold marks and snoops (R54, R55). Lines they held in M are lost. -/
def agentsLost (p : Nat → Bool) (except : Option Nat) (incident : Nat) (s : State) : State :=
  let x := agentsLeave p s
  dirtyLoss x.1 incident except (agentsSnoops p (agentsHolds p x.2))

/-- A host is lost (R54): its windows drain, its responses are discarded, its VCS leaves the directory. -/
def hostLost (port : Nat) (s : State) : State :=
  match vcsOf? s port with
  | none => s
  | some vcs =>
    if !(s.dom.vppb.any (fun p => (p.1 / 256 == vcs) && p.2.isSome)) || s.dom.lostHost.contains port then s
    else
      let i := newIncident s
      let s1 := { i.2 with dom := { i.2.dom with
        wins := i.2.dom.wins.map (fun p => if p.2.valid && (p.2.vcs == vcs) then (p.1, { p.2 with drain := true }) else p)
        lostHost := port :: i.2.dom.lostHost } }
      let s2 := agentsLost (fun a => a == vcs) (some vcs) i.1 s1
      offerLeave vcs { s2 with reqs := s2.reqs.map (fun r => match r.who with
        | .host p v t => if p = port then { r with who := .host 255 v t } else r
        | .hostAtomic p v t => if p = port then { r with who := .hostAtomic 255 v t } else r
        | _ => r) }

/-! ### Loss of a pool device (R58-R61, R208, R210, R215) -/

/-- Domains with legs on a device: the domain, single legs, duplex legs (R200). -/
def affected (s : State) (dev : Nat) : List (Nat × Nat × Nat) :=
  (s.dom.doms.map (fun p => (p.1, (legsOf s dev p.1).1, (legsOf s dev p.1).2))).filter (fun x => !(x.2.1 == 0 && x.2.2 == 0))

/-- A CAUSE 3 record to each host that presents a domain (R61, R215). -/
def redundancyLoss (dom dev legs incident time : Nat) (s : State) : State :=
  (presenters s dom).foldl (fun s' v =>
    lossRec v dom (.memLoss 3 1 dev dom 0 (legs * 2 ^ 18) 0 incident time) s') s

/-- Requests with legs at a lost device (R59): a read is issued again, a write goes on without the leg. -/
def legsLost (dev : Nat) (s : State) : State :=
  s.reqs.foldl (fun s' r =>
    if !(r.legs.any (fun l => l.dev == dev)) then s'
    else
      let rd := r.legs.any (fun l => (l.dev == dev) && l.rd)
      let r1 := { r with legs := r.legs.filter (fun l => !(l.dev == dev)) }
      if rd then reqPut { r1 with phase := .ready } s'
      else if r1.legs.isEmpty then gotDone r1 (reqPut r1 s') else reqPut r1 s') s

/-- The source of a running move is gone: every location of its entry is lost. -/
def sourceGone (s : State) (c : Caravan) (dev : Nat) : Bool :=
  let ls := locsOf (mapOf s c.idx)
  ls.any (fun l => l.1 == dev) && ls.all (fun l => !(l.1 == 255) && (l.1 == dev || devLost s l.1))

/-- A pool device index is lost (R58): the marking, the outcomes of R59, the moves of R208, the loss walk of R61. -/
def devGone (dev : Nat) (s : State) : State :=
  let d := devOf s dev
  if !d.bound || devLost s dev then s else
  let i := newIncident s
  let aff := affected i.2 dev
  let s1 := devPut dev { d with st := .lost, free := [], toScrub := [], slot := none, evSlot := none, evProm := 0 } (promiseEnd d.evProm i.2)
  let s2 := match d.slot with
    | some n => slotPost n .faulted (word (at_ dev 56 + d.scrubAt)) s1
    | none => s1
  let s3 := match d.evSlot with
    | some n => slotPost n .faulted 0 s2
    | none => s2
  let s4 := abortMoves (fun c => c.dest.any (fun l => l.1 == dev)) 2 s3
  let s5 := s4.dlr.cars.foldl (fun s' x =>
    let c := carOf s' x.1
    if decide (c.st = .copying) && sourceGone s' c dev then moveAbort x.1 3 s' else s') s4
  let s6 := aff.foldl (fun s' x => if x.2.1 = 0 then redundancyLoss x.1 dev x.2.2 i.1 s'.time s' else s') (legsLost dev s5)
  { s6 with dom := { s6.dom with walks := s6.dom.walks ++ [{
      dev := dev, incident := i.1, time := s6.time, doms := aff.map (fun x => x.1)
      duplex := aff.map (fun x => (x.1, x.2.2)) }] } }

/-- Every pool device behind a port is lost (R388: every LD of it). -/
def portDevsGone (port : Nat) (s : State) : State :=
  s.dom.devs.foldl (fun s' p => if p.2.bound && (p.2.port == port) then devGone p.1 s' else s') s

/-- A pass-through target on a port is lost: its vPPBs report a surprise removal (R399). -/
def passLost (port : Nat) (s : State) : State :=
  s.dom.vppb.foldl (fun s' p => match p.2 with
    | some (.port q) => if q = port then hotPlug (p.1 / 256) (p.1 % 256) 4 s' else s'
    | some (.ld q _) => if q = port then hotPlug (p.1 / 256) (p.1 % 256) 4 s' else s'
    | _ => s') s

/-- A link event in the switch's event log (R443, R398). -/
def swEvent (k : EvKind) (s : State) : State :=
  let l := s.mgt.swLog
  let l' := if l.recs.length < 256 then { l with recs := l.recs ++ [(0, l.nextH, k)], nextH := l.nextH + 1 }
    else logLost 0 s.time l
  { s with mgt := { s.mgt with swLog := l' } }

/-- A port's link goes down (R124), and what is behind it is lost (R54, R58). -/
def portDown (port to_ : Nat) (s : State) : State :=
  if isTrlPort s port then trlDown (port / 4) to_ s
  else
    let was := (cxpOf s port).link
    if was = to_ then s
    else
      let s1 := cxpDown port to_ s
      let s2 := if was = 2 || was = 3 then icuEdge (7168 + port) (swEvent (.link port false) s1) else s1
      if was = 0 || was = 4 then s2
      else passLost port (portDevsGone port (hostLost port s2))

/-- A port's link goes down; one that is held stays held (R486). -/
def portDrop (port : Nat) (s : State) : State :=
  if !(isTrlPort s port) && (cxpOf s port).link == 4 then s else portDown port 0 s

/-- Reads that answer with poison because their device index is lost, and writes that are discarded, are decided by
`routeOf`; a PERST_N output falls (R397). -/
def perstLow (port : Nat) (s : State) : State :=
  if portRole s port = 1 then s else cxpPut port { cxpOf s port with perst := false, perstAt := 0 } s

/-! ### Containment of a domain (R151, R485) -/

/-- Requests of a domain that hold or wait for a line: a transaction is open, or will be (log entry 26, DEDUCED). -/
def atHome (s : State) (r : Req) : Bool :=
  decide (r.mode = .scoh) && (match r.who with | .wback _ => false | _ => true) && ((txnOf s r.id).isSome || (match r.phase with
    | .lineQueue => true | .trackerWait => true | .open_ => true | .meldQueue => true | .meldTracker => true
    | .remoteWait => true | .lcWait => true | .holdWait => true | _ => false))

/-- A request that containment ends: refused under R43; an atomic or LINEFLUSH ends with ST_TIMEOUT (R154, R175). -/
def containReq (r : Req) (s : State) : State :=
  finishReq r (match r.op with
    | .atomic _ _ _ _ _ => .status .timeout | .flushKeep => .status .timeout | .flushInv => .status .timeout
    | .snoop _ => .done | _ => .refused) s

/-- Steps 1 to 4 of R151. -/
def domContain (d : Nat) (s : State) : State :=
  let x := domOf s d
  let s1 := domLeft d (domPut d { x with st := .contained } s)
  let s2 := (s1.reqs.filter (fun r => (r.dom == d) && atHome s1 r)).foldl (fun s' r =>
    match reqOf s' r.id with | some y => containReq y s' | none => s') s1
  { s2 with coh := { s2.coh with
      txns := s2.coh.txns.filter (fun t => !(keyDom t.key == d))
      holds := s2.coh.holds.filter (fun h => !(keyDom h.key == d))
      victims := s2.coh.victims.filter (fun k => !(keyDom k == d))
      sf := s2.coh.sf.filter (fun p => !(keyDom p.1 == d))
      lc := s2.coh.lc.map (fun p => if keyDom p.1 = d then (p.1, { p.2 with poison := true }) else p)
      leases := s2.coh.leases.map (fun p => if keyDom p.1 = d then (p.1, { p.2 with poison := true }) else p) } }

/-- A CONTAINED reaction on a domain (R485): domain 0 is carried out as DEVICE; an already contained or retiring domain is
left as it is. Answers whether the device must be reset. -/
def containDomain (d : Nat) (s : State) : Bool × State :=
  if d = 0 then (true, s)
  else match (domOf s d).st with
    | .active => (false, domContain d s)
    | .quiescing => (false, domContain d s)
    | _ => (false, s)

/-- A CONTAINED reaction on a port (R486): the link is held down until PORTCTL ENABLE. -/
def containPort (p : Nat) (s : State) : State :=
  if isTrlPort s p then
    let s1 := trlDown (p / 4) 0 s
    trlPut (p / 4) { trlOf s1 (p / 4) with off := true } s1
  else portDown p 4 s

/-! ### The device stops (R487, R489) -/

/-- A DEVICE reaction (R487): the reset itself is the command DEVICE_RESET_START. -/
def deviceReact (s : State) : State := { s with flt := { s.flt with devpend := true } }

/-- Every port index. -/
def allPorts : List Nat := List.range 96

/-- A TERMINAL reaction (R489). -/
def terminalReact (s : State) : State :=
  let s1 := { s with flt := { s.flt with terminal := true, devpend := false }, pwr := { s.pwr with devReady := false } }
  let s2 := allPorts.foldl (fun s' p => perstLow p (portDown p 0 s')) s1
  (List.range 64).foldl (fun s' n => match (coreOf s' n).st with
    | .reset => s' | .halted => s' | .faulted => s'
    | _ => leaveService n .halted s') s2

/-- CONTAINED scopes of a step's raises are contained; answers whether one of them asks for DEVICE. -/
def containAll : List Raise → State → Bool × State
  | [], s => (false, s)
  | r :: t, s =>
    let x : Bool × State := if r.sev = 2 then
        (match fltInfo r.n with
         | some (.domain, _, _) => containDomain r.dom s
         | some (.port, _, _) => (false, containPort r.port s)
         | _ => (false, s))
      else (false, s)
    let y := containAll t x.2
    (x.1 || y.1, y.2)

/-- The one reaction of a step (R495): every CONTAINED scope is contained, then DEVICE or TERMINAL where one of the raises
asks for it. Containment may raise again: further rounds serve those raises. -/
def settleN : Nat → State → State
  | 0, s => { s with flt := { s.flt with raised := [] } }
  | n + 1, s =>
    match s.flt.raised with
    | [] => s
    | rs =>
      let x := containAll rs { s with flt := { s.flt with raised := [] } }
      let top : Nat := rs.foldl (fun m r => max m r.sev) 0
      let s1 := if top = 4 then terminalReact x.2
        else if (top = 3 || x.1) && !x.2.flt.terminal && !x.2.flt.devpend then deviceReact x.2 else x.2
      settleN n s1

/-- The reactions of a step. -/
def settle (s : State) : State := settleN 4 s

/-- What the rest of the device does in the step of a command: requests that became ready run, sequences that were waiting go on, responses
that waited for cells are built, and the collector reacts. -/
def done (s : State) : State := settle (serveWaits (settle (pump (capStep (settle (pump s))))))

/-- Every meaning ends here. -/
def finish (s : State) : Host.Outcome State Fault Refusal := .next (done s)

end Sys2Proof.Machine
end

