-- ==== Sys2Proof/Machine/Oasis.lean ====
section
/-!
DEFINITION. Machine/Oasis.lean: the Oasis (spec 08): channel service, errors by area, retirement, thermal bands, shadow retraining,
refresh, patrol; and the end of device idle (spec 20 R535), on which the drift test runs.
-/
namespace Sys2Proof.Machine

/-! ### Retraining (R235-R238) -/

/-- A subchannel. -/
def subOf (s : State) (n : Nat) : SubCh := sget {} s.oas.subs n

/-- Replaces a subchannel. -/
def subPut (n : Nat) (x : SubCh) (s : State) : State := { s with oas := { s.oas with subs := sset {} s.oas.subs n x } }

/-- A trigger queues a subchannel; it merges with a pending or uncommitted retraining (R238). -/
def retrainQueue (n : Nat) (s : State) : State :=
  if 64 ≤ n || s.oas.queue.contains n || (match s.oas.active with | some (k, _) => k == n | none => false) then s
  else { s with oas := { s.oas with queue := s.oas.queue ++ [n] } }

/-- Stack of a subchannel. -/
def stackOf (n : Nat) : Nat := n / 8

/-- Temperature of a stack, as a two's complement byte. -/
def stackTemp (s : State) (k : Nat) : Nat := (sget (0, 0) s.oas.therm k).2

/-- The drift test of one stack (R236): it differs by more than TEMP_DRIFT from the value recorded at the last training. -/
def driftTest (k : Nat) (s : State) : State :=
  (List.range 8).foldl (fun s' i =>
    let n := 8 * k + i
    if (regFld s' aOasCfg 44 40 : Int) < (sval 8 (stackTemp s' k) - sval 8 (subOf s' n).temp).natAbs then retrainQueue n s' else s') s

/-- Device idle ends (R535): the waking source, 0x1FFF for an admission or a deadline; the drift test runs (R238). -/
def idleExit (why : Nat) (s : State) : State :=
  if !s.pwr.idle then s
  else (List.range 8).foldl (fun s' k => driftTest k s') { s with pwr := { s.pwr with idle := false, lastWake := why } }

/-- A temperature is polled (R232): the band, DLR_OAS_HOT when band 3 is entered, the drift test. -/
def execOasisTempPoll (stack : Nat) (temp : Byte) (s : State) : Host.Outcome State Fault Refusal :=
  finish (if 8 ≤ stack then s else
    let t := temp.toInt
    let band := if t ≤ 85 then 0 else if t ≤ 95 then 1 else if t ≤ 105 then 2 else 3
    let was := (sget (0, 0) s.oas.therm stack).1
    let s1 := { s with oas := { s.oas with therm := sset (0, 0) s.oas.therm stack (band, temp.toNat) } }
    driftTest stack (if band = 3 && !(was == 3) then raiseN fOasHot s1 else s1))

/-- The read-eye monitor measures a subchannel (R236). -/
def execOasisEyeMonitor (sub margin : Nat) (s : State) : Host.Outcome State Fault Refusal :=
  finish (if 64 ≤ sub then s else
    let s1 := subPut sub { subOf s sub with margin := margin % 256 } s
    if margin % 256 < regFld s aOasCfg 55 48 then retrainQueue sub s1 else s1)

/-- One subchannel's millisecond of full load (R235, R236). -/
def loadTick (n : Nat) (s : State) : State :=
  let x := subOf s n
  if !x.light || 10000 ≤ x.fullMs then s
  else
    let s1 := subPut n { x with fullMs := x.fullMs + 1 } s
    if x.fullMs + 1 = 10000 then retrainQueue n s1 else s1

/-- A millisecond in which a channel's utilization, in percent, was measured. -/
def execOasisLoadTick (ch util : Nat) (s : State) : Host.Outcome State Fault Refusal :=
  finish (if 32 ≤ ch || util < regFld s aOasCfg 38 32 then s else loadTick (2 * ch + 1) (loadTick (2 * ch) s))

/-- DLR_OAS_RETRAIN is written with REQ = 1 (R236): SUB is stored and queued. -/
def retrainReq (sub : Nat) (s : State) : State := retrainQueue (sub % 64) (regPut s aOasRetrain (word (sub % 64)))

/-- A write of DLR_OAS_RETRAIN.REQ. -/
def execOasRetrainReq (sub : Nat) (s : State) : Host.Outcome State Fault Refusal := finish (retrainReq sub s)

/-- A retraining ends: verification passed and the settings commit, or it failed and is tried again after 1 s, from the third
consecutive failure on after 10 s (R237). `util` is the channel's utilization over the preceding 10 ms. -/
def retrainEnd (n util : Nat) (ok : Bool) (s : State) : State :=
  let x := subOf s n
  let s1 := { s with oas := { s.oas with active := none } }
  if ok then
    subPut n { x with
      temp := stackTemp s (stackOf n), light := decide (util < regFld s aOasCfg 30 24), fullMs := 0,
      count := satAdd 65535 x.count 1, fails := 0, retry := 0 } s1
  else
    let s2 := subPut n { x with
      fails := x.fails + 1, retry := s.time + (if 3 ≤ x.fails + 1 then 10000000000 else 1000000000) } s1
    if x.fails + 1 = 3 then raiseN fOasRetrainFail s2 else s2

/-- One shadow retraining step runs (R237): the queue's first subchannel starts when none is active; the last step, at most the
64th, verifies and commits. -/
def execRetrainStep (last ok : Bool) (util : Nat) (s : State) : Host.Outcome State Fault Refusal :=
  finish (match s.oas.active, s.oas.queue with
    | some (n, k), _ =>
      if last || 63 ≤ k then retrainEnd n util ok s
      else { s with oas := { s.oas with active := some (n, k + 1) } }
    | none, n :: q =>
      let s1 := { s with oas := { s.oas with active := some (n, 1), queue := q } }
      if last then retrainEnd n util ok s1 else s1
    | none, [] => s)

/-- A failed retraining is queued again. -/
def execRetrainRetry (sub : Nat) (s : State) : Host.Outcome State Fault Refusal :=
  finish (if (subOf s sub).retry = 0 then s
    else retrainQueue sub (subPut sub { subOf s sub with retry := 0 } (advanceTo (subOf s sub).retry s)))

/-! ### Refresh and ZQ (R232, R233) -/

/-- A per-bank refresh is issued on a stack. -/
def execOasisRefresh (stack : Nat) (s : State) : Host.Outcome State Fault Refusal :=
  finish (if 8 ≤ stack then s
    else { s with oas := { s.oas with refresh := sset 0 s.oas.refresh stack (sget 0 s.oas.refresh stack + 1) } })

/-- A ZQ calibration result is latched on a stack. -/
def execZqLatch (stack : Nat) (s : State) : Host.Outcome State Fault Refusal :=
  finish (if 8 ≤ stack then s else { s with oas := { s.oas with zq := sset 0 s.oas.zq stack s.time } })

/-! ### Errors and retirement (R230, R240) -/

/-- The near-tier parcel of an OA. -/
def nearParcel (oa : Nat) : Option Nat :=
  if 0x0150000000 ≤ oa ∧ oa < 0x3FFE000000 then some ((oa - 0x0150000000) / 0x40000) else none

/-- Near-tier parcels a map entry names. -/
def nearInUse (s : State) (p : Nat) : Bool :=
  s.dlr.map.any (fun e => decide (e.2.kind = .oasis) && (e.2.pA == p))

/-- A near-tier parcel is retired (R240): up to 4,096. -/
def retire_ (p : Nat) (s : State) : State :=
  if s.oas.retired.contains p || 4096 ≤ s.oas.retired.length then s
  else
    let s1 := { s with
      oas := { s.oas with retired := s.oas.retired ++ [p] }
      dlr := { s.dlr with near := rdel s.dlr.near p, nearToScrub := s.dlr.nearToScrub.filter (fun q => !(q == p)) } }
    if nearInUse s p then raiseN fOasRetire s1 else s1

/-- DLR_OAS_ECC_LAST. -/
def oasLast (kind oa : Nat) (s : State) : State :=
  { s with oas := { s.oas with eccLast := (true, kind, oaChannel oa, oa / 64) } }

/-- A corrected error. -/
def oasCorr (oa : Nat) (s : State) : State :=
  countN 0x6004 none none 1 (oasLast 1 oa { s with oas := { s.oas with ecc := (s.oas.ecc.1, satAdd (2 ^ 32 - 1) s.oas.ecc.2 1) } })

/-- A lost map entry (R230): rewritten from the TLB copy, or POISONED with the tag of the domain whose segment holds it. Its
generation is lost with it: a free value. -/
def mapLost (idx : Nat) (s : State) : State :=
  match sfind? s.dlr.tlb idx with
  | some e => mapSlow idx e s
  | none =>
    let s1 := abortMoves (fun c => c.idx == idx) 3 s
    match domOfIdx s1 idx with
    | none => s1
    | some d =>
      let g := (Config.freeWord s1.free).toNat % 65536
      mapNow idx { kind := .poisoned, ext := true, tag := d, gen := g } (drawFree s1)

/-- An uncorrectable error, by area (R230). -/
def oasUncorr (oa : Nat) (s : State) : State :=
  let s1 := oasLast 2 oa { s with oas := { s.oas with ecc := (satAdd 65535 s.oas.ecc.1 1, s.oas.ecc.2) } }
  if oa < 0x100000000 then
    raiseN fOasMapUncorr ((List.range 4).foldl (fun s' i => mapLost (oa / 64 * 4 + i) s') s1)
  else if oa < 0x120000000 then
    raiseN fOasUncorr { s1 with dlr := { s1.dlr with
      heat := s1.dlr.heat.filter (fun p => !(p.1 / 32 == (oa - 0x100000000) / 64)) } }
  else
    match nearParcel oa with
    | some p =>
      let l := oLine s1 oa
      retire_ p (raiseN fOasUncorr { s1 with oas := { s1.oas with
        lines := sset {} s1.oas.lines (oa / 64) { l with pois := true } } })
    | none =>
      if oa < 0x150000000 then
        raiseN fOasUncorr { s1 with oas := { s1.oas with
          bad := if s1.oas.bad.contains (oa / 64) then s1.oas.bad else oa / 64 :: s1.oas.bad } }
      else s1

/-- An error found by an access: 0 none, 1 corrected, 2 uncorrectable. -/
def oasError (oa err : Nat) (s : State) : State := if err = 1 then oasCorr oa s else if err = 2 then oasUncorr oa s else s

/-- A patrol read visits a line (R239, R240): a line corrected on two consecutive passes retires its parcel. A visit below the
last position starts a new pass. -/
def execOasisPatrol (oa err : Nat) (s : State) : Host.Outcome State Fault Refusal :=
  finish (
    let l := oa % 2 ^ 38 / 64
    let s1 := if l < s.oas.patrolAt then
        { s with oas := { s.oas with patrolOld := s.oas.patrolNew, patrolNew := [] } }
      else s
    let s2 := oasError (64 * l) err { s1 with oas := { s1.oas with patrolAt := l + 1 } }
    if err = 1 then
      let s3 := { s2 with oas := { s2.oas with patrolNew := l :: s2.oas.patrolNew } }
      match s3.oas.patrolOld.contains l, nearParcel (64 * l) with
      | true, some p => retire_ p s3
      | _, _ => s3
    else s2)

/-! ### Channel service (R228-R231) -/

/-- The oldest read of a channel is served, by the newest queued write of its line where there is one. -/
def oasServeRead (c err : Nat) (s : State) : State :=
  match rdQ s c with
  | [] => s
  | a :: q =>
    let queued := (wrQ s c).any (fun x => x.oa == a.oa)
    let s1 := countN 0x6001 none none 1 { s with oas := { s.oas with chRd := sset [] s.oas.chRd c q } }
    let s2 := if queued then s1 else oasError a.oa err s1
    let x := oasRead (oasNow s2 a.oa) (match reqOf s2 a.req with | some r => r.dom | none => 0)
    match reqOf s2 a.req with
    | some r => gotData r x.1 x.2.1 (tagRaise x.2.2 r.dom s2)
    | none => s2

/-- The oldest write of a channel reaches its line. -/
def oasServeWrite (c : Nat) (s : State) : State :=
  match wrQ s c with
  | [] => s
  | a :: q =>
    let s1 := countN 0x6002 none none 1 { s with oas := { s.oas with chWr := sset [] s.oas.chWr c q } }
    match a.wr with
    | some (w, m) => { s1 with oas := { s1.oas with lines := sset {} s1.oas.lines (a.oa / 64) (oMerge (oLine s1 a.oa) w m) } }
    | none => s1

/-- An Oasis channel completes a queued read or write; requests that waited for room try again. -/
def execOasisAccessDone (ch : Nat) (wr : Bool) (err : Nat) (s : State) : Host.Outcome State Fault Refusal :=
  finish (wake (fun p => decide (p = .oasisFull ch)) (if wr then oasServeWrite ch s else oasServeRead ch err s))

end Sys2Proof.Machine
end

