-- ==== Sys2Proof/Machine/HostPath.lean ====
section
/-!
DEFINITION. Machine/HostPath.lean: what arrives from hosts and pool devices (spec 01, 05 R139-R142, 06 R167-R175): admission, VCS and KMD
decode, binding windows, the Gate check of a host request, snoop answers, device completions, AtomicOps.
-/
namespace Sys2Proof.Machine

/-! ### Admission (R87, R93, R99, R100, R378) -/

/-- Packet cells of a TLP of n payload bytes, R93. -/
def tlpCells (n : Nat) : Nat := ceilDiv (64 + n) 256

/-- Backing of a TLP's header and data credits, R99: one cell per header credit and per 16 data credits of 16 bytes. -/
def tlpBacking (n : Nat) : Nat := 1 + ceilDiv n 256

/-- Backing of an account's credits is used, or returns. -/
def backUse (k n give : Nat) (s : State) : State :=
  giveCells k give { s with erg := { s.erg with backed := sset 0 s.erg.backed k (sget 0 s.erg.backed k - n) } }

/-- An item is admitted (R87): the backing of its record of the highest-numbered class is its cells; the backing of the other
records returns at once (R100). -/
def admitRec (port : Nat) (tlp : Option Nat) (classes : List Nat) (s : State) : State :=
  let top := classes.foldl max 0
  let k := acctKey port top
  let cells := match tlp with | some n => tlpCells n | none => 1
  let took := match tlp with | some n => tlpBacking n | none => 1
  let rest := (List.range 7).map (fun c =>
    (c, (classes.filter (fun x => x == c)).length - (if c = top then 1 else 0)))
  let s1 := rest.foldl (fun s' p => backUse (acctKey port p.1) p.2 p.2 s') (backUse k took (took - cells) s)
  let i : Item := { id := s1.next, port := port, acct := k, cells := cells, refs := classes.length, fresh := classes.length, mirrors := 0 }
  countN 0x0001 none (some port) cells (takeNext { s1 with erg := { s1.erg with items := s1.erg.items ++ [i] } })

/-- Every record of an item arrives with a credit that was backed. -/
def creditsHeld (s : State) (port : Nat) (tlp : Option Nat) (classes : List Nat) : Bool :=
  (List.range 7).all (fun c =>
    let n := (classes.filter (fun x => x == c)).length
    (n == 0) || ((match tlp with | some b => tlpBacking b | none => n) ≤ sget 0 s.erg.backed (acctKey port c) : Bool))

/-- A MAC check failure or an out-of-order invocation counter (R393): both streams are Insecure, the link goes down, CXP_IDE_FAIL
is raised. -/
def ideFail (port : Nat) (s : State) : State :=
  let x := cxpOf s port
  raiseP (fCxp port 5) port (portDown port 0 (cxpPut port { x with ideIo := 3, ideCm := 3 } s))

/-- A CXL flit is received whole on a port: sequence check, then credit accounting and admission (R87, R378, R380). `err` is what
the receiver found: 0 nothing, 1 a CRC error, 2 an IDE error, 3 a malformed flit, 4 a viral indication. -/
def execFlitReceive (port seq err : Nat) (tlp : Option Nat) (classes : List Nat) (s : State) :
    Host.Outcome State Fault Refusal :=
  finish (
    let x0 := cxpOf s port
    let x := if err = 4 then { x0 with viral := satAdd 1023 x0.viral 1 } else x0
    if isTrlPort s port || !(x.link == 2) then s
    else if err = 2 then ideFail port s
    else if err = 1 || (0 < (seq + 1024 - x.rxSeq) % 1024 ∧ (seq + 1024 - x.rxSeq) % 1024 < 512) then emit (.link port 10 x.rxSeq) s
    else if !(seq % 1024 == x.rxSeq) then countP 0xA002 port (cxpPut port { x with dup := satAdd (2 ^ 21 - 1) x.dup 1 } s)
    else
      let s1 := emit (.link port 11 (seq % 1024)) (bwAdd port true (if classes.isEmpty then 0 else flitBytes s port) <| cxpPut port { x with rxSeq := (x.rxSeq + 1) % 1024 } s)
      if err = 3 then raiseP (fCxp port 6) port s1
      else if classes.isEmpty || portRole s port = 4 then s1
      else if classes.any (fun c => (6 < c : Bool)) || !(creditsHeld s1 port tlp classes) then raiseP (fCxp port 6) port s1
      else idleExit 0x1FFF (admitRec port tlp classes s1))

/-- The pipeline takes the next record of the oldest item of a port (log entry 27, DEDUCED): the item, its account. -/
def takeItem (port : Nat) (s : State) : Nat × Nat × State :=
  match s.erg.items.find? (fun i => (i.port == port) && (0 < i.fresh : Bool)) with
  | some i => (i.id, i.acct, itemUpd i.id (fun x => { x with fresh := x.fresh - 1 }) s)
  | none => (0, noAcct, s)

/-- A record is consumed inside the device. -/
def consume (port : Nat) (s : State) : State := let x := takeItem port s; releaseItem x.1 x.2.2

/-! ### Injected memory errors of the home slice (R133, R134, R50) -/

/-- An error that the access of a line finds: 0 none, 1 snoop filter uncorrectable, 2 line cache uncorrectable, 3 line cache
corrected, 4 snoop filter corrected, 5 a line-cache tag that differs. -/
def cohError (err k : Nat) (s : State) : State :=
  let e := s.coh.ecc
  if err = 1 then
    raiseN fCohSfUncorr { s with coh := { s.coh with ecc := (satAdd 65535 e.1 1, e.2) } }
  else if err = 2 then
    match sfind? s.coh.lc k with
    | none => s
    | some l =>
      raiseN fCohLcEcc { s with coh := { s.coh with
        ecc := (e.1, satAdd 65535 e.2.1 1, e.2.2)
        lc := if l.dirty then sput s.coh.lc k { l with poison := true } else sdel s.coh.lc k } }
  else if err = 3 then { s with coh := { s.coh with ecc := (e.1, e.2.1, e.2.2.1, satAdd 65535 e.2.2.2 1) } }
  else if err = 4 then { s with coh := { s.coh with ecc := (e.1, e.2.1, satAdd 65535 e.2.2.1 1, e.2.2.2) } }
  else s

/-! ### The Gate for host requests (R63, R70, R71, R81) -/

/-- The bits a host request needs at P3: R for a read, W for a write, both for an atomic and for ownership (log entry 28, DEDUCED). -/
def hostPerms : Op → List Perm
  | .rdS => [.r] | .rdI => [.r] | .rdA => [.r, .w] | .invA => [.r, .w] | .wr => [.w] | .wrPtl => [.w]
  | .atomic _ _ _ _ _ => [.r, .w]
  | _ => []

/-- KIND of a violation record. -/
def violKind : Op → Nat
  | .wr => 2 | .wrPtl => 2 | .atomic _ _ _ _ _ => 4 | _ => 1

/-- The source of a host request in a violation record, R82. -/
def violSource (r : Req) : Nat :=
  match r.who with | .host p _ _ => p | .hostAtomic p _ _ => p | .core n _ _ => 0x100 + n | .coreMeld n => 0x100 + n | _ => 0x200

/-- Past the Gate: the home slice, the placement stage, or the end of a request that moves no data. -/
def dispatchReq (r : Req) (s : State) : State :=
  match r.op with
  | .atomic _ _ _ _ _ => enterHome r s
  | _ =>
    if decide (r.mode = .scoh) then enterHome r s
    else match r.op with
      | .invA => finishReq r .done s
      | .clean => finishReq r .done s
      | _ => reqPut { r with phase := .ready } s

/-- The Gate decides a host request (R70, R71, R81, R82). -/
def gateStage (r : Req) (s : State) : State :=
  let deny := fun (p : Perm) => match daVerdict s r.dom (r.da / 64 * 64) .p3 p false with | .allow => none | v => some v
  match r.op, deny .r, deny .w with
  | .rdA, none, some _ => dispatchReq { r with op := .rdS } (reqPut { r with op := .rdS } (countD 0x2002 r.dom s))
  | _, _, _ =>
    match (hostPerms r.op).findSome? deny with
    | none => dispatchReq r s
    | some v => finishReq r .denied (gateRefuse (r.da / 64 * 64) r.dom .p3 false (violKind r.op) v.slot (violSource r) 64 s)

/-- The Gate looks up the domain's list in its rule cache; a missing list is loaded first (R83). -/
def gateEnter (r : Req) (s : State) : State :=
  if cacheHas s r.dom then gateStage r s
  else reqPut { r with phase := .gateFill } (countD 0x2003 r.dom s)

/-- A rule list is loaded and the checks that wait for it go on (R83). -/
def execGateCacheFill (list : Nat) (s : State) : Host.Outcome State Fault Refusal :=
  finish (if cacheHas s list || dasList < list then s
    else
      let s1 := cacheLoad list s
      (s1.reqs.filter (fun r => decide (r.phase = .gateFill) && (r.dom == list))).foldl (fun s' r => gateStage r s') s1)

/-! ### Binding (R38-R43) -/

/-- The committed decoder of a VCS that claims an HPA. -/
def decoderOf (s : State) (vcs hpa : Nat) : Option Decoder :=
  s.dom.decoders.find? (fun d => (d.vcs == vcs) && (d.hpa * unit256 ≤ hpa : Bool) && (hpa < (d.hpa + d.size) * unit256 : Bool))

/-- The window with VALID 1 and DRAIN 0 that claims a request (R40). -/
def windowFor (s : State) (d : Decoder) (hpa : Nat) : Option (Nat × Window) :=
  s.dom.wins.find? (fun p => p.2.valid && !p.2.drain && (p.2.vcs == d.vcs) && (p.2.dom == d.dom) && (p.2.dec == d.dec)
    && (p.2.hpa * unit256 ≤ hpa : Bool) && (hpa < (p.2.hpa + p.2.size) * unit256 : Bool))

/-- The domain refuses requests of a VCS: not ACTIVE, or quiesced for that VCS (R32, R291). -/
def domRefuses (d : Domain) (vcs : Nat) : Bool := !(decide (d.st = .active)) || d.quiesced.contains vcs

/-- A host port that carries requests: a CXL host port whose link is up, with a VCS. -/
def hostPort? (s : State) (port : Nat) : Option Nat :=
  if !(isTrlPort s port) && portRole s port = 1 && linkUp s port then vcsOf? s port else none

/-- The request is a write of data. -/
def opWrites : Op → Bool
  | .wr => true | .wrPtl => true | _ => false

/-- Binding and what follows it (R39-R43, R427): the window, the domain's state, write protection, then the Gate; a domain homed
elsewhere is served by messages, and the Gate acts at its home. A write that answers an outstanding snoop is taken although its
domain or VCS is being quiesced (R53 step 2; log entry 69, DEDUCED). -/
def bindStage (r : Req) (d : Decoder) (err : Nat) (s : State) : State :=
  let dom := domOf s d.dom
  match windowFor s d r.hpa with
  | none => answer r .refused (raiseD fBindWindowMiss d.dom (countD 0x1002 d.dom s))
  | some (w, win) =>
    let da := r.hpa - win.hpa * unit256 + win.da * unit256
    let r1 := { r with da := da / 64 * 64, win := some w, mode := win.mode }
    let s1 := smpUpd r.smp (fun x => { x with da := da }) s
    let answers := (decide (dom.st = .active) || decide (dom.st = .quiescing)) && decide (win.mode = .scoh) && opWrites r.op
      && snoopedNow s (keyOf d.dom r1.da) d.vcs
    if domRefuses dom d.vcs && !answers then answer r1 .refused (raiseD fBindStateRefuse d.dom (countD 0x1003 d.dom s1))
    else if opWrites r.op && win.wp then answer r1 .refused (raiseD fBindWpRefuse d.dom (countD 0x1004 d.dom s1))
    else
      let s2 := mirrorFlow r.who.port 1 r.item (domClass s1 r.who.port d.dom) (b2n (opWrites r.op)) d.dom
        (if opWrites r.op then bytesData else bytesHdr) da (reqPut r1 s1)
      let s3 := if decide (win.mode = .scoh) then cohError err (keyOf d.dom r1.da) s2 else s2
      if err = 5 && decide (win.mode = .scoh) && (sfind? s3.coh.lc (keyOf d.dom r1.da)).isSome && !(opWrites r.op) then
        finishReq r1 (.data 0 true) (raiseD fCohLcTag d.dom s3)
      else if (homedElse s3 d.dom).isSome then
        if decide (win.mode = .scoh) then enterHome r1 s3
        else match r.op with
          | .wr => askWrite r1 s3
          | .wrPtl => askWrite r1 s3
          | .invA => finishReq r1 .done s3
          | .clean => finishReq r1 .done s3
          | _ => askHome r1 mHreqCur none none 0 s3
      else gateEnter r1 s3

/-- A host CXL.mem request enters its VCS (R24, R113, R506): its item is taken, it may be copied and sampled, and it is in flight. Answers the
request. -/
def hostArrive (port vcs tag hpa opcode : Nat) (op : Op) (mv : Meta) (data : Line) (mask : Word) (poison : Bool) (s : State) : Req × State :=
  let i := takeItem port s
  let wr := opWrites op
  let dom := match decoderOf i.2.2 vcs hpa with | some x => x.dom | none => 0xFFFF
  let s1 := mirrorPort port 1 i.1 3 (b2n wr) 0xFFFF (if wr then bytesData else bytesHdr) hpa i.2.2
  let sm := smpSelect port vcs opcode dom hpa s1
  let s2 := sm.2
  let r : Req := { mkReq s2.next (.host port vcs tag) op dom 0 .priv with
    hpa := hpa, mv := mv, data := data, mask := mask, poison := poison, acct := i.2.1, item := i.1, smp := sm.1, time := s2.time }
  (r, reqAdd r (takeNext s2))

/-- A host CXL.mem request is decoded by its VCS and bound (R38, R43, R142). -/
def hostMem (port tag hpa opcode : Nat) (op : Op) (mv : Meta) (data : Line) (mask : Word) (poison : Bool) (err : Nat)
    (s : State) : State :=
  match hostPort? s port with
  | none => s
  | some vcs =>
    let x := hostArrive port vcs tag hpa opcode op mv data mask poison s
    match decoderOf s vcs hpa with
    | none => answer x.1 .refused (raiseP fBindDecodeMiss port (countP 0x1001 port x.2))
    | some d => bindStage x.1 d err (countDP (if opWrites op then 0x1011 else 0x1010) d.dom port x.2)

/-- All 64 bytes. -/
def fullMask : Word := BitVec.allOnes 64

/-- MemRd: RdS, RdA or RdI by MetaValue. -/
def execMemrd (port tag hpa : Nat) (mv : Meta) (err : Nat) (s : State) : Host.Outcome State Fault Refusal :=
  finish (hostMem port tag hpa 0x01 (match mv with | .s => .rdS | .a => .rdA | _ => .rdI) mv 0 fullMask false err s)

/-- MemRdData: a shared read. -/
def execMemrddata (port tag hpa err : Nat) (s : State) : Host.Outcome State Fault Refusal :=
  finish (hostMem port tag hpa 0x02 .rdS .s 0 fullMask false err s)

/-- MemInv: ownership without data with MetaValue A, otherwise a clean eviction. -/
def execMeminv (port tag hpa : Nat) (mv : Meta) (err : Nat) (s : State) : Host.Outcome State Fault Refusal :=
  finish (hostMem port tag hpa 0x00 (match mv with | .a => .invA | _ => .clean) mv 0 fullMask false err s)

/-- MemWr. -/
def execMemwr (port tag hpa : Nat) (mv : Meta) (data : Line) (poison : Bool) (err : Nat) (s : State) :
    Host.Outcome State Fault Refusal :=
  finish (hostMem port tag hpa 0x11 .wr mv data fullMask poison err s)

/-- MemWrPtl: the bytes of the mask. -/
def execMemwrptl (port tag hpa : Nat) (mv : Meta) (data : Line) (mask : Word) (poison : Bool) (err : Nat) (s : State) :
    Host.Outcome State Fault Refusal :=
  finish (hostMem port tag hpa 0x12 .wrPtl mv data mask poison err s)

/-- MemClnEvct: a clean eviction. -/
def execMemclnevct (port tag hpa : Nat) (s : State) : Host.Outcome State Fault Refusal :=
  finish (hostMem port tag hpa 0x0A .clean .i 0 fullMask false 0 s)

/-- MemSpecRd: accepted and discarded. -/
def execMemspecrd (port hpa : Nat) (s : State) : Host.Outcome State Fault Refusal :=
  finish (match hostPort? s port with
    | none => s
    | some _ =>
      let i := takeItem port s
      releaseItem i.1 (mirrorPort port 1 i.1 3 0 0xFFFF bytesHdr hpa i.2.2))

/-! ### Snoop answers (R140, R142, R144, R150) -/

/-- An answer is one of those that the snoop allows (R140). -/
def ansLegal : Snoop → Ans → Bool
  | .inv, .i => true | .inv, _ => false
  | .data, .e => false | .data, _ => true
  | .cur, _ => true

/-- The open transaction and snoop that an answer belongs to. -/
def snpFor (s : State) (agent id : Nat) : Option (Txn × Snp) :=
  s.coh.txns.findSome? (fun t => (t.snoops.find? (fun x => (x.id == id) && (x.agent == agent) && x.ans.isNone)).map (fun x => (t, x)))

/-- A snoop answer that comes too late is discarded and counted (R150). -/
def lateRsp (s : State) : State :=
  countN 0x3008 none none 1 { s with coh := { s.coh with late := satAdd (2 ^ 48 - 1) s.coh.late 1 } }

/-- A holder's answer to one snoop is taken. -/
def snpAnswer (t : Txn) (x : Snp) (a : Ans) (s : State) : State :=
  txnCheck t.req (txnPut { t with snoops := t.snoops.map (fun y => if y.id = x.id then { y with ans := some a } else y) } s)

/-- A BIRsp of a host. -/
def biRsp (port id : Nat) (a : Ans) (s : State) : State :=
  match hostPort? s port with
  | none => s
  | some vcs =>
    let s1 := consume port s
    match snpFor s1 vcs id with
    | none => lateRsp s1
    | some (t, x) => if ansLegal x.k a then snpAnswer t x a s1 else snpAnswer t x .i (raiseP fCohProtocol port s1)

/-- BIRspI. -/
def execBirspi (port id : Nat) (s : State) : Host.Outcome State Fault Refusal := finish (biRsp port id .i s)

/-- BIRspS. -/
def execBirsps (port id : Nat) (s : State) : Host.Outcome State Fault Refusal := finish (biRsp port id .s s)

/-- BIRspE. -/
def execBirspe (port id : Nat) (s : State) : Host.Outcome State Fault Refusal := finish (biRsp port id .e s)

/-- BIConflict: BIConflictAck joins the queue that completions of the line's domain use, and so follows them (R142). -/
def execBiconflict (port id : Nat) (s : State) : Host.Outcome State Fault Refusal :=
  finish (match hostPort? s port with
    | none => s
    | some vcs =>
      let i := takeItem port s
      match snpFor i.2.2 vcs id with
      | some (t, _) =>
        let d := keyDom t.key
        releaseItem i.1 (sendResp port (domClass i.2.2 port d) d bytesHdr i.2.1 0 false 0 (.biConflictAck id) i.2.2)
      | none => releaseItem i.1 (sendResp port (3 + (sget {} i.2.2.erg.pqos port).rxclass) 0xFFFF bytesHdr i.2.1 0 false 0
          (.biConflictAck id) i.2.2))

/-! ### Pool devices (R23, R58, R387, R496, R561) -/

/-- A completion with no request: late, discarded and counted (R387). -/
def lateCpl (port : Nat) (s : State) : State :=
  cxpPut port { cxpOf s port with late := satAdd (2 ^ 21 - 1) (cxpOf s port).late 1 } s

/-- A request's timer stops. -/
def timerStop (port tag : Nat) (s : State) : State :=
  cxpPut port { cxpOf s port with timers := (cxpOf s port).timers.filter (fun t => !(t.1 == tag)) } s

/-- MemData from a pool device, matched to its tag (trace step 10). -/
def execPoolMemdata (port tag : Nat) (data : Line) (poison : Bool) (s : State) : Host.Outcome State Fault Refusal :=
  finish (
    let s1 := consume port s
    match legOf s1 port tag with
    | none => lateCpl port s1
    | some (r, l) =>
      let s2 := timerStop port tag s1
      if !l.rd then raiseP (fCxp port 6) port (legCmp r l s2)
      else
        let r1 := legDone r l
        gotData r1 data poison (reqPut r1 (if poison then raiseD fPoolPoison r.dom s2 else s2)))

/-- Cmp from a pool device. -/
def execPoolCmp (port tag : Nat) (s : State) : Host.Outcome State Fault Refusal :=
  finish (
    let s1 := consume port s
    match legOf s1 port tag with
    | none => lateCpl port s1
    | some (r, l) => if l.rd then s1 else legCmp r l (timerStop port tag s1))

/-- A pool device answers a MemRd with something other than MemData (R561): the other leg is read, or the requester receives
poison. -/
def execPoolErrorResponse (port tag : Nat) (s : State) : Host.Outcome State Fault Refusal :=
  finish (
    let s1 := consume port s
    match legOf s1 port tag with
    | none => lateCpl port s1
    | some (r, l) =>
      let s2 := raiseP (fCxp port 6) port (timerStop port tag s1)
      if !l.rd then legCmp r l s2
      else
        let r1 := legDone r l
        let e := mapOf s2 (idxOf s2 r.dom r.da)
        match (locsOf e).find? (fun x => !(x.1 == l.dev) && !(x.1 == 255) && !(devLost s2 x.1)) with
        | some x => readFrom r1 x (reqPut r1 s2)
        | none => gotData r1 0 true (reqPut r1 (raiseD fPoolPoison r.dom s2)))

/-! ### Pass-through and port-based routing (R24, R402, R403) -/

/-- The device port of a pass-through target. -/
def passPort : VTarget → Option Nat
  | .port p => some p | .ld p _ => some p | .kmd _ => none

/-- The vPPB of a pass-through target on a device port. -/
def passVppb (s : State) (port : Nat) : Option (Nat × Nat) :=
  (s.dom.vppb.find? (fun p => match p.2 with | some t => passPort t == some port | none => false)).map (fun p => (p.1 / 256, p.1 % 256))

/-- Forwards a record whose cells stay where they were admitted (R17, R24). -/
def forward (from_ to_ id len cls : Nat) (isReq : Bool) (m : Msg) (s : State) : State :=
  let i := takeItem from_ s
  let c := if cls ≤ 2 then cls else 3 + (sget {} i.2.2.erg.pqos from_).rxclass
  sendRec to_ c 0xFFFF len noAcct none i.1 isReq false 0 m (mirrorPort from_ 1 i.1 c 6 0xFFFF len 0 (let _ := id; i.2.2))

/-- A CXL.io or CXL.cache record between a host and the pass-through target of a vPPB: from a host port by its vPPB, from a
device port to the host that the target is bound to. `cls` is 0 to 2 for SC0 to SC2, 3 otherwise. -/
def execPassthroughForward (port vppb id len cls : Nat) (isReq : Bool) (s : State) : Host.Outcome State Fault Refusal :=
  finish (match hostPort? s port with
    | some vcs => match sget none s.dom.vppb (vcs * 256 + vppb) with
      | some t => match passPort t with
        | some p => forward port p id len cls isReq (.passthrough id len) s
        | none => s
      | none => s
    | none =>
      if portRole s port = 2 && linkUp s port then
        match passVppb s port with
        | some (vcs, _) => match portOfVcs? s vcs with
          | some p => forward port p id len cls isReq (.passthrough id len) s
          | none => s
        | none => s
      else s)

/-- The port a DPID leads to (R403). -/
def pbrPort (s : State) (dpid : Nat) : Option Nat :=
  let b := 128 * regFld s aCxpPbr 4 0
  if b ≤ dpid ∧ dpid < b + 128 then
    (if dpid - b < 96 && bit (word (cxpOf s (dpid - b)).cfg) 11 && portRole s (dpid - b) = 2 then some (dpid - b) else none)
  else
    let w := regGet s (aCxpRt dpid)
    if bit w 63 && portRole s (fld w 6 0) = 3 then some (fld w 6 0) else none

/-- A PBR flit on a fabric port (R403): routed by its DPID, or discarded and counted; a CXL.io request is then answered with
Unsupported Request. -/
def execPbrFlit (port dpid id len : Nat) (ioReq isReq : Bool) (s : State) : Host.Outcome State Fault Refusal :=
  finish (
    if isTrlPort s port || !(portRole s port == 3) || !(linkUp s port) || regFld s aCxpPbr 63 63 = 0 then s
    else match pbrPort s dpid with
      | some p => forward port p id len 3 isReq (.pbr dpid len) s
      | none =>
        let i := takeItem port s
        let s1 := { i.2.2 with cxp := { i.2.2.cxp with noroute := satAdd (2 ^ 48 - 1) i.2.2.cxp.noroute 1 } }
        releaseItem i.1 (if ioReq then
          sendResp port (3 + (sget {} s1.erg.pqos port).rxclass) 0xFFFF bytesHdr i.2.1 0 false 0 (.unsupported id) s1 else s1))

/-! ### AtomicOps (R167-R169, R175) -/

/-- Whether a vPPB of a VCS presents a KMD instance, and which. -/
def kmdAt (s : State) (vcs vppb : Nat) : Option Nat :=
  match sget none s.dom.vppb (vcs * 256 + vppb) with | some (.kmd d) => some d | _ => none

/-- FetchAdd by operation window, R168. -/
def fetchOp (w : Nat) : MeldOp :=
  match w with
  | 0 => .add | 1 => .and | 2 => .or | 3 => .xor | 4 => .smin | 5 => .smax | 6 => .umin | _ => .umax

/-- The lowest window with DRAIN 0 and VALID 1 of a VCS and domain that covers a DA. -/
def winForDa (s : State) (vcs dom da : Nat) : Option (Nat × Window) :=
  s.dom.wins.find? (fun p => p.2.valid && !p.2.drain && (p.2.vcs == vcs) && (p.2.dom == dom)
    && (p.2.da * unit256 ≤ da : Bool) && (da < (p.2.da + p.2.size) * unit256 : Bool))

/-- The operation of an AtomicOp: the type is 0 FetchAdd, 1 Swap, 2 CAS; FetchAdd takes it from the operation window of its BAR2 offset (R168). -/
def atomicOf (typ off : Nat) : MeldOp := if typ = 0 then fetchOp (off / 2 ^ 35 % 8) else if typ = 1 then .swap else .cas

/-- The DA of an AtomicOp (R167, R168): MELD_BASE ∥ O[34:0]. -/
def atomicDa (s : State) (vcs dom off : Nat) : Nat := (sget (0, false) s.meld.base (vcs * 4096 + dom)).1 * 2 ^ 35 + off % 2 ^ 35

/-- An AtomicOp of a host arrives at BAR2 offset O of a domain's KMD instance: its item is taken, it may be copied and sampled, it is counted and
in flight. Answers the request. -/
def atomicEnters (port vcs dom tag typ off : Nat) (w : MeldW) (a b : Nat) (s : State) : Req × State :=
  let i := takeItem port s
  let sm := smpSelect port vcs (32 + typ) dom off (mirrorPort port 1 i.1 3 6 dom (bytesHdr + w.bytes) off i.2.2)
  let s1 := countDP 0x1012 dom port sm.2
  let da := atomicDa s vcs dom off
  let r : Req := { mkReq s1.next (.hostAtomic port vcs tag) (.atomic (atomicOf typ off) w (da % 64) a b) dom (da / 64 * 64) .priv with
    acct := i.2.1, item := i.1, smp := sm.1, time := s1.time }
  (r, reqAdd r (takeNext (smpUpd sm.1 (fun x => { x with da := da }) s1)))

/-- A host AtomicOp at BAR2 offset O (R167 to R169, R175). -/
def hostAtomic (port vppb tag typ off : Nat) (w : MeldW) (a b : Nat) (s : State) : State :=
  match hostPort? s port with
  | none => s
  | some vcs => match kmdAt s vcs vppb with
    | none => s
    | some dom =>
      let x := atomicEnters port vcs dom tag typ off w a b s
      let r := x.1
      let s2 := x.2
      let da := atomicDa s vcs dom off
      let miss := fun (x : State) => answer r .refused (raiseD fBindWindowMiss dom (countD 0x1002 dom x))
      if !(meldLegal (atomicOf typ off) w) || !(da % w.bytes == 0) then
        let s3 := smpGo r.smp (reqDel r.id s2)
        releaseItem r.item (sendResp port (domClass s3 port dom) dom bytesHdr r.acct 0 false r.smp (.malformed tag) s3)
      else if (!(typ == 0) && !(off / 2 ^ 35 % 8 == 0)) || !(sget (0, false) s.meld.base (vcs * 4096 + dom)).2 then miss s2
      else match winForDa s2 vcs dom da with
        | none => miss s2
        | some (wn, x) =>
          if x.wp then answer r .refused (raiseD fBindWpRefuse dom (countD 0x1004 dom s2))
          else if domRefuses (domOf s2 dom) vcs then answer r .refused (raiseD fBindStateRefuse dom (countD 0x1003 dom s2))
          else
            let r1 := { r with win := some wn, mode := x.mode }
            let s3 := mirrorFlow port 1 r.item (domClass s2 port dom) 6 dom (bytesHdr + w.bytes) da (reqPut r1 s2)
            if (homedElse s3 dom).isSome then enterHome r1 s3 else gateEnter r1 s3

/-- FetchAdd. -/
def execAtomicopFetchadd (port vppb tag off : Nat) (w : MeldW) (a : Nat) (s : State) : Host.Outcome State Fault Refusal :=
  finish (hostAtomic port vppb tag 0 off w a 0 s)

/-- Swap. -/
def execAtomicopSwap (port vppb tag off : Nat) (w : MeldW) (a : Nat) (s : State) : Host.Outcome State Fault Refusal :=
  finish (hostAtomic port vppb tag 1 off w a 0 s)

/-- CAS. -/
def execAtomicopCas (port vppb tag off : Nat) (w : MeldW) (a b : Nat) (s : State) : Host.Outcome State Fault Refusal :=
  finish (hostAtomic port vppb tag 2 off w a b s)

/-- An atomic that waited for a Meld tracker takes a freed one, in arrival order (R164). -/
def execMeldTrackerResume (unit : Nat) (s : State) : Host.Outcome State Fault Refusal :=
  finish (match s.reqs.find? (fun r => decide (r.phase = .meldTracker) && (sliceOf (keyOf r.dom r.da) == unit)) with
    | some r =>
      let k := keyOf r.dom r.da
      if meldRoom s k then enterMeld { r with phase := .lineQueue } (reqPut { r with phase := .lineQueue } s) else s
    | none => s)

/-- A far atomic gets no HMELD_RSP within HSNP_TO (R175). -/
def execMeldFarTimeout (tag : Nat) (s : State) : Host.Outcome State Fault Refusal :=
  finish (match s.meld.far.find? (fun f => f.tag == tag) with
    | none => s
    | some f =>
      let s1 := advanceTo (f.time + regFld s aCohCfg 51 40 * 1000) { s with meld := { s.meld with
        far := s.meld.far.filter (fun x => !(x.tag == tag))
        farTo := satAdd (2 ^ 48 - 1) s.meld.farTo 1 } }
      match reqOf s1 f.req with
      | some r => finishReq r (.status .timeout) (raiseD fMeldFarTimeout r.dom (countD 0x4006 r.dom s1))
      | none => s1)

/-! ### Placement commands -/

/-- A placement TLB miss completes its map read (R190). -/
def execPlacementTlbFill (idx : Nat) (s : State) : Host.Outcome State Fault Refusal :=
  finish (if s.dlr.misses.contains idx then tlbFill idx s else s)

/-- Dealer commits a fill (R193): backing is taken under the constraints, one map write names it, the promise ends, and held
accesses go on. -/
def execFillCommit (idx : Nat) (s : State) : Host.Outcome State Fault Refusal :=
  finish (match s.dlr.fills.find? (fun f => f.idx == idx) with
    | none => s
    | some f => match (fillChoice s f.dom).bind (fun l => takeAll l s) with
      | none => s
      | some (ls, s1) =>
        let s2 := promiseEnd (promiseOf s1 f.dom) { s1 with dlr := { s1.dlr with fills := s1.dlr.fills.filter (fun x => !(x.idx == idx)) } }
        wake (fun p => decide (p = .fillHold idx)) (countD 0x5021 f.dom (mapNow idx (genUp (withLoc (mapOf s2 idx) ls)) s2)))

/-- FILL_WAIT passes for a stalled fill (R194): the entry becomes POISONED; the held writes are then discarded and the held
reads answered with poison. -/
def execFillWaitExpire (idx : Nat) (s : State) : Host.Outcome State Fault Refusal :=
  finish (match s.dlr.fills.find? (fun f => (f.idx == idx) && f.stall) with
    | none => s
    | some f =>
      let s1 := advanceTo (f.since + regFld s aDlrCfg 19 10 * 1000) { s with dlr := { s.dlr with
        fills := s.dlr.fills.filter (fun x => !(x.idx == idx)) } }
      let e := mapOf s1 idx
      let s2 := promiseEnd (promiseOf s1 f.dom) (mapNow idx (genUp { e with kind := .poisoned }) s1)
      wake (fun p => decide (p = .fillHold idx)) (raiseD fDlrFillFail f.dom s2))

end Sys2Proof.Machine
end

