-- ==== Sys2Proof/Machine/CxlPort.lean ====
section
/-!
DEFINITION. Machine/CxlPort.lean: CXL ports (spec 13) and the Erg's output side (spec 04): transmission, parking, credits, replay, pause and
resume, timeouts, IDE, DOE, PERST_N; the pace monitor and the patrol scrub.
-/
namespace Sys2Proof.Machine

/-! ### Transmission (R104-R110, R138, R379, R386, R394) -/

/-- Credit channel of a record: 0 CXL.io and CXL.cache in pass-through, 1 CXL.io completions, 2 S2M DRS, 3 S2M NDR, 4 BISnp, 5 M2S Req,
6 M2S RwD. -/
def Msg.chan : Msg → Nat
  | .memData _ _ _ _ => 2 | .cmp _ _ => 3 | .biConflictAck _ => 3 | .bisnp _ _ _ => 4
  | .cplD _ _ _ => 1 | .completerAbort _ => 1 | .unsupported _ => 1 | .malformed _ => 1
  | .devRd _ _ => 5 | .devWr _ _ _ _ _ => 6 | _ => 0

/-- The port holds the partner's credit for a record (R379). -/
def hasCredit (x : CxpPort) (c : Nat) : Bool := x.inf.contains c || (0 < sget 0 x.cred c : Bool)

/-- Flits of transmit replay buffer, R380, R381. -/
def replayRoom (s : State) (p : Nat) (x : CxpPort) : Nat :=
  if x.flit = 1 then 1024
  else match fld (tileCfg s (p / 4)) 61 60 with | 0 => 512 | 1 => 256 | _ => 128

/-- IDE_REQ holds back every class but SC0 until both streams are Secure (R394). -/
def ideHolds (x : CxpPort) : Bool := bit (word x.cfg) 9 && !(x.ideIo == 2 && x.ideCm == 2)

/-- Records the port may send now. -/
def sendable (x : CxpPort) (r : OutRec) : Bool := (!(ideHolds x) || r.cls == 0) && hasCredit x r.msg.chan

/-- The record a CXL port sends next, and its queues with the scheduling state after it. -/
def pickTx (s : State) (p : Nat) : Option (OutRec × PortQ) :=
  let q := pqOf s p
  let x := cxpOf s p
  (pickRecord (pqPut p { q with q := q.q.filter (sendable x) } s) p).map (fun y =>
    (y.1, { y.2 with q := q.q.filter (fun r => !(r.id == y.1.id)), parked := q.parked }))

/-- Domain of a class's bytes: SC3 to SC6 only (18, 0x0010-0x0017). -/
def txDom (r : OutRec) : Option Nat := if 3 ≤ r.cls && r.cls ≤ 6 && r.dom < 4096 then some r.dom else none

/-- What the transmission of a record starts: the timer of a device request, of a BISnp, a hold mark (R138, R150, R386). -/
def txStarts (p : Nat) (r : OutRec) (s : State) : State :=
  let hold := regFld s aCohCfg 8 0 * 32
  let s1 := { s with coh := { s.coh with
    holds := s.coh.holds.map (fun h => if h.grant = r.id && h.til = 0 then { h with til := s.time + hold } else h) } }
  let timed := fun (t : Nat) => cxpPut p { cxpOf s1 p with timers := (cxpOf s1 p).timers ++ [(t, s1.time)] } s1
  match r.msg with
  | .devRd t _ => timed t
  | .devWr t _ _ _ _ => timed t
  | .bisnp id _ _ =>
    let dom := (s1.coh.txns.find? (fun t => t.snoops.any (fun x => x.id == id))).map (fun t => keyDom t.key)
    countN 0x3003 dom (some p) 1 { s1 with coh := { s1.coh with txns := s1.coh.txns.map (fun t =>
      { t with snoops := t.snoops.map (fun x => if x.id = id then { x with time := s1.time + 1 } else x) }) } }
  | _ => s1

/-- A record has been transmitted (R94, R110): its backing is taken, its cells are released, port mirrors copy it. -/
def txDone (p : Nat) (r : OutRec) (s : State) : State :=
  let s0 := match r.needs with
    | some k => match takeCells k 1 s with
      | some x => { x with erg := { x.erg with backed := sset 0 x.erg.backed k (sget 0 x.erg.backed k + 1) } }
      | none => s
    | none => s
  let s1 := countN (0x0010 + r.cls) (txDom r) (some p) r.bytes (countN 0x0002 none (some p) (ceilDiv r.bytes 256) s0)
  let s2 := txStarts p r (if r.cls = 7 then s1 else mirrorPort p 2 r.item r.cls r.msg.bitOf r.dom r.bytes 0 s1)
  let s3 := giveCells r.acct r.cells s2
  let s4 := if r.cls = 7 then releaseCopy r.item s3 else releaseItem r.item s3
  emit (.tx p r.msg) (smpEnd r.smp false s4)

/-- A CXL port transmits the record its scheduler picks (R108). -/
def execTxRecord (port : Nat) (s : State) : Host.Outcome State Fault Refusal :=
  finish (
    let x := cxpOf s port
    if isTrlPort s port || !(x.link == 2) || replayRoom s port x ≤ x.replay.length then s
    else match pickTx s port with
      | none => s
      | some (r, q) =>
        let c := r.msg.chan
        let x1 := { x with
          cred := if x.inf.contains c then x.cred else sset 0 x.cred c (sget 0 x.cred c - 1)
          replay := x.replay ++ [x.txSeq], txSeq := (x.txSeq + 1) % 1024 }
        txDone port r (bwAdd port false (flitBytes s port) (cxpPut port x1 (pqPut port q s))))

/-- A sample stops waiting on a parked device request. -/
def unparkSmp (r : OutRec) (s : State) : State :=
  let tag := match r.msg with | .devRd t _ => some t | .devWr t _ _ _ _ => some t | _ => none
  match tag with
  | none => s
  | some t => match s.reqs.find? (fun x => x.legs.any (fun l => l.tag == t)) with
    | some x => smpGo x.smp s
    | none => s

/-- A parked record joins its queue. -/
def unpark (p : Nat) (r : OutRec) (s : State) : State :=
  let q := pqOf s p
  unparkSmp r (pqPut p { q with q := q.q ++ [r], parked := q.parked.filter (fun x => !(x.id == r.id)) } s)

/-- The oldest parked record of a class joins its queue once the queue is below its limit (R105). -/
def execParkRelease (port cls : Nat) (s : State) : Host.Outcome State Fault Refusal :=
  finish (
    let q := pqOf s port
    match q.parked.find? (fun r => r.cls == cls) with
    | some r => if withinQueue s 32 cls (queueLen q cls + recLen r) && !(headBlocked s q r) then unpark port r s else s
    | none => s)

/-- A freed sub-queue head lets the first record parked for want of one join its queue (R106). -/
def execSubqueueHeadFree (port : Nat) (s : State) : Host.Outcome State Fault Refusal :=
  finish (
    let q := pqOf s port
    match q.parked.find? (fun r => (3 ≤ r.cls : Bool) && (r.cls ≤ 6 : Bool) && !((subQueues q).contains (r.cls, r.dom))
        && withinQueue s 32 r.cls (queueLen q r.cls + recLen r)) with
    | some r => if headBlocked s q r then s else unpark port r s
    | none => s)

/-! ### Credits, acknowledgement, replay (R376-R381) -/

/-- A receiver takes backing for n cells of credits of a class and advertises them (R99, R377); withheld while throttled at level 3
is a matter of rate, which the model leaves out. -/
def execCreditAdvertise (port cls n : Nat) (s : State) : Host.Outcome State Fault Refusal :=
  finish (
    if isTrlPort s port || 7 ≤ cls || !(linkUp s port) then s
    else
      let k := acctKey port cls
      match takeCells k n s with
      | some s1 => emit (.link port 12 (cls * 65536 + n)) { s1 with erg := { s1.erg with
          backed := sset 0 s1.erg.backed k (sget 0 s1.erg.backed k + n)
          crWait := s1.erg.crWait.filter (fun x => !(x == k)) } }
      | none => if s.erg.crWait.contains k then s else { s with erg := { s.erg with crWait := k :: s.erg.crWait } })

/-- A partner returns credits for a channel, or advertises infinite ones (R376, R379); a return that the channel could not have
consumed is an illegal credit return (R404): above 65,535 held. -/
def execCreditReceived (port chan n : Nat) (infinite : Bool) (s : State) : Host.Outcome State Fault Refusal :=
  finish (
    let x := cxpOf s port
    if isTrlPort s port || x.link = 0 || x.link = 4 || 7 ≤ chan then s
    else if infinite then cxpPut port { x with inf := if x.inf.contains chan then x.inf else chan :: x.inf } s
    else if 65535 < sget 0 x.cred chan + n then raiseP (fCxp port 6) port s
    else cxpPut port { x with cred := sset 0 x.cred chan (sget 0 x.cred chan + n) } s)

/-- An acknowledgement frees every flit up to a sequence number. -/
def ackFlits (seq : Nat) (l : List Nat) : List Nat :=
  if l.contains seq then (l.dropWhile (fun k => !(k == seq))).drop 1 else l

/-- The partner acknowledges flits (R380). -/
def execFlitAck (port seq : Nat) (s : State) : Host.Outcome State Fault Refusal :=
  finish (
    let x := cxpOf s port
    let l := ackFlits (seq % 1024) x.replay
    cxpPut port { x with replay := l, replayNum := if l.length < x.replay.length then 0 else x.replayNum } s)

/-- A pause starts (R382, R383): the scheduler stops, timers of what was sent on the port stop. -/
def pauseStart (port : Nat) (s : State) : State :=
  let x := cxpOf s port
  if isTrlPort s port || !(x.link == 2) then s
  else icuEdge (7168 + port) (cxpPut port { x with link := 3, pausedAt := s.time, pauses := satAdd (2 ^ 32 - 1) x.pauses 1 } s)

/-- Flits are sent again (R380), counted one by one. -/
def replayFlits (port : Nat) (l : List Nat) (s : State) : State :=
  l.foldl (fun s' k => emit (.link port 13 k) (bwAdd port false (flitBytes s' port) (countP 0xA001 port s'))) s

/-- A replay request (R380): one flit when selective, else every flit from there on; the fourth replay without progress enters
Recovery (R382, REPLAY_NUM of PCIe 6.2). -/
def execCxlReplayRequest (port seq : Nat) (selective : Bool) (s : State) : Host.Outcome State Fault Refusal :=
  finish (
    let x := cxpOf s port
    if !(x.link == 2) || !(x.replay.contains (seq % 1024)) then s
    else
      let l := x.replay.dropWhile (fun k => !(k == seq % 1024))
      let s1 := replayFlits port (if selective then l.take 1 else l) (cxpPut port { x with replayNum := (x.replayNum + 1) % 4 } s)
      if x.replayNum + 1 = 4 then pauseStart port s1 else s1)

/-! ### Pause and resume (R382-R385) -/

/-- A pause trigger; one during a pause merges with it (R385). -/
def execPauseStart (port : Nat) (s : State) : Host.Outcome State Fault Refusal := finish (pauseStart port s)

/-- Rate of a code of LANE_TILE_CFG.MAXRATE, in units of 0.1 GT/s. -/
def rateOf (c : Nat) : Nat :=
  match c with | 0 => 25 | 1 => 50 | 2 => 80 | 3 => 160 | 4 => 320 | _ => 640

/-- Result word of PORTCTL RETRAIN. -/
def retrainDetail (rate width : Nat) : Word := word (at_ (rateOf rate) 8 + width)

/-- Timers of requests and snoops sent on a port move by the length of a pause (R384). -/
def shiftTimers (port by_ : Nat) (s : State) : State :=
  let v := vcsOf? s port
  let x := cxpOf s port
  let s1 := cxpPut port { x with timers := x.timers.map (fun t => (t.1, t.2 + by_)) } s
  { s1 with coh := { s1.coh with txns := s1.coh.txns.map (fun t => { t with snoops := t.snoops.map (fun y =>
      if some y.agent == v && !(y.time == 0) then { y with time := y.time + by_ } else y) }) } }

/-- The link has retrained at a width and rate (R383): unacknowledged flits are replayed, the scheduler resumes; narrower than at
boot is degraded. -/
def execPauseResume (port width rate : Nat) (s : State) : Host.Outcome State Fault Refusal :=
  finish (
    let x := cxpOf s port
    if !(x.link == 3) || width = 0 || 16 < width then s
    else
      let s1 := shiftTimers port (s.time - x.pausedAt) s
      let y := cxpOf s1 port
      let deg := decide (width < y.bootWidth)
      let s2 := replayFlits port y.replay (cxpPut port { y with
        link := 2, width := width, rate := rate % 8, degraded := deg, slot := none, replayNum := 0 } s1)
      let s3 := match y.slot with | some n => slotPost n .ok (retrainDetail rate width) s2 | none => s2
      icuEdge (7168 + port) (if deg then raiseP (fCxp port 1) port s3 else s3))

/-- A pause lasts longer than DEGRADE_MAX: the link goes down (R384). -/
def execPauseLimitExpire (port : Nat) (s : State) : Host.Outcome State Fault Refusal :=
  finish (
    let x := cxpOf s port
    if !(x.link == 3) then s
    else raiseP (fCxp port 2) port (portDown port 0 (advanceTo (x.pausedAt + regFld s aCxpCfg 31 23 * 1000000) s)))

/-! ### Link up and down -/

/-- Links train from boot step 7 on; a host port's link needs DEVICE_READY (R53, R462). -/
def bootTrains (s : State) (port : Nat) : Bool := if portRole s port = 1 then s.pwr.devReady else trainLive s

/-- A link trains under the boot rules, on a port that is enabled and not held, and on a host port PERST_N high (R397). -/
def mayTrain (s : State) (port : Nat) : Bool :=
  let x := cxpOf s port
  bootTrains s port && !(portRole s port == 0) && !x.off && !(x.link == 4) && (sget {} s.lane.tiles (port / 4)).clkok && (!(portRole s port == 1) || x.perst)

/-- Negotiation meets the role (R375): flit 0 none (PCIe), 1 68-byte, 2 256-byte. -/
def modeFits (role flit : Nat) (io mem pbr : Bool) : Bool :=
  if role = 1 then io && mem && !(flit == 0)
  else if role = 3 then (flit == 2) && pbr && io && mem
  else true

/-- The VCS of a host port whose link comes up: the one it has, or the one assigned, when no other port has it (log entry 29, DEDUCED). -/
def assignVcs (port vcs : Nat) (s : State) : State :=
  if !(portRole s port == 1) || (vcsOf? s port).isSome || 64 ≤ vcs || (portOfVcs? s vcs).isSome then s
  else { s with dom := { s.dom with vcsOf := sset 0 s.dom.vcsOf port (vcs + 1) } }

/-- A CXL port finishes training and negotiation: it comes up, or is held down (R375). -/
def execLinkUp (port flit rate width : Nat) (io mem cache pbr : Bool) (vcs : Nat) (s : State) :
    Host.Outcome State Fault Refusal :=
  finish (
    let x := cxpOf s port
    if isTrlPort s port || !(mayTrain s port) || x.link = 2 || x.link = 3 then s
    else if !(modeFits (portRole s port) flit io mem pbr) then
      let s1 := match x.slot with | some n => slotPost n .faulted 0 s | none => s
      raiseP (fCxp port 0) port (cxpPut port { x with link := 4, slot := none } s1)
    else
      let boot := if x.bootWidth = 0 then width else x.bootWidth
      let s1 := cxpPut port { x with
        link := 2, flit := flit % 4, rate := rate % 8, width := width % 32, io := io, mem := mem, cache := cache, pbr := pbr
        bootWidth := boot, degraded := decide (width < boot), cfg := (regGet s (aCxpPortCfg port)).toNat, slot := none } s
      let s2 := match x.slot with | some n => slotPost n .ok (retrainDetail rate width) s1 | none => s1
      let s3 := { s2 with dom := { s2.dom with lostHost := s2.dom.lostHost.filter (fun p => !(p == port)) } }
      icuEdge (7168 + port) (swEvent (.link port true) (assignVcs port vcs s3)))

/-- A port's link goes down (R124, R54, R58); a TRL port keeps its session in HOLD (R420). -/
def execLinkDown (port : Nat) (s : State) : Host.Outcome State Fault Refusal :=
  finish (if isTrlPort s port then trlLinkDown (port / 4) s else portDrop port s)

/-- A host is lost (R54): its port's link goes down without an orderly removal. -/
def execHostLost (port : Nat) (s : State) : Host.Outcome State Fault Refusal :=
  finish (if portRole s port = 1 then hostLost port (portDrop port s) else s)

/-- A pool device is lost (R58). -/
def execPoolDeviceLost (dev : Nat) (s : State) : Host.Outcome State Fault Refusal := finish (devGone dev s)

/-! ### Completion timeouts (R386-R389, R434) -/

/-- A CXL.mem request to a pool device times out (R388): the link goes down and every device behind it is lost. -/
def execMemCtoExpire (port tag : Nat) (s : State) : Host.Outcome State Fault Refusal :=
  finish (
    let x := cxpOf s port
    match x.timers.find? (fun t => t.1 == tag), x.link with
    | some t, 2 =>
      let s1 := advanceTo (t.2 + regFld s aCxpCfg 13 0 * 1000) s
      let s2 := countP 0xA004 port (cxpPut port { x with cto := satAdd (2 ^ 22 - 1) x.cto 1 } s1)
      portDown port 0 (raiseP (fCxp port 3) port s2)
    | _, _ => s)

/-- A CXL.io request of firmware ends: the command or slot that issued it. -/
def ioEnd (r : IoReq) (st : Status) (data : List Nat) (s : State) : State :=
  let s1 := { s with cxp := { s.cxp with io := s.cxp.io.filter (fun x => !(x.tag == r.tag)) } }
  match r.who with
  | .mgmt _ => respond .mgmt st.code data s1
  | .slot n => slotPost n st 0 s1
  | .boot => s1

/-- A CXL.io request times out (R389). -/
def execIoCtoExpire (tag : Nat) (s : State) : Host.Outcome State Fault Refusal :=
  finish (match s.cxp.io.find? (fun r => r.tag == tag) with
    | none => s
    | some r =>
      let x := cxpOf s r.port
      let s1 := advanceTo (r.time + regFld s aCxpCfg 41 32 * 1000000) s
      ioEnd r .timeout [] (raiseP (fCxp r.port 4) r.port (countP 0xA004 r.port (cxpPut r.port { x with
        cto := satAdd (2 ^ 22 - 1) x.cto 1 } s1))))

/-- A completion for a CXL.io request of firmware (R387): it wins against the timeout, or comes late. -/
def execIoCompletion (port tag : Nat) (data : List Nat) (s : State) : Host.Outcome State Fault Refusal :=
  finish (
    let s1 := consume port s
    match s1.cxp.io.find? (fun r => (r.tag == tag) && (r.port == port)) with
    | none => lateCpl port s1
    | some r => ioEnd r .ok data s1)

/-- Firmware issues a CXL.io request on a device port. -/
def ioIssue (port : Nat) (who : IoWho) (s : State) : State :=
  let r : IoReq := { tag := s.next, port := port, who := who, time := s.time }
  let s1 := { takeNext s with cxp := { s.cxp with io := s.cxp.io ++ [r] } }
  sendRec port 0 0xFFFF bytesHdr acctControl none 0 true false 0 (.io r.tag bytesHdr) s1

/-! ### IDE (R390-R394) -/

/-- The requester of a port's IDE streams is the device: a device port, or a fabric port whose IDE_ROLE says so. -/
def ideRequester (s : State) (port : Nat) : Bool :=
  (portRole s port == 2) || ((portRole s port == 3) && bit (regGet s (aCxpPortCfg port)) 10)

/-- As requester the device programs or refreshes a stream's keys (R391): the other key set of both directions is programmed with
keys from Emmor's generator, and put into use, so that the stream is Secure; the invocation counters restart. The table has no row
of its own for the first programming (log entry 51, DEDUCED). -/
def execIdeKeyRefresh (port stream : Nat) (s : State) : Host.Outcome State Fault Refusal :=
  finish (
    let x := cxpOf s port
    if !(ideRequester s port) || 2 ≤ stream || !(x.link == 2) then s
    else
      let set := 1 - sget 0 x.keySet stream
      let k := fun (dir : Nat) => stream * 4 + dir * 2 + set
      let v := fun (i : Nat) => (Config.freeWord (s.free + i)).toNat
      drawFree (drawFree (cxpPut port { x with
        keys := sput (sput x.keys (k 0) (v 0)) (k 1) (v 1)
        keySet := sset 0 x.keySet stream set
        ideIo := if stream = 0 then 2 else x.ideIo
        ideCm := if stream = 0 then x.ideCm else 2
        keyCnt := sset 0 (sset 0 x.keyCnt (stream * 2) 0) (stream * 2 + 1) 0 } s)))

/-! ### DOE (R395, R396) -/

/-- A DOE mailbox: of a VCS's upstream port function (its number), or of a KMD instance in a VCS (64 + VCS × 4096 + domain). -/
def doeOf (s : State) (fn : Nat) : DoeMb := sget {} s.cxp.doe fn

/-- Replaces a mailbox. -/
def doePut (fn : Nat) (x : DoeMb) (s : State) : State := { s with cxp := { s.cxp with doe := sset {} s.cxp.doe fn x } }

/-- A mailbox holds a response, and is no longer busy. -/
def doeReply (fn : Nat) (words : List Nat) (s : State) : State :=
  respond (.doe fn) 0 words (doePut fn { doeOf s fn with busy := false, ready := true, resp := words } s)

/-- Negotiated bandwidth of a port in MB/s: width × rate ÷ 8. -/
def portBw (s : State) (port : Nat) : Nat := (cxpOf s port).width * rateOf (cxpOf s port).rate * 100 / 8

/-- The CDAT of a KMD instance (R396): for each DC region its index, base, length, latency and bandwidth. -/
def cdat (s : State) (vcs dom : Nat) : List Nat :=
  let d := domOf s dom
  let bw := match portOfVcs? s vcs with | some p => portBw s p | none => 0
  ([(0, 0, d.privSize), (1, d.privSize, d.scohSize), (2, d.privSize + d.scohSize, d.sncoSize)].filter
    (fun r => !(r.2.2 == 0))).flatMap (fun r => [r.1, r.2.1 * unit256, r.2.2 * unit256, 367, bw])

/-- A data object is written to a DOE mailbox (R395): protocol 0 Discovery, 1 CMA/SPDM, 2 secured CMA/SPDM, 3 table access; its
length in DW; the index that Discovery asks for. The SPDM requests themselves are commands of chapter 16: here the object
makes the mailbox busy. -/
def execDoeRequest (fn prot len index : Nat) (s : State) : Host.Outcome State Fault Refusal :=
  finish (
    let x := doeOf s fn
    if x.busy then s
    else if 4096 < len || 4 ≤ prot then doePut fn { x with err := true } s
    else if prot = 0 then
      doeReply fn [index % 4, if index < 3 then index + 1 else 0] s
    else if prot = 3 then
      (if fn < 64 then doePut fn { x with err := true } s
       else doeReply fn (cdat s ((fn - 64) / 4096) ((fn - 64) % 4096)) s)
    else doePut fn { x with busy := true, ready := false } s)

/-- DOE Abort ends the current object. -/
def execDoeAbort (fn : Nat) (s : State) : Host.Outcome State Fault Refusal :=
  finish (doePut fn { doeOf s fn with busy := false, ready := false, err := false, resp := [] } s)

/-! ### PERST_N (R397) and low power (R362) -/

/-- Slot power controller of a device port with SPCV = 1. -/
def portSpc (s : State) (port : Nat) : Option Nat :=
  let w := regGet s (aCxpPortCfg port)
  if bit w 8 then some (fld w 4 0) else none

/-- A host port's PERST_N falls: the link is held down, and bound hosts are lost. -/
def execPerstAssert (port : Nat) (s : State) : Host.Outcome State Fault Refusal :=
  finish (if !(portRole s port == 1) then s
    else
      let s1 := hostLost port (portDrop port s)
      cxpPut port { cxpOf s1 port with perst := false, perstAt := 0 } s1)

/-- A host port's PERST_N rises: training starts once DEVICE_READY is high. -/
def execPerstDeassert (port : Nat) (s : State) : Host.Outcome State Fault Refusal :=
  finish (if !(portRole s port == 1) then s
    else
      let x := cxpOf s port
      cxpPut port { x with perst := true, perstAt := s.time + 1, link := if x.link = 0 && bootTrains s port then 1 else x.link } s)

/-- The device releases an output PERST_N: slot power good where SPCV = 1, and a stable reference clock. -/
def execPerstRelease (port : Nat) (s : State) : Host.Outcome State Fault Refusal :=
  finish (
    let x := cxpOf s port
    let pg := match portSpc s port with | some n => (sget {} s.spc n).pg | none => true
    if portRole s port = 0 || portRole s port = 1 || isTrlPort s port || x.off || s.flt.terminal || !pg
        || !(sget {} s.lane.tiles (port / 4)).clkok then s
    else cxpPut port { x with
      perst := true, perstAt := s.time + 1, link := if x.link = 0 && bootTrains s port then 1 else x.link } s)

/-- A CXL port enters ASPM L1 (mode 1), or L0p leaving a number of lanes active (mode 2): idle lanes enter WARM_IDLE (R362). -/
def execCxlLowPowerEntry (port mode keep : Nat) (s : State) : Host.Outcome State Fault Refusal :=
  finish (
    let x := cxpOf s port
    let w := regGet s (aCxpPortCfg port)
    let ok := (mode == 1 && bit w 12) || (mode == 2 && bit w 13 && x.flit == 2)
    if isTrlPort s port || !(x.link == 2) || !ok || !(x.low == 0) then s
    else
      let ls := if mode = 1 then portLanes s port else (portLanes s port).drop keep
      lanesTo ls 2 3 (cxpPut port { x with low := mode } s))

/-- A CXL port leaves L1 or L0p. -/
def execCxlLowPowerExit (port : Nat) (s : State) : Host.Outcome State Fault Refusal :=
  finish (
    let x := cxpOf s port
    if isTrlPort s port || x.low = 0 then s else lanesTo (portLanes s port) 3 2 (cxpPut port { x with low := 0 } s))

/-! ### Pace monitor and patrol scrub (R118-R123) -/

/-- Throttle level of a cycle, R118. -/
def paceLevel (limit c : Nat) : Nat := if c ≤ limit then 0 else if c ≤ 1600 then 1 else if c ≤ 2000 then 2 else 3

/-- The end of a 100 ns window with a measured mean bank cycle, in ps. -/
def execPaceWindow (cycle : Nat) (s : State) : Host.Outcome State Fault Refusal :=
  finish (
    let limit := regFld s aPaceCfg 15 0
    let c := s.erg.cyc
    let peak := max c.1 cycle
    if cycle ≤ limit then { s with erg := { s.erg with cyc := (peak, cycle, c.2.2.1, c.2.2.2) } }
    else
      let s1 := raiseN fErgPaceDegraded { s with erg := { s.erg with cyc := (peak, cycle, paceLevel limit cycle, true) } }
      if 5000 < cycle then raiseN fErgPaceCritical s1 else s1)

/-- 1 ms with CYCLE at or below LIMIT: the level falls by one; DEGRADED clears at 0 (R119). -/
def execPaceLevelDecay (s : State) : Host.Outcome State Fault Refusal :=
  finish (
    let c := s.erg.cyc
    if regFld s aPaceCfg 15 0 < c.2.1 then s
    else
      let l := c.2.2.1 - 1
      { s with erg := { s.erg with cyc := (c.1, c.2.1, l, if l = 0 then false else c.2.2.2) } })

/-- A record or request in the store is poisoned (R122). -/
def poisonRec (id : Nat) (s : State) : State :=
  let mark := fun (r : OutRec) => if r.id = id then { r with
    poison := true
    msg := match r.msg with
      | .memData t m d _ => .memData t m d true
      | .devWr t a d m _ => .devWr t a d m true
      | .cplD t o _ => .cplD t o true
      | m => m } else r
  { s with
    erg := { s.erg with ports := s.erg.ports.map (fun p => (p.1, { p.2 with q := p.2.q.map mark, parked := p.2.parked.map mark })) }
    reqs := s.reqs.map (fun r => if r.id = id then { r with poison := true } else r) }

/-- A record whose header is lost is discarded; a request so lost never answers (R123). -/
def dropRec (id : Nat) (s : State) : State :=
  let s1 := s.erg.ports.foldl (fun s' p =>
    match ((pqOf s' p.1).q ++ (pqOf s' p.1).parked).find? (fun r => r.id == id) with
    | some r =>
      let q := pqOf s' p.1
      let s2 := pqPut p.1 { q with q := q.q.filter (fun x => !(x.id == id)), parked := q.parked.filter (fun x => !(x.id == id)) } s'
      let s3 := giveCells r.acct r.cells s2
      if r.cls = 7 then releaseCopy r.item s3 else releaseItem r.item s3
    | none => s') s
  match reqOf s1 id with
  | some r => txnDel id (releaseItem r.item (reqDel id s1))
  | none => s1

/-- The patrol scrub, or a read, visits a word (R121-R123): `kind` 0 no error, 1 corrected, 2 uncorrectable in a payload, 3 uncorrectable
in a header or framing grain; `rec` is the record or request the word belongs to. -/
def execErgPatrolScrub (kind grain w cell rec_ : Nat) (s : State) : Host.Outcome State Fault Refusal :=
  finish (
    if kind = 0 || 4 ≤ kind then s
    else
      let e := s.erg.ecc
      let s1 := { s with erg := { s.erg with
        ecc := if kind = 1 then (e.1, satAdd (2 ^ 32 - 1) e.2 1) else (satAdd (2 ^ 32 - 1) e.1 1, e.2)
        eccLast := (true, if kind = 1 then 1 else 2, grain % 4, w % 8, cell % 2 ^ 20) } }
      if kind = 2 then raiseN fErgEccUncorr (poisonRec rec_ s1)
      else if kind = 3 then raiseN fErgEccHdr (dropRec rec_ s1)
      else s1)

end Sys2Proof.Machine
end

