-- ==== Sys2Proof/Machine/Fx.lean ====
section
/-!
DEFINITION. Machine/Fx.lean: how an instruction starts on a core (spec 09 R249, R252, R274), the words of the instruction formats
(R259, R260), and how every fabric operation is issued, checked and ended (spec 10 R281-R288, 15 R445).
-/
namespace Sys2Proof.Machine

/-! ### Instruction words (R259, R260) -/

/-- Format RR (and FX). -/
def encRR (cls gd ga gb fn : Nat) : Nat := at_ cls 27 + at_ gd 21 + at_ ga 15 + at_ gb 9 + fn

/-- Format RI. -/
def encRI (cls gd ga imm : Nat) : Nat := at_ cls 27 + at_ gd 21 + at_ ga 15 + imm % 2 ^ 15

/-- Format LI. -/
def encLI (cls gd imm : Nat) : Nat := at_ cls 27 + at_ gd 21 + imm % 2 ^ 21

/-- Format BR. -/
def encBR (ga gb cond off : Nat) : Nat := at_ 0x18 27 + at_ ga 21 + at_ gb 15 + at_ cond 12 + off % 2 ^ 12

/-- Format JL. -/
def encJL (cls off : Nat) : Nat := at_ cls 27 + off % 2 ^ 27

/-! ### The DAS map (R249) -/

/-- The ranges of the table "DAS map". -/
inductive DasRange where
  | imem | dmem | shm | dev | oasis | aper
  deriving DecidableEq, Repr

/-- The range of a DAS address; none: unmapped. -/
def rangeOf (a : Nat) : Option DasRange :=
  if a ≤ 0x1FFFF then some .imem
  else if 0x100000 ≤ a ∧ a ≤ 0x13FFFF then some .dmem
  else if 0x10000000 ≤ a ∧ a ≤ 0x10FFFFFF then some .shm
  else if 0x20000000 ≤ a ∧ a ≤ 0x2FFFFFFF then some .dev
  else if 0x010000000000 ≤ a ∧ a ≤ 0x013FFFFFFFFF then some .oasis
  else if 0x800000000000 ≤ a ∧ a ≤ 0xBFFFFFFFFFFF then some .aper
  else none

/-- The last address of a range. -/
def DasRange.last : DasRange → Nat
  | .imem => 0x1FFFF | .dmem => 0x13FFFF | .shm => 0x10FFFFFF | .dev => 0x2FFFFFFF | .oasis => 0x013FFFFFFFFF
  | .aper => 0xBFFFFFFFFFFF

/-- Level of a core. -/
def coreLv (c : Core) : Priv := if c.p2 then .p2 else .p1

/-- DETAIL of a Gate refusal: 7 in a locked region (R75), else as the access asks. -/
def denyDetail (v : Verdict) (d : Nat) : Nat := match v with | .locked => 7 | _ => d

/-- An uncorrectable error in a kept memory is counted and raised (R266). -/
def eccHit (a : Nat) (s : State) : State :=
  let e := s.flg.ecc
  if 0x10000000 ≤ a ∧ a ≤ 0x10FFFFFF then
    raiseN fFlgShm { s with flg := { s.flg with ecc := (satAdd 65535 e.1 1, e.2) } }
  else raiseN fFlgLmem { s with flg := { s.flg with ecc := (e.1, satAdd 65535 e.2.1 1, e.2.2) } }

/-- Why a fetch at an address fails: code, DETAIL, BADADDR (R249, R252, R266, R273). A refusal of the Gate is recorded. -/
def fetchFault (s : State) (n a : Nat) : Option (Nat × Nat × Nat × State) :=
  let c := coreOf s n
  let bad := match memAddr n a with | some x => badWord s x | none => false
  let ecc : Option (Nat × Nat × Nat × State) :=
    if bad then some (0x0B, 1, a, match memAddr n a with | some x => eccHit x s | none => s) else none
  match rangeOf a with
  | some .imem => ecc
  | some .shm => match dasVerdict s (a / 64 * 64) (coreLv c) .x with
    | .allow => ecc
    | v => some (6, denyDetail v 1, a / 64 * 64,
        gateRefuse (a / 64 * 64) 0xFFFF (coreLv c) false (v.kind 3) v.slot (0x100 + n) 4 s)
  | some _ => some (6, 1, a / 64 * 64, s)
  | none => some (9, 1, a, s)

/-- An instruction starts on a core: the core is in RUN and not waiting; the fetch is legal; then it acts. A core that is not
in that state takes no instruction, and the command has no effect (log entry 31, DESIGN CHOICE). -/
def start (n insn : Nat) (addr : Core → Nat) (f : State → State) (s : State) : State :=
  let c := coreOf s n
  if !(decide (c.st = .run)) || !(decide (c.busy = .none)) then s
  else
    let s1 := csmpStart n insn (addr c) s
    match fetchFault s1 n c.pc with
    | some (code, det, ea, s2) => except n code det ea s2
    | none => f s1

/-- Raises PRIV or ILLEGAL: BADADDR holds the instruction word. -/
def privFault (n insn : Nat) (s : State) : State := except n 2 0 insn s
def illegal (n insn : Nat) (s : State) : State := except n 1 0 insn s

/-! ### The command engine (R436, R440, R489, R535) -/

/-- A management command reaches the engine: `early` ones are answered before DEVICE_READY, `term` ones in TERMINAL. It ends
device idle and fires source 7,384. -/
def engine (early term : Bool) (run : State → State) (s : State) : State :=
  if !(alive s) then s
  else if s.flt.terminal && !term then respond .mgmt Status.faulted.code [] s
  else if !s.pwr.devReady && !early && !s.flt.terminal then respond .mgmt Status.notReady.code [] s
  else run (icuEdge 7384 (idleExit 7384 s))

/-! ### Fabric operations -/

/-- What an operation is issued with. -/
structure FxEnv where
  who  : Issuer
  core : Nat
  p2   : Bool
  /-- The descriptor. -/
  w    : List Word
  /-- What enumeration finds behind a port: logical devices (0: none), parcels of capacity (R57). -/
  lds  : Nat
  cap  : Nat
  deriving DecidableEq, Repr

/-- How an operation ends. -/
inductive FxOut where
  /-- A status, RO words of the descriptor, DONE, the state. -/
  | done (st : Status) (outs : List (Nat × Word)) (dn : Nat) (s : State)
  /-- BIND WALL: it retires when no other domain's line lies in the walled ways of a domain (R289). -/
  | wall (dom : Nat) (s : State)
  /-- MELD: it retires when the request ends (R303). -/
  | meld (req : Nat) (s : State)
  deriving DecidableEq, Repr

/-- How a form uses SLOT. -/
inductive SlotUse where
  | none
  | posts
  /-- Names a slot of any core at P1 (R285). -/
  | names
  deriving DecidableEq, Repr

/-- Word i of a descriptor. -/
def FxEnv.word (e : FxEnv) (i : Nat) : Word := e.w.getD i 0

/-- SLOT. -/
def FxEnv.slot (e : FxEnv) : Nat := fld (e.word 0) 43 32

/-- FORM. -/
def FxEnv.form (e : FxEnv) : Nat := fld (e.word 0) 63 56

/-- What the device checks of a form before the form's own conditions (R283). -/
structure FxForm where
  fn    : Nat
  form  : Nat
  words : Nat
  /-- Fields that must be 0: word, high bit, low bit. -/
  rsv   : List (Nat × Nat × Nat)
  atP2  : Bool
  slot  : SlotUse
  /-- The domain it names. -/
  names : Bool
  deriving DecidableEq, Repr

/-- A domain is in a core's scope (R310). -/
def inScope (s : State) (n dom : Nat) : Bool :=
  (List.range 4).any (fun k =>
    let w := regGet s (aScope + 32 * n + 8 * k)
    bit w 63 && (fld w 27 16 ≤ dom : Bool) && (dom ≤ fld w 11 0 : Bool))

/-- Step 1 of R283: WORDS, reserved bits, an unused SLOT. -/
def fxBad (d : FxForm) (e : FxEnv) : Bool :=
  !(fld (e.word 0) 51 48 == d.words) || !(fld (e.word 0) 55 52 == 0) || !(fld (e.word 0) 47 44 == 0)
    || (decide (d.slot = .none) && !(e.slot == 0))
    || d.rsv.any (fun f => !(fld (e.word f.1) f.2.1 f.2.2 == 0))

/-- A SLOT outside what the issuer may name (R285, R445). A slot of another core at P1 is refused (log entry 32, DEDUCED). -/
def slotOut (d : FxForm) (e : FxEnv) : Bool :=
  if decide (d.slot = .none) then false
  else if e.p2 then !((64 * e.core + 32 ≤ e.slot : Bool) && (e.slot < 64 * e.core + 64 : Bool))
  else decide (d.slot = .posts) && !(e.slot / 64 == e.core)

/-- Steps 1 to 3 of R283; `bad` holds an ST_INVALID row of the operation itself (R41, R76, R202), `dom` the domain named. -/
def fxCheck3 (d : FxForm) (bad : Bool) (dom : Nat) (e : FxEnv) (s : State) : Option Status :=
  let mg := match e.who with | .mgmt _ => true | _ => false
  if fxBad d e || bad || (mg && decide (d.slot = .posts) && !((16 ≤ e.slot : Bool) && (e.slot ≤ 31 : Bool))) then some .invalid
  else if e.p2 && !d.atP2 then some .denied
  else if (e.p2 && d.names && !(inScope s e.core dom)) || slotOut d e then some .denied
  else none

/-- Step 4 of R283. -/
def fxBusy (d : FxForm) (e : FxEnv) (s : State) : Bool := decide (d.slot = .posts) && !((slotOf s e.slot).st == 0)

/-- Steps 1 to 4 of R283. -/
def fxCheck (d : FxForm) (bad : Bool) (dom : Nat) (e : FxEnv) (s : State) : Option Status :=
  match fxCheck3 d bad dom e s with
  | some st => some st
  | none => if fxBusy d e s then some .busy else none

/-- An operation refused: only gd and DONE are written. -/
def fxRefuse (st : Status) (s : State) : FxOut := .done st [] 0 s

/-- A posting form is accepted (R287). -/
def fxPost (d : FxForm) (e : FxEnv) (s : State) : State := slotTake e.slot e.core d.fn (e.word 1) s

/-- An operation that ends with a status and nothing else. -/
def fxOk (s : State) : FxOut := .done .ok [] 0 s

/-- The descriptor as it is written back. -/
def fxBack (e : FxEnv) (outs : List (Nat × Word)) (dn : Nat) : List Word :=
  (outs.foldl (fun l p => l.set p.1 p.2) e.w).set 0 (setFld (e.word 0) 31 0 dn)

/-- The request of a MELD reaches its Meld unit. -/
def meldGo (id : Nat) (s : State) : State := match reqOf s id with | some r => enterHome r s | none => s

/-- The end of an operation: the RO words, DONE, then gd (R281); with no word of the descriptor at hand, gd alone; or the answer of FX_EXEC with the descriptor. -/
def fxEnd (e : FxEnv) (o : FxOut) : State :=
  match o, e.who with
  | .done st outs dn s, .core n gd desc =>
    let s1 := if !e.w.isEmpty && inLocalData desc (8 * e.w.length) && desc % 8 == 0 then
        outs.foldl (fun s' p => stWord n (desc + 8 * p.1) p.2 s') (stWord n desc (setFld (e.word 0) 31 0 dn) s)
      else s
    countP 0x7005 n (retireStatus n gd st s1)
  | .done st outs dn s, .mgmt _ => respond .mgmt st.code ((fxBack e outs dn).map BitVec.toNat) s
  | .wall dom s, .core n gd desc => corePut n { coreOf s n with busy := .fx gd desc [dom] } s
  | .wall dom s, .mgmt seq =>
    let o : MgmtOp := { seq := seq, kind := 1, reqs := [], addr := dom, len := 0, bytes := [], st := .ok, desc := e.w }
    { s with flg := { s.flg with mops := s.flg.mops ++ [o] } }
  | .meld req s, .core n gd desc => meldGo req (corePut n { coreOf s n with busy := .meld req gd desc } s)
  | .meld req s, .mgmt seq =>
    let old := memWrite [] 0 (leBytes 16 ((e.word 7).toNat + (e.word 8).toNat * 2 ^ 64))
    let o : MgmtOp := { seq := seq, kind := 0, reqs := [req], addr := 0, len := 0, bytes := old, st := .ok, desc := e.w }
    meldGo req { s with flg := { s.flg with mops := s.flg.mops ++ [o] } }

/-- The words of a descriptor in a core's local data memory; none: misaligned or misplaced. -/
def fxDesc (s : State) (n a words : Nat) : Option (List Word) :=
  if a % 8 = 0 && inLocalData a (8 * words) then some (ldWords s n a words) else none

/-- The descriptor carries an uncorrectable error (R283). -/
def descBad (s : State) (n a words : Nat) : Bool :=
  (List.range words).any (fun i => badWord s (coreWin n + 0x40000 + (a - 0x100000) + 8 * i))

/-- An FX instruction on a core. `forms` are the forms of the operation, `mine` the form of the command's row: a descriptor of
another form is another row's command, and has no effect here (log entry 31, DESIGN CHOICE). Of a descriptor with an uncorrectable error no word is written
(log entry 73, DEDUCED). `run` carries the operation out. -/
def fxIssue (n gd ga fn lds cap : Nat) (forms : List FxForm) (mine : FxForm) (run : FxForm → FxEnv → State → FxOut) (s : State) :
    State :=
  let a := (gReg (coreOf s n) ga).toNat
  let who : Issuer := .core n gd a
  let hd := match fxDesc s n a 1 with | some (w :: _) => some w | _ => none
  let form := match hd with | some w => fld w 63 56 | none => mine.form
  if form ≠ mine.form && forms.any (fun f => f.form == form) then s
  else start n (encRR 0x1E gd ga 0 fn) (fun _ => a % 2 ^ 48) (fun s =>
    let env := fun (w : List Word) => ({ who := who, core := n, p2 := (coreOf s n).p2, w := w, lds := lds, cap := cap } : FxEnv)
    let head := match hd with | some w => [w] | none => []
    if form ≠ mine.form then fxEnd (env head) (fxRefuse .invalid s)
    else match fxDesc s n a mine.words with
      | none => fxEnd (env head) (fxRefuse .invalid s)
      | some w =>
        if descBad s n a mine.words then fxEnd (env []) (fxRefuse .faulted (eccHit (coreWin n + 0x40000) s))
        else fxEnd (env w) (run mine (env w) s)) s

/-- The barriers, waits and walls that a line-cache change may let go: BIND WALL retires (R289). -/
def wallPending (s : State) (dom : Nat) : Bool :=
  s.coh.lc.any (fun p => !(keyDom p.1 == dom) && ((domOf s dom).wall / 2 ^ p.2.way % 2 == 1))

/-- Lines of other domains in the walled ways are evicted (R51, R132): clean ones at once, dirty ones after their write. -/
def wallEvict (dom : Nat) (s : State) : State :=
  s.coh.lc.foldl (fun s' p =>
    if !(keyDom p.1 == dom) && ((domOf s' dom).wall / 2 ^ p.2.way % 2 == 1) then
      match lcOf s' p.1 with
      | some l => if !l.dirty then lcDel p.1 s' else if l.wb then s' else writeBack p.1 0 l (lcPut p.1 { l with wb := true } s')
      | none => s'
    else s') s

/-- Every BIND WALL that waits is looked at again. -/
def wallStep (s : State) : State :=
  let s1 := s.flg.cores.foldl (fun s' p =>
    match (coreOf s' p.1).busy with
    | .fx gd _ [dom] =>
      let s2 := wallEvict dom s'
      if wallPending s2 dom then s2 else countP 0x7005 p.1 (retireStatus p.1 gd .ok s2)
    | _ => s') s
  (s1.flg.mops.filter (fun o => o.kind == 1)).foldl (fun s' o =>
    let s2 := wallEvict o.addr s'
    if wallPending s2 o.addr then s2 else mopFinish o s2) s1

end Sys2Proof.Machine
end

