-- ==== Sys2Proof/Machine/Lane.lean ====
section
/-!
DEFINITION. Machine/Lane.lean: tiles and lanes (spec 12): reference clocks, lane training, adaptation, eye measurements, load steps and
full-load checks, lanes taken out of service, alignment markers, loss of signal.
-/
namespace Sys2Proof.Machine

/-! ### Tiles -/

/-- A tile. -/
def tileOf (s : State) (t : Nat) : TileS := sget {} s.lane.tiles t

/-- Replaces a tile. -/
def tilePut (t : Nat) (x : TileS) (s : State) : State := { s with lane := { s.lane with tiles := sset {} s.lane.tiles t x } }

/-- Lane event of a tile (R371). -/
def laneEvent (t : Nat) (s : State) : State := icuEdge (7360 + t) s

/-- A lane fault source of a tile (R370): 0 REFCLK_LOSS, 1 TRAIN_FAIL, 2 SKEW, 3 MARGIN_LOW, 4 FAILED, 5 SPARE_USED, 6
SPARE_EXHAUSTED. -/
def laneFault (t k : Nat) (s : State) : State := raiseN (fLane t k) s

/-- Ports that a tile's mode creates. -/
def tilePorts (s : State) (t : Nat) : List Nat := ((List.range 4).map (fun k => 4 * t + k)).filter (subPortExists s)

/-- A tile reference clock is lost (R353): the links go down, the lanes stay off. -/
def execRefclkLoss (tile : Nat) (s : State) : Host.Outcome State Fault Refusal :=
  finish (if 24 ≤ tile || !(tileOf s tile).clkok then s
    else
      let s1 := laneEvent tile (laneFault tile 0 (tilePut tile { tileOf s tile with clkok := false } s))
      lanesIdle tile (tileLanes tile) ((tilePorts s1 tile).foldl (fun s' p =>
        if isTrlPort s' p then trlDown tile 0 s' else perstLow p (portDrop p s')) s1))

/-- The clock has been in range for 1 ms (R353): the PLL relocks and enabled ports may train. -/
def execRefclkRelock (tile : Nat) (s : State) : Host.Outcome State Fault Refusal :=
  finish (if 24 ≤ tile || (tileOf s tile).clkok then s
    else
      let s1 := laneEvent tile (tilePut tile { tileOf s tile with clkok := true } s)
      let x := trlOf s1 tile
      if isTrlTile s1 tile && !x.off && x.st == 0 && trainLive s1 then trlPut tile { x with st := 1 } s1 else s1)

/-- The time-base reference is lost (R354). -/
def execTimeHoldover (s : State) : Host.Outcome State Fault Refusal :=
  finish (if s.lane.holdover then s
    else raiseN fLaneHoldover { s with lane := { s.lane with holdover := true, slewing := false } })

/-- The time-base reference returns (R354): the time base slews back. -/
def execTimeReferenceReturn (s : State) : Host.Outcome State Fault Refusal :=
  finish (if s.lane.holdover then { s with lane := { s.lane with holdover := false, slewing := true } } else s)

/-- The time base has slewed back (R354). -/
def execTimeSlewEnd (s : State) : Host.Outcome State Fault Refusal :=
  finish { s with lane := { s.lane with slewing := false } }

/-! ### Full-load checks (R366-R369) -/

/-- The eye of a lane meets the minimums (R368). -/
def eyePasses (s : State) (h w : Nat) : Bool :=
  (regFld s aLaneChk 39 32 ≤ h : Bool) && (regFld s aLaneChk 28 24 ≤ w : Bool)

/-- A lane measured in a check: ACTIVE or SPARE_STANDBY. -/
def measured (x : LaneS) : Bool := x.st == 2 || x.st == 4

/-- A check starts on a tile: its lanes are to be measured within 10 ms (R368). -/
def checkStart (t : Nat) (s : State) : State :=
  let s1 := (tileLanes t).foldl (fun s' l =>
    if measured (laneOf s' l) then lanePut l { laneOf s' l with stage := 1 } s' else s') s
  if (tileLanes t).any (fun l => !((laneOf s1 l).stage == 0)) then
    tilePut t { tileOf s1 t with check := true, checkBy := s.time + 10000000, failed := false, due := false } s1
  else tilePut t { tileOf s1 t with due := false } s1

/-- A check ends when no lane of its tile is left: the lane event fires if one did not pass (R371). -/
def checkEnd (t : Nat) (s : State) : State :=
  let x := tileOf s t
  if x.check && (tileLanes t).all (fun l => (laneOf s l).stage == 0) then
    let s1 := tilePut t { x with check := false, checkBy := 0, failed := false } s
    if x.failed then laneEvent t s1 else s1
  else s

/-- A lane of the running check did not pass. -/
def checkMiss (t : Nat) (s : State) : State :=
  if (tileOf s t).check then tilePut t { tileOf s t with failed := true } s else s

/-- Port of a lane, by its sub-port. -/
def lanePort (s : State) (l : Nat) : Nat := 4 * (l / 18) + (if isTrlTile s (l / 18) then 0 else (laneOf s l).sub)

/-- A lane enters FAILED: it carries nothing, and the lane event fires. -/
def laneFails (l : Nat) (s : State) : State :=
  laneEvent (l / 18) (lanePut l { laneOf s l with st := 5, logical := 0x1F, stage := 0 } s)

/-! ### Sparing, the receiver's side (R368, R423, R424) -/

/-- The sequence of a half: 0 for L00-L07, 1 for L08-L15. -/
def spareOf (x : TrlPort) (half : Nat) : Option Spare := if half = 0 then x.spareA else x.spareB

/-- Sets the sequence of a half. -/
def spareSet (half : Nat) (v : Option Spare) (x : TrlPort) : TrlPort :=
  if half = 0 then { x with spareA := v } else { x with spareB := v }

/-- A control message waits to be sent. -/
def ctlPush (t : Nat) (m : CtlMsg) (s : State) : State :=
  trlPut t { trlOf s t with ctlq := (trlOf s t).ctlq ++ [m] } s

/-- A working lane must be replaced: a sequence starts, or the half has no spare left and the link goes down (R368, R424). -/
def spareStart (l : Nat) (imm : Bool) (s : State) : State :=
  let t := l / 18
  let n := (laneOf s l).logical
  let half := n / 8
  let sp := 18 * t + 16 + half
  let x := trlOf s t
  if 16 ≤ n then s
  else match spareOf x half with
    | some q => if q.rx && q.lane = n then s else trlLinkDown t (laneFault t 6 s)
    | none =>
      if (laneOf s sp).st = 4 && x.st == 5 then
        ctlPush t { op := 1, lane := n, spare := 16 + half, mode := b2n imm }
          (trlPut t (spareSet half (some { rx := true, lane := n, spare := 16 + half, imm := imm }) x) s)
      else trlLinkDown t (laneFault t 6 s)

/-! ### Measurements -/

/-- A receiver adapts by at most one step per 10 µs (R364). -/
def execLaneAdaptStep (lane : Nat) (s : State) : Host.Outcome State Fault Refusal :=
  finish (
    let x := laneOf s lane
    if 432 ≤ lane || !(measured x) || s.time + 1 < x.adaptAt + 10000 && !(x.adaptAt == 0) then s
    else lanePut lane { x with adapt := x.adapt + 1, adaptAt := s.time + 1 } s)

/-- The eye monitor measures a lane (R366); in a check, the lane passes or is adapted for 1 ms more (R368). -/
def execEyeMeasure (lane h w : Nat) (s : State) : Host.Outcome State Fault Refusal :=
  finish (
    let x := laneOf s lane
    if 432 ≤ lane || !(measured x) then s
    else
      let y := { x with eyeH := h % 256, eyeW := w % 256 }
      if x.stage = 1 then
        checkEnd (lane / 18) (lanePut lane (if eyePasses s h w then { y with fullchk := true, stage := 0 }
          else { y with stage := 2, adaptAt := s.time + 1 }) s)
      else lanePut lane y s)

/-- A 1 ms utilization window ends (R367): the utilization of each tile in %, and the load steps found. -/
def loadStep (utils : List Nat) (avgStep : Bool) (t : Nat) (s : State) : State :=
  let x := tileOf s t
  let u := min 127 (utils.getD t 0)
  let low := x.hist.foldl min 255
  let first := (regFld s aLaneChk 14 8 ≤ u : Bool) && !x.full
  let y := { x with util := u, hist := (u :: x.hist).take 10, full := x.full || (regFld s aLaneChk 14 8 ≤ u : Bool) }
  let step := bit (tileCfg s t) 63 && ((!x.hist.isEmpty && (low + regFld s aLaneChk 22 16 ≤ u : Bool)) || avgStep || first)
  if !step then tilePut t y s
  else
    let s1 := countP 0x9002 (4 * t) (tilePut t { y with steps := satAdd (2 ^ 32 - 1) y.steps 1 } s)
    if x.check then s1
    else if (tileLanes t).any (fun l => (laneOf s l).st == 1) then tilePut t { tileOf s1 t with due := true } s1
    else checkStart t s1

/-- A utilization window ends (R367). -/
def execUtilWindow (utils : List Nat) (s : State) : Host.Outcome State Fault Refusal :=
  finish (
    let en := (List.range 24).filter (fun t => bit (tileCfg s t) 63)
    let avg : Nat := (en.map (fun t => min 127 (utils.getD t 0))).sum / max 1 en.length
    let low := s.lane.avg.foldl min 255
    let avgStep := !s.lane.avg.isEmpty && (low + regFld s aLaneChk 22 16 ≤ avg : Bool)
    (List.range 24).foldl (fun s' t => loadStep utils avgStep t s')
      { s with lane := { s.lane with avg := (avg :: s.lane.avg).take 10 } })

/-- The second miss of a lane (R368). -/
def secondMiss (l : Nat) (s : State) : State :=
  let t := l / 18
  let x := laneOf s l
  let s1 := countP 0x9003 (lanePort s l) (checkMiss t s)
  if !(isTrlTile s t) then
    let s2 := laneFault t 3 (lanePut l { x with stage := 0 } s1)
    if regFld s aLaneChk 40 40 = 1 then pauseStart (lanePort s l) s2 else s2
  else if x.st = 4 then laneFault t 3 (laneFails l s1)
  else
    ctlPush t { op := 7, lane := x.logical, words := [at_ 2 14 + (x.eqSeq + 1) % 8] }
      (lanePut l { x with stage := 3, eqSeq := (x.eqSeq + 1) % 8, eqDone := false, adaptAt := s.time + 1 } s1)

/-- A lane that failed is measured again after 1 ms of adaptation (R368). -/
def execCheckRemeasure (lane h w : Nat) (s : State) : Host.Outcome State Fault Refusal :=
  finish (
    let x := laneOf s lane
    if 432 ≤ lane || !(x.stage == 2) then s
    else
      let s1 := advanceTo (x.adaptAt - 1 + 1000000) s
      let y := { x with eyeH := h % 256, eyeW := w % 256 }
      checkEnd (lane / 18) (if eyePasses s h w then lanePut lane { y with fullchk := true, stage := 0 } s1
        else secondMiss lane (lanePut lane y s1)))

/-- 2 ms of step requests end (R368): the lane passes, or is replaced by its spare. -/
def execTrlEqStepEnd (lane h w : Nat) (s : State) : Host.Outcome State Fault Refusal :=
  finish (
    let x := laneOf s lane
    if 432 ≤ lane || !(x.stage == 3) then s
    else
      let s1 := advanceTo (x.adaptAt - 1 + 2000000) s
      let y := { x with eyeH := h % 256, eyeW := w % 256, stage := 0 }
      checkEnd (lane / 18) (if eyePasses s h w then lanePut lane { y with fullchk := true } s1
        else spareStart lane false (laneFault (lane / 18) 3 (lanePut lane y s1))))

/-! ### Lanes out of service (R368), loss of signal (R363) -/

/-- A TRL lane leaves service at once; `margin`: its error ratio exceeds 10^-5 over 1 ms. -/
def laneOut (l : Nat) (margin : Bool) (s : State) : State :=
  let t := l / 18
  let x := laneOf s l
  if !(isTrlTile s t) then s
  else
    let s1 := laneFault t (if margin then 3 else 4) s
    if x.st = 4 then laneFails l s1
    else if x.st = 2 then spareStart l (!margin) (lanePut l { x with stage := 0 } s1)
    else s

/-- A TRL lane loses CDR lock (0), markers (1) or its error ratio exceeds 10^-4 over 100 µs (2) or 10^-5 over 1 ms (3). -/
def execLaneOutOfService (lane cause : Nat) (s : State) : Host.Outcome State Fault Refusal :=
  finish (if 432 ≤ lane then s else checkEnd (lane / 18) (laneOut lane (cause == 3) s))

/-- Loss of signal on a lane, with the lanes of its port that still receive (R363, R382). -/
def execLossOfSignal (lane left : Nat) (s : State) : Host.Outcome State Fault Refusal :=
  finish (
    let t := lane / 18
    let x := laneOf s lane
    if 432 ≤ lane || !(x.st == 2) then s
    else if isTrlTile s t then
      let q := spareOf (trlOf s t) (x.logical / 8)
      (match q with
        | some q => if q.rx && q.lane = x.logical then laneFault t 4 s else trlLinkDown t s
        | none => trlLinkDown t s)
    else
      let p := lanePort s lane
      if left = 0 then portDrop p s else pauseStart p s)

/-! ### Training (R356-R361) -/

/-- Tap settings of the TRL presets, in 1/64 units, two's complement bytes. -/
def presetTaps (n : Nat) : Nat × Nat × Nat × Nat :=
  match n with
  | 0 => (0, 0, 64, 0)
  | 1 => (0, 0xFC, 60, 0)
  | 2 => (0, 0xF8, 52, 0xFC)
  | _ => (2, 0xF4, 44, 0xFA)

/-- The lane a training leaves: adaptation, checks and error counts start anew (R357, R372). -/
def laneTrained (s : State) (l : Nat) (st logical sub : Nat) (inv : Bool) : LaneS :=
  let x := laneOf s l
  { x with
    st := st, logical := logical, sub := sub, polinv := inv, fullchk := false, errs := 0, stage := 0, missed := 0, good := 0
    light := (tileOf s (l / 18)).util < regFld s aLaneChk 6 0 }

/-- Lanes of a port train: those of `failed` become FAILED. -/
def trainLane (l logical sub failed inv : Nat) (s : State) : State :=
  if failed / 2 ^ (l % 18) % 2 = 1 then laneEvent (l / 18) (lanePut l (laneTrained s l 5 0x1F sub false) s)
  else lanePut l (laneTrained s l 2 logical sub (inv / 2 ^ (l % 18) % 2 == 1)) s

/-- After a training: LIGHT forgets that full load was reached (R367), and a check that fell in the training starts (R369). -/
def trainCommit (t : Nat) (s : State) : State :=
  let x := tileOf s t
  let s1 := if x.util < regFld s aLaneChk 6 0 then tilePut t { x with full := false } s else s
  if x.due then checkStart t s1 else s1

/-- Transmitter settings of a CXL lane: the preset of the tile settings; the coefficients that PCIe 6.2 settles are free. -/
def cxlEq (s0 : State) (l preset : Nat) (s : State) : State :=
  let v := (Config.freeWord s0.free).toNat / 2 ^ (l % 2 * 24)
  lanePut l { laneOf s l with preset := preset, cm2 := 0, cm1 := v % 256, c0 := v / 256 % 256, cp1 := v / 65536 % 256 } s

/-- A CXL port's lanes finish training (R357): those that fail leave a narrower port. Reversal puts logical lane 0 on the highest
lane (R359). -/
def cxlTrained (port failed inv : Nat) (rev : Bool) (s : State) : State :=
  let ls := portLanes s port
  let n := ls.length
  let p := if fld (tileCfg s (port / 4)) 59 57 = 5 then fld (tileCfg s (port / 4)) 35 32 else fld (tileCfg s (port / 4)) 39 36
  let s1 := ls.foldl (fun s' l =>
    let i := l - ls.headD 0
    cxlEq s l p (trainLane l (if rev then n - 1 - i else i) (port % 4) failed inv s')) (drawFree s)
  trainCommit (port / 4) (if ls.any (fun l => failed / 2 ^ (l % 18) % 2 == 1) then laneFault (port / 4) 1 s1 else s1)

/-- A half of a TRL tile: the failed lane that its spare must replace; none: more than the spare can cover. -/
def halfCover (failed half : Nat) : Option (Option Nat) :=
  let bad := (List.range 8).filter (fun i => failed / 2 ^ (8 * half + i) % 2 == 1)
  match bad with
  | [] => some none
  | [i] => if failed / 2 ^ (16 + half) % 2 = 1 then none else some (some (8 * half + i))
  | _ => none

/-- The spare of a half after training. -/
def trainSpare (t half failed inv : Nat) (c : Option Nat) (s : State) : State :=
  let l := 18 * t + 16 + half
  match c with
  | some n => laneEvent t (laneFault t 5 (trainLane l n 0 failed inv s))
  | none =>
    if failed / 2 ^ (16 + half) % 2 = 1 then trainLane l 0x1F 0 failed inv s
    else lanePut l { laneTrained s l 4 0x1F 0 (inv / 2 ^ (16 + half) % 2 == 1) with st := 4 } s

/-- A TRL tile's 18 lanes finish training (R357): spares are assigned and the port aligns, or training fails. -/
def trlTrained (t failed inv : Nat) (s : State) : State :=
  let x := trlOf s t
  if !(x.st == 2) then s
  else
    let s1 := if failed % 2 ^ 18 = 0 then s else laneFault t 1 s
    match halfCover failed 0, halfCover failed 1 with
    | some a, some b =>
      let s2 := (List.range 16).foldl (fun s' j => trainLane (18 * t + j) j 0 failed inv s') s1
      let s3 := trainSpare t 1 failed inv b (trainSpare t 0 failed inv a s2)
      trainCommit t (trlPut t { trlOf s3 t with st := 3, stepAt := s3.time, markers := 0 } s3)
    | _, _ =>
      trlFail t ((List.range 18).foldl (fun s' j =>
        if failed / 2 ^ j % 2 = 1 then trainLane (18 * t + j) 0x1F 0 failed inv s' else s') s1)

/-- Lane training of a port ends: bit j of `failed` and of `inv` speaks of lane j of the tile. -/
def execLaneTrainingDone (port failed inv : Nat) (rev : Bool) (s : State) : Host.Outcome State Fault Refusal :=
  finish (if isTrlPort s port then trlTrained (port / 4) failed inv s
    else if !(mayTrain s port) || (cxpOf s port).link = 2 then s
    else cxlTrained port failed inv rev s)

/-- A lane of a TRL tile that carries data. -/
def working (x : LaneS) : Bool := x.st == 2 && (x.logical < 16 : Bool)

/-- ALIGN succeeds when every working lane has seen eight good markers in a row (R420). -/
def alignDone (t : Nat) (s : State) : State :=
  let x := trlOf s t
  if x.st = 3 && ((tileLanes t).filter (fun l => working (laneOf s l))).length = 16
      && (tileLanes t).all (fun l => !(working (laneOf s l)) || (8 ≤ (laneOf s l).good : Bool)) then
    trlPut t { x with st := 4, stepAt := s.time, trains := 0, trainSum := 0, ready := false } s
  else s

/-- A TRL lane's alignment marker is due (R360): found or not, its LANE and MCOUNT, its FLAGS (bit 0 SHADOW, bit 1 SPARE), FEC symbols
corrected since the previous one, the skew against the other lanes in ns. -/
def execAlignmentMarker (lane : Nat) (found : Bool) (logical mcount flags errs skew : Nat) (s : State) :
    Host.Outcome State Fault Refusal :=
  finish (
    let t := lane / 18
    let x := laneOf s lane
    if 432 ≤ lane || !(isTrlTile s t) || !(x.st == 2 || x.st == 4) then s
    else if !found then
      let s1 := lanePut lane { x with missed := x.missed + 1, good := 0 } s
      if 3 ≤ x.missed + 1 then checkEnd t (laneOut lane false (lanePut lane { x with missed := 0, good := 0 } s1)) else s1
    else
      let y := { x with
        missed := 0, mcount := mcount % 65536, good := x.good + 1, errs := satAdd (2 ^ 32 - 1) x.errs errs
        logical := if (trlOf s t).st = 3 && x.st = 2 && flags % 2 = 0 then logical % 16 else x.logical }
      let s1 := countN 0x9001 none (some (4 * t)) errs (lanePut lane y s)
      if (trlOf s t).st = 3 && 100 < skew then trlFail t (laneFault t 2 s1)
      else alignDone t s1)

end Sys2Proof.Machine
end

