-- ==== Sys2Proof/Machine/Trl.lean ====
section
/-!
DEFINITION. Machine/Trl.lean: Trarriyn Link (spec 14): frames, sequence and replay, spill, pace, link states and training, sparing, idle,
equalization messages.
-/
namespace Sys2Proof.Machine

/-! ### Sequence numbers and the replay buffer (R411-R416) -/

/-- Distance of sequence numbers, modulo 65,536. -/
def seqDiff (a b : Nat) : Nat := (a + 65536 - b % 65536) % 65536

/-- t in ns. -/
def trlDelay (x : TrlPort) : Nat := 10 * x.delay

/-- Frames the on-die replay buffer holds (R415). -/
def onDieFrames (s : State) (t : Nat) : Nat := sget 2 s.trl.code t * 524288 / 288

/-- Frames that an ACK frees: from the oldest up to it. -/
def ackFrames (ack : Nat) (l : List TrlFrame) : List TrlFrame :=
  if l.any (fun f => f.seq == ack) then (l.dropWhile (fun f => !(f.seq == ack))).drop 1 else l

/-- The session of a port ends with no resume (R417, R421). -/
def trlReset (t : Nat) (s : State) : State :=
  let x := trlOf s t
  fenceDrop t (trlPut t { x with session := 0, kept := false, txSeq := 0, rxe := 0, held := [], replay := [] } s)

/-- Frames are to be sent again, from the oldest (R414): a frame with an uncorrectable error takes the link down (R417). -/
def replayFrom (t : Nat) (l : List TrlFrame) (s : State) : State :=
  let x := trlOf s t
  if l.any (fun f => f.bad) then
    let s1 := trlReset t (trlLinkDown t s)
    trlFault t 5 (trlPut t { trlOf s1 t with st := 1 } s1)
  else trlPut t { x with replay := l.map (fun f => f.seq), replays := satAdd (2 ^ 32 - 1) x.replays 1 } s

/-- The header's ACK (R413). -/
def ackTake (t ack : Nat) (s : State) : State :=
  let x := trlOf s t
  let l := ackFrames (ack % 65536) x.held
  if l.length = x.held.length then s
  else
    let gone := (x.held.take (x.held.length - l.length)).map (fun f => f.seq)
    trlPut t { x with held := l, replay := x.replay.filter (fun k => !(gone.contains k)), ackAt := s.time } s

/-- The header's NAK (R414): a replay from ACK + 1, unless it was made within the last replay loop. -/
def nakTake (t ack : Nat) (s : State) : State :=
  let x := trlOf s t
  let pos := (ack + 1) % 65536
  if x.held.isEmpty || (x.nakPos == pos + 1 && (s.time < x.nakAt + 2 * trlDelay x + 2500 : Bool)) then s
  else replayFrom t x.held (trlPut t { x with nakPos := pos + 1, nakAt := s.time } s)

/-! ### Reception (R410, R412) -/

/-- What a good sequenced frame does at the receiver, by d of R412. -/
def rxSequenced (t seq : Nat) (classes : List Nat) (s : State) : State :=
  let x := trlOf s t
  let d := seqDiff seq x.rxe
  if d = 0 then
    let s1 := trlPut t { x with rxe := (x.rxe + 1) % 65536, nak := false } (bwAdd (4 * t) true 256 s)
    if classes.isEmpty then s1 else admitRec (4 * t) none classes s1
  else if d ≤ 32767 then trlPut t { x with nak := true } s
  else trlPut t { x with dups := satAdd (2 ^ 32 - 1) x.dups 1 } s

/-- A TRL frame is received: whether every codeword and the CRC were good, its header fields, the classes of the records its
payload carries, and whether it holds a slot or control message with a reserved code, which is discarded (R426, R429). -/
def execTrlFrameRx (tile : Nat) (good : Bool) (typ seq ack pace : Nat) (nak : Bool) (spa spb health : Nat) (classes : List Nat)
    (reserved : Bool) (s : State) : Host.Outcome State Fault Refusal :=
  finish (
    let x0 := trlOf s tile
    if 24 ≤ tile || !(isTrlTile s tile) then s
    else if !good || 5 ≤ typ then
      (if x0.st = 0 then s else countP 0xB002 (4 * tile) (trlPut tile { x0 with badN := satAdd (2 ^ 32 - 1) x0.badN 1, nak := x0.nak || x0.st == 5 } s))
    else if x0.st = 5 && typ = 4 then trlLinkDown tile s
    else if !(x0.st == 5) then s
    else
      let s1 := trlPut tile { x0 with
        goodAt := s.time, silent := false, pace := pace % 16, peerHealth := health % 65536, peerSpa := spa % 4, peerSpb := spb % 4 } s
      let s2 := ackTake tile ack s1
      let s3 := if nak then nakTake tile ack s2 else s2
      if (trlOf s3 tile).st = 5 && 1 ≤ typ && typ ≤ 3 then 
        let s4 := idleExit 0x1FFF (rxSequenced tile seq classes s3)
        if reserved && seqDiff seq x0.rxe = 0 then trlFault tile 6 s4 else s4
      else s3)

/-! ### Transmission (R101, R409, R411, R416, R418) -/

/-- The greatest defined pace level that a throttle level allows (R119). -/
def throttleCap (s : State) : Nat :=
  match s.erg.cyc.2.2.1 with | 0 => 15 | 1 => 10 | 2 => 5 | _ => 0

/-- The level sent to the peer, R101. -/
def paceSent (s : State) (t : Nat) : Nat :=
  let r := (acctOf s (1000 + 4 * t)).r
  let stop := (sget (15, 384) s.erg.pace t).2
  min (throttleCap s) (if r < stop / 3 then 15 else if r < 2 * stop / 3 then 10 else if r < stop then 5 else 0)

/-- The level in force at the sender, R418. -/
def paceNow (s : State) (x : TrlPort) : Nat := if x.silent then 0 else min (throttleCap s) x.pace

/-- State of a spare at the receiver, as SPA and SPB carry it. -/
def spareCode (s : State) (t half : Nat) : Nat :=
  let l := laneOf s (18 * t + 16 + half)
  if l.st = 5 then 3 else if l.st = 2 then 2
  else match spareOf (trlOf s t) half with | some q => b2n q.rx | none => 0

/-- LHEALTH: logical lanes failing the check or being replaced. -/
def healthWord (s : State) (t : Nat) : Nat :=
  (List.range 16).foldl (fun a n =>
    let busy := (match spareOf (trlOf s t) (n / 8) with | some q => q.rx && q.lane == n | none => false)
      || (tileLanes t).any (fun l => (laneOf s l).logical == n && (2 ≤ (laneOf s l).stage : Bool))
    a + at_ (b2n busy) n) 0

/-- The header of a frame now sent (R407). -/
def frameHeader (s : State) (t seq typ : Nat) : Nat :=
  let x := trlOf s t
  at_ seq 48 + at_ ((x.rxe + 65535) % 65536) 32 + at_ typ 28 + at_ (paceSent s t) 24 + at_ (b2n x.nak) 23
    + at_ (spareCode s t 0) 21 + at_ (spareCode s t 1) 19 + healthWord s t

/-- A frame header leaves, with the level it carries. -/
def sendHeader (t seq typ : Nat) (s : State) : State :=
  emit (.link (4 * t) 21 (frameHeader s t seq typ))
    { s with erg := { s.erg with pace := sset (15, 384) s.erg.pace t (paceSent s t, (sget (15, 384) s.erg.pace t).2) } }

/-- A marker period begins at each 1,280 ns: the counts of R418 start again. -/
def periodRoll (t : Nat) (s : State) : State :=
  let x := trlOf s t
  if x.period = s.time / 1280 then s else trlPut t { x with period := s.time / 1280, sent := 0, ctlSent := false } s

/-- The spill meter: bytes moved in the current microsecond (R416). -/
def meterNow (s : State) : Nat := if s.trl.meterAt = s.time / 1000 then s.trl.meter else 0

/-- The meter allows one more frame. -/
def meterOk (s : State) : Bool := (meterNow s + 288 ≤ 400000 : Bool)

/-- One frame moves to or from a spill slot. -/
def meterUse (t : Nat) (s : State) : State :=
  countN 0xB003 none (some (4 * t)) 288 { s with trl := { s.trl with meter := meterNow s + 288, meterAt := s.time / 1000 } }

/-- A transmitter waits on the meter, in rotation. -/
def meterWait (t : Nat) (s : State) : State :=
  if s.trl.spillQ.contains t then s
  else
    let x := trlOf s t
    trlPut t { x with stalls := satAdd (2 ^ 32 - 1) x.stalls 1 } { s with trl := { s.trl with spillQ := s.trl.spillQ ++ [t] } }

/-- The transmitter may use the meter: it has room and no other transmitter waits before this one. -/
def meterMine (s : State) (t : Nat) : Bool :=
  meterOk s && (match s.trl.spillQ with | k :: _ => k == t | [] => true)

/-- Leaves the rotation. -/
def meterDone (t : Nat) (s : State) : State :=
  { s with trl := { s.trl with spillQ := s.trl.spillQ.filter (fun k => !(k == t)) } }

/-- Marks the oldest on-die frame as spilled. -/
def spillOldest : List TrlFrame → List TrlFrame
  | [] => []
  | f :: l => if f.spill then f :: spillOldest l else { f with spill := true } :: l

/-- Room for a new frame in the replay buffer: an on-die entry, or a spill of the oldest one (R415, R416). -/
def holdRoom (t : Nat) (s : State) : Option State :=
  let x := trlOf s t
  if 32767 ≤ x.held.length then none
  else if (x.held.filter (fun f => !f.spill)).length < onDieFrames s t then some s
  else if meterMine s t then some (meterDone t (meterUse t (trlPut t { x with held := spillOldest x.held } s)))
  else none

/-- A new sequenced frame is built and sent. -/
def sendFrame (t typ : Nat) (recs : List OutRec) (ctl : List CtlMsg) (s : State) : State :=
  let x := trlOf s t
  let f : TrlFrame := { seq := x.txSeq, typ := typ, recs := recs, ctl := ctl }
  let s1 := bwAdd (4 * t) false 256 (sendHeader t x.txSeq typ s)
  let y := trlOf s1 t
  trlPut t { y with
    txSeq := (y.txSeq + 1) % 65536, held := y.held ++ [f], sent := y.sent + 1, busyAt := s.time
    ackAt := if y.held.isEmpty then s.time else y.ackAt } s1

/-- Slots of a message in a MSG frame, R429. -/
def recSlots (r : OutRec) : Nat := match r.msg with | .inter m => interBytes m / 16 | _ => 16

/-- A record goes to other switches as a message (MSG) or as a carried flit (DATA). -/
def isInter (r : OutRec) : Bool := match r.msg with | .inter _ => true | _ => false

/-- The start of the snoop timer of an HSNP (R158). -/
def hsnpSent (r : OutRec) (s : State) : State :=
  match r.msg with
  | .inter m =>
    if m.op = mHsnpInv || m.op = mHsnpData || m.op = mHsnpCur then
      { s with coh := { s.coh with txns := s.coh.txns.map (fun t =>
        if t.key = m.dom * 2 ^ 40 + m.line then { t with snoops := t.snoops.map (fun y =>
          if y.agent = 64 + m.dst && y.time = 0 then { y with time := s.time + 1 } else y) } else t) } }
    else s
  | _ => s

/-- Messages are packed, as the scheduler picks them, while they fit the 16 slots of a frame (log entry 37, DEDUCED). -/
def packMsgs (t : Nat) : Nat → Nat → State → List OutRec × State
  | 0, _, s => ([], s)
  | n + 1, room, s =>
    match pickRecord s (4 * t) with
    | none => ([], s)
    | some (r, q) =>
      if !(isInter r) || room < recSlots r then ([], s)
      else
        let s1 := hsnpSent r (txDone (4 * t) r (pqPut (4 * t) { q with q := (pqOf s (4 * t)).q.filter (fun x => !(x.id == r.id)) } s))
        let y := packMsgs t n (room - recSlots r) s1
        (r :: y.1, y.2)

/-- The next records of the port as a frame: a DATA frame for one carried flit, else a MSG frame. -/
def sendRecords (t : Nat) (s : State) : Option State :=
  match pickRecord s (4 * t) with
  | none => none
  | some (r, q) =>
    match holdRoom t s with
    | none => some (if (trlOf s t).held.length < 32767 then sendHeader t (trlOf s t).txSeq 0 (meterWait t s) else sendHeader t (trlOf s t).txSeq 0 s)
    | some s0 =>
      if isInter r then
        let y := packMsgs t 16 16 s0
        some (sendFrame t 2 y.1 [] y.2)
      else
        some (sendFrame t 1 [r] [] (txDone (4 * t) r (pqPut (4 * t) { q with q := (pqOf s0 (4 * t)).q.filter (fun x => !(x.id == r.id)) } s0)))

/-- A frame is sent again: spilled ones are read under the meter (R415, R416). -/
def sendReplay (t seq : Nat) (s : State) : State :=
  let x := trlOf s t
  match x.held.find? (fun f => f.seq == seq) with
  | none => trlPut t { x with replay := x.replay.filter (fun k => !(k == seq)) } s
  | some f =>
    if f.spill && !(meterMine s t) then sendHeader t x.txSeq 0 (meterWait t s)
    else
      let s1 := if f.spill then meterDone t (meterUse t s) else s
      let s2 := bwAdd (4 * t) false 256 (countP 0xB001 (4 * t) (sendHeader t seq f.typ s1))
      let y := trlOf s2 t
      trlPut t { y with replay := y.replay.filter (fun k => !(k == seq)), sent := y.sent + 1 } s2

/-- A side that answered IDLE_ACK squelches at its first marker boundary, unless it holds a record (R425). -/
def idleBoundary (t : Nat) (s : State) : State :=
  let x := trlOf s t
  if x.idle = 2 && x.ctlq.isEmpty then
    if (pqOf s (4 * t)).q.isEmpty then lanesTo (tileLanes t) 2 3 (trlPut t { x with st := 6, idle := 0 } s)
    else trlPut t { x with idle := 0 } s
  else s

/-- In a frame slot of an ACTIVE port the sender sends a replayed, CTRL, new or IDLE frame under its pace level (R418). -/
def execTrlFrameTx (tile : Nat) (s : State) : Host.Outcome State Fault Refusal :=
  finish (
    if 24 ≤ tile || !((trlOf s tile).st == 5) then s
    else
      let new := !((trlOf s tile).period == s.time / 1280)
      let s1 := periodRoll tile s
      let s2 := if new then idleBoundary tile s1 else s1
      let x := trlOf s2 tile
      let v := paceNow s2 x
      let room : Bool := x.sent < 1073 * v / 15
      if !(x.st == 5) then s2
      else match room, x.replay with
        | true, k :: _ => sendReplay tile k s2
        | _, _ =>
          let ctlOk := !x.ctlq.isEmpty && (room || (v == 0 && !x.ctlSent)) && (x.held.length < 32767 : Bool)
          if ctlOk then
            sendFrame tile 3 [] (x.ctlq.take 4) (trlPut tile { x with ctlq := x.ctlq.drop 4, ctlSent := true } s2)
          else if room then
            match sendRecords tile s2 with
            | some s3 => s3
            | none => sendHeader tile x.txSeq 0 s2
          else sendHeader tile x.txSeq 0 s2)

/-- ACK has not advanced for 2t + 5,000 ns (R414). -/
def execReplayAckTimeout (tile : Nat) (s : State) : Host.Outcome State Fault Refusal :=
  finish (
    let x := trlOf s tile
    if !(x.st == 5) || x.held.isEmpty then s
    else
      let s1 := advanceTo (x.ackAt + 2 * trlDelay x + 5000) s
      replayFrom tile x.held (trlPut tile { x with ackAt := s1.time } s1))

/-- The spill meter allows the transmitter that waits longest to go on (R416): where the current microsecond is used up, in the next
one. -/
def execSpillMeterRelease (tile : Nat) (s : State) : Host.Outcome State Fault Refusal :=
  finish (match s.trl.spillQ with
    | k :: l =>
      if !(k == tile) then s
      else
        let s1 := if meterOk s then s else advanceTo ((s.time / 1000 + 1) * 1000) s
        { s1 with trl := { s1.trl with spillQ := l } }
    | [] => s)

/-- No good frame for 1 µs outside IDLE (R418). -/
def execPaceSilence (tile : Nat) (s : State) : Host.Outcome State Fault Refusal :=
  finish (
    let x := trlOf s tile
    if !(x.st == 5) then s else advanceTo (x.goodAt + 1000) (trlPut tile { x with silent := true } s))

/-- No good frame for 10 µs in ACTIVE (R420). -/
def execTrlFrameTimeout (tile : Nat) (s : State) : Host.Outcome State Fault Refusal :=
  finish (
    let x := trlOf s tile
    if !(x.st == 5) then s else trlLinkDown tile (advanceTo (x.goodAt + 10000) s))

/-! ### Link states and training (R419-R421, R428) -/

/-- Signal on at least 16 lanes for 1 ms moves DETECT, or HOLD, to EQUALIZE (R420). -/
def execTrlDetect (tile lanes : Nat) (s : State) : Host.Outcome State Fault Refusal :=
  finish (
    let x := trlOf s tile
    if !(isTrlTile s tile) || !(x.st == 1 || x.st == 7) || lanes < 16 || x.off || !(tileOf s tile).clkok || !(trainLive s)
        || !(x.retryAt == 0) then s
    else
      let p := presetTaps 1
      (tileLanes tile).foldl (fun s' l => lanePut l { laneOf s' l with
          st := 1, logical := 0x1F, preset := 1, cm2 := p.1, cm1 := p.2.1, c0 := p.2.2.1, cp1 := p.2.2.2, eqSeq := 0, eqDone := false
          rqSeq := 0, good := 0, missed := 0 } s')
        (trlPut tile { x with st := 2, stepAt := s.time } s))

/-- The backoff of a failed training passes (R420). -/
def execTrlTrainRetry (tile : Nat) (s : State) : Host.Outcome State Fault Refusal :=
  finish (
    let x := trlOf s tile
    if x.retryAt = 0 then s else advanceTo x.retryAt (trlPut tile { x with retryAt := 0 } s))

/-- ALIGN or CONFIG lasts longer than 1 ms (R420). -/
def execTrlAlignConfigTimeout (tile : Nat) (s : State) : Host.Outcome State Fault Refusal :=
  finish (
    let x := trlOf s tile
    if x.st = 3 || x.st = 4 then trlFail tile (advanceTo (x.stepAt + 1000000) s) else s)

/-- Frames already sent toward the switches whose routes include a port, not yet acknowledged: the route fence of R428. -/
def fenceFrames (s : State) (t : Nat) : List (Nat × Nat) :=
  let ks := (List.range 16).filter (fun k => bit (trlRoute s k) 63 && bit (trlRoute s k) t)
  let us := (List.range 24).filter (fun u => !(u == t) && ks.any (fun k => bit (trlRoute s k) u))
  us.flatMap (fun u => (trlOf s u).held.map (fun f => (u, f.seq)))

/-- Sequence numbers lie between the oldest held frame and the next SEQ (R421). -/
def resumable (x : TrlPort) (next : Nat) : Bool := (seqDiff x.txSeq next ≤ x.held.length : Bool)

/-- A new session value: the lower switch ID of the two gives it, the other side takes the one it receives (log entry 38, DEDUCED). -/
def drawSession (peer given : Nat) (s : State) : Nat × State :=
  if peer < s.trl.selfId && !(given == 0) then (given % 2 ^ 32, s)
  else ((Config.freeWord s.free).toNat % 2 ^ 32, drawFree s)

/-- CONFIG settles the session (R421): it resumes, or the held one ends and a new one starts. -/
def settleSession (t peer flags fabric session nextRx : Nat) (s : State) : State :=
  let x := trlOf s t
  if x.kept && x.peer == peer && fabric == s.trl.fabric.toNat && flags % 2 = 1 && x.session == session && resumable x nextRx then
    let l := x.held.drop (x.held.length - seqDiff x.txSeq nextRx)
    trlEvent t (trlPut t { x with held := l, replay := l.map (fun f => f.seq), ready := true, kept := false } s)
  else
    let s1 := if x.kept then trlFault t 4 (trlReset t s) else trlReset t s
    let d := drawSession peer session s1
    trlPut t { trlOf d.2 t with session := d.1, ready := true } d.2

/-- CONFIG completes: the port is ACTIVE (R419, R420, R428, R430). -/
def trlActive (t : Nat) (s : State) : State :=
  let x := trlOf s t
  let lim := 16384 - (2 * trlDelay x + 6000)
  let pc := sget (15, 384) s.erg.pace t
  let s1 := { s with erg := { s.erg with pace := sset (15, 384) s.erg.pace t (15, min pc.2 lim) } }
  let s2 := trlPut t { x with
    st := 5, fails := 0, goodAt := s.time, ackAt := s.time, busyAt := s.time, silent := false, pace := 15, idle := 0, nak := false
    fence := fenceFrames s t, trains := 0, trainSum := 0, trained := [] } s1
  trlPost t .ok (word (at_ 1280 8 + 16)) (trlEvent t s2)

/-- A TRAIN frame (R421): its TSTATE, SWITCH, PORT, FLAGS, FABRIC, SESSION, NEXT_RX, T_SEND, T_ECHO and T_HOLD. -/
def execTrainFrame (tile tstate peer peerPort flags fabric session nextRx tsend techo thold : Nat) (s : State) :
    Host.Outcome State Fault Refusal :=
  finish (
    let x := trlOf s tile
    if 24 ≤ tile || !(isTrlTile s tile) then s
    else if x.st = 5 then trlLinkDown tile s
    else if x.st = 2 || x.st = 3 then trlPut tile { x with echo := tsend, echoAt := s.time } s
    else if !(x.st == 4) then s
    else if !(fabric % 2 ^ 64 == s.trl.fabric.toNat) || peer % 16 == s.trl.selfId then trlFault tile 0 (trlFail tile s)
    else
      let n := if techo = 0 then x.trains else min 16 (x.trains + 1)
      let y := { x with
        echo := tsend, echoAt := s.time, trains := n
        trainSum := if techo = 0 || x.trains = 16 then x.trainSum else x.trainSum + (s.time - techo - thold) }
      if n < 16 then trlPut tile y s
      else
        let d := ceilDiv (ceilDiv y.trainSum 32) 10
        if 500 < d then trlFault tile 1 (trlFail tile (trlPut tile y s))
        else
          let s1 := if y.ready then trlPut tile y s
            else settleSession tile (peer % 16) flags fabric session (nextRx % 65536)
              (trlPut tile { y with delay := d, peerPort := peerPort % 128 } s)
          let s2 := trlPut tile { trlOf s1 tile with peer := peer % 16 } s1
          if tstate = 4 then trlActive tile s2 else s2)

/-- RESUME_MAX passes with a session held (R421): it ends. -/
def execResumeMaxExpire (tile : Nat) (s : State) : Host.Outcome State Fault Refusal :=
  finish (
    let x := trlOf s tile
    if !x.kept || x.up then s
    else
      let s1 := trlReset tile (advanceTo (x.holdAt + regFld s aTrlCfg 53 44 * 1000000) s)
      trlFault tile 4 (if x.st = 7 then trlPut tile { trlOf s1 tile with st := 1 } s1 else s1))

/-! ### Sparing (R423, R424) -/

/-- A spare's lane can transmit. -/
def spareSends (s : State) (t half : Nat) : Bool :=
  let l := laneOf s (18 * t + 16 + half)
  !(l.st == 5) && !(l.st == 0) && (if half = 0 then (trlOf s t).txA else (trlOf s t).txB).isNone

/-- A SPARE_REQ arrives at the transmitter: it copies lane n onto the spare, or refuses and the link goes down. -/
def execSpareReq (tile lane spare mode : Nat) (s : State) : Host.Outcome State Fault Refusal :=
  finish (
    let x := trlOf s tile
    let half := lane % 16 / 8
    if !(x.st == 5) then s
    else
      let s1 := consume (4 * tile) s
      match spareOf x half with
      | some _ => trlLinkDown tile (laneFault tile 6 s1)
      | none =>
        if !(spare == 16 + half) || !(spareSends s1 tile half) then
          trlLinkDown tile (emit (.link (4 * tile) 22 3) s1)
        else trlPut tile (spareSet half (some { rx := false, lane := lane % 16, spare := spare, imm := mode == 1 }) (trlOf s1 tile)) s1)

/-- The physical lane that carries a logical lane. -/
def laneCarrying (s : State) (t n : Nat) : Option Nat := (tileLanes t).find? (fun l => (laneOf s l).st == 2 && (laneOf s l).logical == n)

/-- The spare has matched lane n for the required marker periods: the receiver takes the lane from it, and says so. -/
def execSpareCheckDone (tile half : Nat) (s : State) : Host.Outcome State Fault Refusal :=
  finish (
    let x := trlOf s tile
    match spareOf x half with
    | some q =>
      if !q.rx || !(x.st == 5) then s
      else
        let s1 := match laneCarrying s tile q.lane with | some l => laneFails l s | none => s
        let sp := 18 * tile + q.spare
        let s2 := lanePut sp { laneOf s1 sp with st := 2, logical := q.lane } s1
        let s3 := ctlPush tile { op := 2, lane := q.lane, spare := q.spare } (trlPut tile (spareSet half none (trlOf s2 tile)) s2)
        let s4 := if (tileOf s3 tile).check then lanePut sp { laneOf s3 sp with stage := 1 } s3 else s3
        checkEnd tile (trlEvent tile (laneEvent tile (laneFault tile 5 s4)))
    | none => s)

/-- A SPARE_DONE arrives at the transmitter: the old lane is off, the spare carries the lane. -/
def execSpareDone (tile lane spare : Nat) (s : State) : Host.Outcome State Fault Refusal :=
  finish (
    let x := trlOf s tile
    let half := lane % 16 / 8
    if !(x.st == 5) then s
    else
      let s1 := consume (4 * tile) s
      match spareOf x half with
      | some q =>
        if q.rx || !(q.lane == lane % 16) || !(q.spare == spare) then s1
        else
          let y := spareSet half none (trlOf s1 tile)
          trlEvent tile (trlPut tile (if half = 0 then { y with txA := some q.lane } else { y with txB := some q.lane }) s1)
      | none => s1)

/-- A SPARE_REFUSE takes the link down (R424). -/
def execSpareRefuse (tile : Nat) (s : State) : Host.Outcome State Fault Refusal :=
  finish (if (trlOf s tile).st = 5 then trlLinkDown tile (consume (4 * tile) s) else s)

/-! ### Idle (R425) -/

/-- Nothing is unacknowledged, queued, replayed or being spared on a port. -/
def trlQuiet (s : State) (t : Nat) : Bool :=
  let x := trlOf s t
  x.held.isEmpty && (pqOf s (4 * t)).q.isEmpty && (pqOf s (4 * t)).parked.isEmpty && x.ctlq.isEmpty && x.spareA.isNone
    && x.spareB.isNone

/-- A port quiet for IDLE_ENTER µs sends IDLE_REQ. -/
def execIdleEnterExpire (tile : Nat) (s : State) : Host.Outcome State Fault Refusal :=
  finish (
    let x := trlOf s tile
    let n := regFld s aTrlCfg 43 32
    if n = 0 || !(x.st == 5) || !(trlQuiet s tile) || !(x.idle == 0) then s
    else
      let s1 := advanceTo (x.busyAt + n * 1000) s
      ctlPush tile { op := 4 } (trlPut tile { x with idle := 1 } s1))

/-- IDLE_REQ is answered. -/
def execIdleReq (tile : Nat) (s : State) : Host.Outcome State Fault Refusal :=
  finish (
    if !((trlOf s tile).st == 5) then s
    else
      let s1 := consume (4 * tile) s
      let x := trlOf s1 tile
      if trlQuiet s1 tile && (x.busyAt + 1000 ≤ s.time : Bool) then ctlPush tile { op := 5 } (trlPut tile { x with idle := 2 } s1)
      else ctlPush tile { op := 6 } s1)

/-- IDLE_ACK: at the next marker boundary the side squelches and enters IDLE, unless it holds a record. -/
def execIdleAck (tile : Nat) (s : State) : Host.Outcome State Fault Refusal :=
  finish (
    let x := trlOf s tile
    if !(x.st == 5) || !(x.idle == 1) then s
    else
      let s1 := advanceTo ((s.time / 1280 + 1) * 1280) (consume (4 * tile) s)
      if (pqOf s1 (4 * tile)).q.isEmpty then lanesTo (tileLanes tile) 2 3 (trlPut tile { trlOf s1 tile with st := 6, idle := 0 } s1)
      else trlPut tile { trlOf s1 tile with idle := 0 } s1)

/-- IDLE_NAK keeps the link ACTIVE. -/
def execIdleNak (tile : Nat) (s : State) : Host.Outcome State Fault Refusal :=
  finish (
    if !((trlOf s tile).st == 5) then s
    else
      let s1 := consume (4 * tile) s
      trlPut tile { trlOf s1 tile with idle := 0, busyAt := s.time } s1)

/-- The exit burst, sent for a record or detected: the link returns to ACTIVE. -/
def execIdleExit (tile : Nat) (s : State) : Host.Outcome State Fault Refusal :=
  finish (
    let x := trlOf s tile
    if !(x.st == 6) then s
    else trlEvent tile (lanesTo (tileLanes tile) 3 2 (trlPut tile { x with
      st := 5, goodAt := s.time, ackAt := s.time, busyAt := s.time, idle := 0 } s)))

/-! ### Equalization messages (R356) -/

/-- A step of a tap within its range: the new value, and its TAPST. -/
def tapStep (cur lo hi : Int) (code : Nat) : Int × Nat :=
  if code = 1 then (if cur + 1 ≤ hi then (cur + 1, 1) else (cur, 3))
  else if code = 2 then (if lo ≤ cur - 1 then (cur - 1, 1) else (cur, 2))
  else (cur, 0)

/-- Byte of a tap. -/
def tapByte (v : Int) : Nat := (v % 256).toNat

/-- The four taps as signed numbers. -/
def tapsOf (x : LaneS) : Int × Int × Int × Int := (sval 8 x.cm2, sval 8 x.cm1, sval 8 x.c0, sval 8 x.cp1)

/-- Step fields applied: the steps are taken when each stays in range and the sum of magnitudes stays 64/64 (R356). -/
def applySteps (x : LaneS) (w : Nat) : LaneS × Nat :=
  let c := tapsOf x
  let a := tapStep c.1 0 8 (w / 2 ^ 10 % 4)
  let b := tapStep c.2.1 (-24) 0 (w / 2 ^ 8 % 4)
  let d := tapStep c.2.2.1 0 64 (w / 2 ^ 6 % 4)
  let e := tapStep c.2.2.2 (-16) 0 (w / 2 ^ 4 % 4)
  let sum := a.1.natAbs + b.1.natAbs + d.1.natAbs + e.1.natAbs
  let lim := fun (code st : Nat) => if st = 1 then (if code = 1 then 3 else 2) else st
  if sum = 64 then
    ({ x with cm2 := tapByte a.1, cm1 := tapByte b.1, c0 := tapByte d.1, cp1 := tapByte e.1 },
      at_ a.2 6 + at_ b.2 4 + at_ d.2 2 + e.2)
  else (x, at_ (lim (w / 2 ^ 10 % 4) a.2) 6 + at_ (lim (w / 2 ^ 8 % 4) b.2) 4 + at_ (lim (w / 2 ^ 6 % 4) d.2) 2 + lim (w / 2 ^ 4 % 4) e.2)

/-- A request word at a transmit lane: the lane after it, and the response word. A request already answered is not applied again. -/
def eqRequest (x : LaneS) (w : Nat) : LaneS × Nat :=
  let sq := w % 8
  let cmd := w / 2 ^ 14 % 4
  if x.rqSeq = sq + 1 then (x, at_ (b2n (cmd == 1)) 7 + sq)
  else if cmd = 1 then
    let n := w / 2 ^ 12 % 4
    let p := presetTaps n
    ({ x with preset := n, cm2 := p.1, cm1 := p.2.1, c0 := p.2.2.1, cp1 := p.2.2.2, rqSeq := sq + 1 }, at_ 1 7 + sq)
  else if cmd = 2 then
    let r := applySteps x w
    ({ r.1 with rqSeq := sq + 1 }, at_ r.2 8 + sq)
  else ({ x with rqSeq := sq + 1 }, sq)

/-- Request words for the transmit lanes L00 to L17, answered in order. -/
def eqRequests (t : Nat) : Nat → List Nat → State → List Nat × State
  | _, [], s => ([], s)
  | j, w :: ws, s =>
    if 18 ≤ j then ([], s)
    else
      let r := eqRequest (laneOf s (18 * t + j)) w
      let y := eqRequests t (j + 1) ws (lanePut (18 * t + j) r.1 s)
      (r.2 :: y.1, y.2)

/-- Equalization requests arrive: in training with a TRAIN frame, whose answer rides in the next one (code 23); in service in a control
message, answered by EQ_RSP. -/
def execEqReq (tile : Nat) (words : List Nat) (s : State) : Host.Outcome State Fault Refusal :=
  finish (
    let x := trlOf s tile
    if 24 ≤ tile || x.st < 2 || 5 < x.st then s
    else
      let s1 := if x.st = 5 then consume (4 * tile) s else s
      let r := eqRequests tile 0 words s1
      if x.st = 5 then ctlPush tile { op := 8, words := r.1 } r.2
      else emit (.link (4 * tile) 23 (r.1.foldr (fun w a => w + 65536 * a) 0)) r.2)

/-- Equalization responses arrive: a lane's request is answered when SEQ agrees. -/
def execEqRsp (tile : Nat) (words : List Nat) (s : State) : Host.Outcome State Fault Refusal :=
  finish (
    let x := trlOf s tile
    if 24 ≤ tile || x.st < 2 || 5 < x.st then s
    else
      let s1 := if x.st = 5 then consume (4 * tile) s else s
      (List.range 18).foldl (fun s' j =>
        let l := laneOf s' (18 * tile + j)
        if words.getD j 8 % 8 = l.eqSeq && j < words.length then lanePut (18 * tile + j) { l with eqDone := true } s' else s') s1)

end Sys2Proof.Machine
end

