-- ==== Sys2Proof/Machine/CohCmds.lean ====
section
/-!
DEFINITION. Machine/CohCmds.lean: what the home slices do by themselves (spec 05 R132, R136-R138, R150), and the messages between
switches (R155-R159, 06 R177-R181, 14 R422, R427-R429).
-/
namespace Sys2Proof.Machine

/-! ### Home slices -/

/-- The transaction of a line has closed: the slice chooses the next request (R136). -/
def execLineQueueGrant (dom da : Nat) (s : State) : Host.Outcome State Fault Refusal :=
  finish (let k := keyOf dom da
    if txnOn s k then s else lineGrant k s)

/-- A request goes on where it stands: a write-back to be placed, the line queue, or an opening. -/
def trackerResume (r : Req) (s : State) : State :=
  if isWriteBack s r then wbPlace r s
  else if txnOn s (keyOf r.dom r.da) then reqPut { r with phase := .lineQueue } s
  else tryOpen r s

/-- The oldest request that waits for a tracker or a snoop filter way of a slice tries again (R137, R147). -/
def execTrackerFreeResume (slice : Nat) (s : State) : Host.Outcome State Fault Refusal :=
  finish (match s.reqs.find? (fun r => decide (r.phase = .trackerWait) && (sliceOf (keyOf r.dom r.da) == slice)) with
    | some r => trackerResume r s
    | none => s)

/-- Requests that waited for a hold mark to be free in a slice go on (R138). -/
def holdWaiters (slice : Nat) (s : State) : State :=
  (s.reqs.filter (fun r => decide (r.phase = .holdWait) && (sliceOf (keyOf r.dom r.da) == slice))).foldl (fun s' r =>
    match reqOf s' r.id with
    | some y => if decide (y.phase = .holdWait) then homeAct y (smpGo y.smp s') else s'
    | none => s') s

/-- A hold mark ends after HOLD × 32 ns (R138). -/
def execHoldExpire (dom da : Nat) (s : State) : Host.Outcome State Fault Refusal :=
  finish (
    let k := keyOf dom da
    match s.coh.holds.find? (fun h => (h.key == k) && !(h.til == 0)) with
    | some h => holdWaiters (sliceOf k) (holdRelease k h.agent (holdEnd k h.agent (advanceTo h.til s)))
    | none => s)

/-- Requests that waited for a way of a set go on (R132). -/
def wayWaiters (k : Nat) (s : State) : State :=
  (s.reqs.filter (fun r => decide (r.phase = .lcWait) && (sliceOf (keyOf r.dom r.da) == sliceOf k))).foldl (fun s' r =>
    match reqOf s' r.id with
    | some y =>
      if decide (y.phase = .lcWait) then (if y.wb then wbPlace y s' else homeAct y s') else s'
    | none => s') s

/-- A dirty victim's write has reached its completion point: the line is dropped (R132), unless it was dirtied again. -/
def execLcEvictComplete (dom da : Nat) (s : State) : Host.Outcome State Fault Refusal :=
  finish (
    let k := keyOf dom da
    match s.reqs.find? (fun r => decide (r.phase = .wbDone) && (keyOf r.dom r.da == k)) with
    | none => s
    | some r =>
      let s1 := reqDel r.id s
      let s2 := match lcOf s1 k with | some l => if l.wb then lcDel k s1 else s1 | none => s1
      wallStep (wayWaiters k s2))

/-- A snoop times out (R150, R158): the domain is contained (R151), and COH_TO_LAST records the event. -/
def snoopTimeout (id limit : Nat) (remote : Bool) (s : State) : State :=
  match s.coh.txns.findSome? (fun t =>
      (t.snoops.find? (fun x => (x.id == id) && x.isOpen && !(x.time == 0) && ((64 ≤ x.agent : Bool) == remote))).map (fun x => (t, x))) with
  | none => s
  | some (t, x) =>
    let s1 := advanceTo (x.time - 1 + limit) s
    let d := keyDom t.key
    raiseD fCohBisnpTimeout d { s1 with coh := { s1.coh with
      toLast := (true, b2n remote, x.agent, d, t.key % 2 ^ 40, s1.time) } }

/-- BISNP_TO passes. -/
def execBisnpTimeout (id : Nat) (s : State) : Host.Outcome State Fault Refusal :=
  finish (snoopTimeout id (regFld s aCohCfg 39 30 * 1000) false s)

/-- HSNP_TO passes. -/
def execHsnpTimeout (id : Nat) (s : State) : Host.Outcome State Fault Refusal :=
  finish (snoopTimeout id (regFld s aCohCfg 51 40 * 1000) true s)

/-! ### Messages that the home receives -/

/-- A message is taken from the oldest item of a TRL port; none unless the port's link carries frames. -/
def takeMsg (tile : Nat) (s : State) : Option State :=
  if isTrlTile s tile && ((trlOf s tile).st == 5 || (trlOf s tile).st == 6) then some (consume (4 * tile) s) else none

/-- A remote switch's request at the home (R427): the domain's state, then the Gate at P3. -/
def homeRequest (tile sw dom line tag : Nat) (notrack : Bool) (op : Op) (data : Line) (mask : Word) (poison : Bool) (s : State) :
    State :=
  match takeMsg tile s with
  | none => s
  | some s1 =>
    let r : Req := { mkReq s1.next (.remote sw tag) op dom (line % 2 ^ 40 * 64) (if notrack then .priv else .scoh) with
      data := data, mask := mask, poison := poison, time := s1.time }
    let s2 := reqAdd r (takeNext s1)
    if (homedElse s dom).isSome then reqDel r.id s2
    else if !(decide ((domOf s dom).st = .active)) then answer r .refused (raiseD fBindStateRefuse dom (countD 0x1003 dom s2))
    else gateEnter r s2

/-- A remote switch's shared read. -/
def execHreqS (tile sw dom line tag : Nat) (s : State) : Host.Outcome State Fault Refusal :=
  finish (homeRequest tile sw dom line tag false .rdS 0 fullMask false s)

/-- A remote switch's lease request. -/
def execHreqX (tile sw dom line tag : Nat) (s : State) : Host.Outcome State Fault Refusal :=
  finish (homeRequest tile sw dom line tag false .rdA 0 fullMask false s)

/-- A remote switch's current read. -/
def execHreqCur (tile sw dom line tag : Nat) (notrack : Bool) (s : State) : Host.Outcome State Fault Refusal :=
  finish (homeRequest tile sw dom line tag notrack .rdI 0 fullMask false s)

/-- A write from a remote host; `mask` is all ones where PART is 0. -/
def execHreqWr (tile sw dom line tag : Nat) (notrack : Bool) (data : Line) (mask : Word) (poison : Bool) (s : State) :
    Host.Outcome State Fault Refusal :=
  finish (homeRequest tile sw dom line tag notrack (if mask = fullMask then .wr else .wrPtl) data mask poison s)

/-- A lease returns without data: the switch keeps a shared copy, or leaves the line. -/
def hwbClean (r : Req) (sw : Nat) (s : State) : State :=
  let k := keyOf r.dom r.da
  let a := 64 + sw
  if ownerOf s k == some a && decide (r.mv = .s) then
    holdRelease k a (finishReq r .done (holdEnd k a (sfPut k (ptrEntry .s [a]) s)))
  else cleanEvict r s

/-- The return of a lease, handled as an owner's write-back (R155): `kept` 1 leaves a shared copy. -/
def execHwb (tile sw dom line tag kept : Nat) (data : Option Line) (poison : Bool) (s : State) : Host.Outcome State Fault Refusal :=
  finish (match takeMsg tile s with
    | none => s
    | some s1 =>
      let r : Req := { mkReq s1.next (.remote sw tag) (if data.isSome then .wr else .clean) dom (line % 2 ^ 40 * 64) .scoh with
        data := data.getD 0, poison := poison, mv := if kept = 1 then .s else .i, time := s1.time }
      let s2 := reqAdd r (takeNext s1)
      if (homedElse s dom).isSome then reqDel r.id s2
      else if data.isSome then enterHome r s2 else hwbClean r sw s2)

/-- A far atomic arrives at its home (R178): an operation or width that R162 does not define is discarded as R429 says. -/
def execHmeld (tile sw dom line tag op width off : Nat) (notrack : Bool) (a b : Nat) (s : State) : Host.Outcome State Fault Refusal :=
  finish (match MeldOp.ofCode op, MeldW.ofCode width with
    | some o, some w =>
      if meldLegal o w && off % w.bytes == 0 && off < 64 then
        homeRequest tile sw dom line tag notrack (.atomic o w off a b) 0 fullMask false s
      else (match takeMsg tile s with | some s1 => trlFault tile 6 s1 | none => s)
    | _, _ => match takeMsg tile s with | some s1 => trlFault tile 6 s1 | none => s)

/-! ### Snoop answers of a remote switch (R155, R157) -/

/-- A snoop answer of agent 64 + k; its data goes where the write-back of a crossing owner goes (R140, R148). -/
def hrsp (tile sw dom line tag : Nat) (a : Ans) (data : Option Line) (poison : Bool) (s : State) : State :=
  match takeMsg tile s with
  | none => s
  | some s1 =>
    let k := keyOf dom (line % 2 ^ 40 * 64)
    match s1.coh.txns.findSome? (fun t => if t.key = k then
        (t.snoops.find? (fun x => (x.agent == 64 + sw) && (x.id % 65536 == tag) && x.ans.isNone)).map (fun x => (t, x)) else none) with
    | none => lateRsp s1
    | some (t, x) =>
      let ok := ansLegal x.k a
      let s2 := if ok then s1 else raiseP fCohProtocol (4 * tile) s1
      match ok, data with
      | true, some d =>
        let r : Req := { mkReq s2.next (.gather sw) .wr dom (line % 2 ^ 40 * 64) .scoh with
          data := d, poison := poison, mv := .i, wb := true, phase := .open_, time := s2.time }
        let s3 := txnPut { t with snoops := t.snoops.map (fun y => if y.id = x.id then { y with ans := some a, data := true } else y) } s2
        wbPlace r (reqAdd r (takeNext s3))
      | _, _ => snpAnswer t x (if ok then a else .i) s2

/-- HRSP_I. -/
def execHrspI (tile sw dom line tag : Nat) (data : Option Line) (poison : Bool) (s : State) : Host.Outcome State Fault Refusal :=
  finish (hrsp tile sw dom line tag .i data poison s)

/-- HRSP_S. -/
def execHrspS (tile sw dom line tag : Nat) (data : Option Line) (poison : Bool) (s : State) : Host.Outcome State Fault Refusal :=
  finish (hrsp tile sw dom line tag .s data poison s)

/-- HRSP_E. -/
def execHrspE (tile sw dom line tag : Nat) (data : Option Line) (poison : Bool) (s : State) : Host.Outcome State Fault Refusal :=
  finish (hrsp tile sw dom line tag .e data poison s)

/-! ### Messages that a remote switch receives -/

/-- The request that a response of the home answers. -/
def askedFor (s : State) (dom line tag : Nat) : Option Req :=
  s.reqs.find? (fun r => decide (r.phase = .remoteWait) && (r.id % 65536 == tag) && (r.dom == dom) && (r.da / 64 == line % 2 ^ 40))

/-- How a refused response ends a request. -/
def stRes : Nat → Res
  | 3 => .denied
  | _ => .refused

/-- A shared copy, or the data of a current read, arrives (R155). An exclusive request that the home downgraded (R71) takes a shared
copy; an atomic that it downgraded lacks W. -/
def hgntS (r : Req) (d : Line) (p : Bool) (s : State) : State :=
  match r.op with
  | .atomic _ _ _ _ _ => finishReq r .denied s
  | .rdA => grant { r with op := .rdS, phase := .open_ } d p s
  | .invA => finishReq r .denied s
  | _ => grant { r with phase := .open_ } d p s

/-- HGNT_S. -/
def execHgntS (tile dom line tag st : Nat) (data : Line) (s : State) : Host.Outcome State Fault Refusal :=
  finish (match takeMsg tile s with
    | none => s
    | some s1 => match askedFor s1 dom line tag with
      | none => s1
      | some r => if 2 ≤ st then finishReq r (stRes st) s1 else hgntS r data (st == 1) s1)

/-- The oldest lease goes back when the buffer of 4,096 lines is full (R156). -/
def leaseRoom (s : State) : State :=
  if s.coh.leases.length < 4096 then s
  else match s.coh.leases.foldl (fun b p => match b with
      | some (q : Nat × Lease) => if p.2.order < q.2.order then some p else some q
      | none => some p) none with
    | none => s
    | some p =>
      let r := { mkReq s.next (.wback 3) (.snoop .data) (keyDom p.1) (keyDa p.1) .scoh with time := s.time }
      enterHome r (reqAdd r (takeNext s))

/-- HGNT_X: a lease with data (R156); the request, and near atomics queued behind it, run on it (R179). -/
def execHgntX (tile dom line tag st : Nat) (data : Line) (s : State) : Host.Outcome State Fault Refusal :=
  finish (match takeMsg tile s with
    | none => s
    | some s1 => match askedFor s1 dom line tag with
      | none => s1
      | some r =>
        if 2 ≤ st then finishReq r (stRes st) s1
        else
          let k := keyOf r.dom r.da
          let s2 := leaseRoom s1
          let l : Lease := { data := data, dirty := false, poison := st == 1, time := s2.time, atoms := 0, order := s2.next }
          homeAct r (takeNext { s2 with coh := { s2.coh with leases := sput s2.coh.leases k l } }))

/-- HCMP: a write of a host, or the return of a lease, is complete at the home. -/
def execHcmp (tile dom line tag st : Nat) (s : State) : Host.Outcome State Fault Refusal :=
  finish (match takeMsg tile s with
    | none => s
    | some s1 => match askedFor s1 dom line tag with
      | none => s1
      | some r =>
        if 2 ≤ st then finishReq r (stRes st) s1
        else finishReq r .done (if decide (r.mode = .scoh) then sfFree (keyOf r.dom r.da) s1 else s1))

/-- A snoop from the home (R157). -/
def hsnp (tile home dom line tag : Nat) (k : Snoop) (s : State) : State :=
  match takeMsg tile s with
  | none => s
  | some s1 =>
    let r : Req := { mkReq s1.next (.home home tag) (.snoop k) dom (line % 2 ^ 40 * 64) .scoh with time := s1.time }
    enterHome r (countD 0x300A dom (reqAdd r (takeNext s1)))

/-- HSNP_INV. -/
def execHsnpInv (tile home dom line tag : Nat) (s : State) : Host.Outcome State Fault Refusal :=
  finish (hsnp tile home dom line tag .inv s)

/-- HSNP_DATA. -/
def execHsnpData (tile home dom line tag : Nat) (s : State) : Host.Outcome State Fault Refusal :=
  finish (hsnp tile home dom line tag .data s)

/-- HSNP_CUR. -/
def execHsnpCur (tile home dom line tag : Nat) (s : State) : Host.Outcome State Fault Refusal :=
  finish (hsnp tile home dom line tag .cur s)

/-- HMELD_RSP: a far atomic's result, and the predictor's training (R178, R181); one that comes after its timeout is discarded and
counted (R176). -/
def execHmeldRsp (tile dom line tag st old qdepth : Nat) (same : Bool) (s : State) : Host.Outcome State Fault Refusal :=
  finish (match takeMsg tile s with
    | none => s
    | some s1 => match s1.meld.far.find? (fun f => f.tag == tag), askedFor s1 dom line tag with
      | some f, some r =>
        let s2 := { s1 with meld := { s1.meld with far := s1.meld.far.filter (fun x => !(x.req == f.req)) } }
        let s3 := if regFld s2 aMeldPredCfg 39 32 ≤ qdepth && same then predTrain (predIdx r.dom r.da) true s2 else s2
        finishReq r (if 2 ≤ st then stRes st else .old old (st == 1)) s3
      | _, _ => { s1 with meld := { s1.meld with late := satAdd (2 ^ 48 - 1) s1.meld.late 1 } })

/-! ### Presence of switches (R159, R422) -/

/-- What is known of switch k. -/
def peerOf (s : State) (k : Nat) : Peer := sget {} s.trl.peers k

/-- Replaces it. -/
def peerPut (k : Nat) (p : Peer) (s : State) : State := { s with trl := { s.trl with peers := sset {} s.trl.peers k p } }

/-- Sessions with a lost switch end (R422). -/
def sessionsEnd (k : Nat) (s : State) : State :=
  (List.range 24).foldl (fun s' t =>
    let x := trlOf s' t
    if x.peer = k && (x.up || x.kept) then trlDown t 1 s' else s') s

/-- A line whose home is lost is invalidated in the hosts that hold it; what they write back is discarded (R159). -/
def proxyDrop (key : Nat) (e : SfEntry) (s : State) : State :=
  let id := s.next
  let x := snoopAll key .inv (holders e) (takeNext s)
  let s1 := sfFree key x.2
  if x.1.any Snp.isOpen then txnAdd { key := key, req := id, victim := true, snoops := x.1 } s1 else s1

/-- The home of domains is lost (R159): requests are refused, proxy entries invalidated, COH_HOME_LOST raised. -/
def homeLost (k : Nat) (s : State) : State :=
  let of_ := fun d => homedElse s d == some k
  let reqs := s.reqs.filter (fun r => of_ r.dom && (decide (r.phase = .remoteWait) || atHome s r))
  let s1 := reqs.foldl (fun s' r => match reqOf s' r.id with | some y => containReq y s' | none => s') s
  let s2 := { s1 with
    coh := { s1.coh with leases := s1.coh.leases.filter (fun p => !(of_ (keyDom p.1))) }
    meld := { s1.meld with far := s1.meld.far.filter (fun f => (reqOf s1 f.req).isSome) } }
  let es := s2.coh.sf.filter (fun p => of_ (keyDom p.1))
  let s3 := es.foldl (fun s' p => proxyDrop p.1 p.2 s') s2
  (sortNat ((reqs.map (fun r => r.dom)) ++ es.map (fun p => keyDom p.1))).foldl (fun s' d => raiseD fCohHomeLost d s') s3

/-- Switch k is lost (R159, R422). -/
def switchLost (k : Nat) (s : State) : State :=
  let s1 := sessionsEnd k s
  let i := newIncident s1
  let s2 := agentsLost (fun a => a == 64 + k) none i.1 i.2
  raiseN (fTrlSwitchLost k) (homeLost k s2)

/-- A HEARTBEAT from switch k; a changed INCARN makes it lost, and present again as a new peer. -/
def execHeartbeat (tile sw incarn : Nat) (s : State) : Host.Outcome State Fault Refusal :=
  finish (match takeMsg tile s with
    | none => s
    | some s1 =>
      if 16 ≤ sw then s1
      else
        let p := peerOf s1 sw
        let s2 := if p.present && !(p.incarn == incarn) then switchLost sw s1 else s1
        peerPut sw { present := true, incarn := incarn, at_ := s2.time } s2)

/-- HEARTBEATs to every switch with a valid route (R422). -/
def execHeartbeatSend (s : State) : Host.Outcome State Fault Refusal :=
  finish ((List.range 16).foldl (fun s' k =>
    if k = s.trl.selfId || !(bit (trlRoute s' k) 63) then s'
    else toSwitch { op := mHeartbeat, src := 0, dst := k, dom := 0, tag := 0, line := s.trl.incarn % 2 ^ 32 * 256 } false s') s)

/-- No HEARTBEAT from switch k for LOST_MS (R422). -/
def execSwitchLost (sw : Nat) (s : State) : Host.Outcome State Fault Refusal :=
  finish (
    let p := peerOf s sw
    if !p.present then s
    else
      let s1 := advanceTo (p.at_ + regFld s aTrlCfg 63 54 * 1000000) s
      switchLost sw (peerPut sw { p with present := false } s1))

/-! ### Transit and route fences (R428) -/

/-- A message for another switch crosses this one, or is discarded and counted. -/
def execMessageForward (tile op src dst hops dom tag st line args : Nat) (notrack : Bool) (data : Option Line) (mask : Option Word)
    (s : State) : Host.Outcome State Fault Refusal :=
  finish (match takeMsg tile s with
    | none => s
    | some s1 =>
      if dst = s.trl.selfId then s1
      else
        let m : Inter := {
          op := op, src := src, dst := dst, hops := hops + 1, dom := dom, tag := tag, st := st, notrack := notrack, line := line
          data := data, mask := mask, args := args }
        if regFld s1 aTrlCfg 10 8 < hops + 1 then
          regPut s1 aTrlNoRoute (word (satAdd (2 ^ 48 - 1) (regGet s1 aTrlNoRoute).toNat 1))
        else if fencedTo s1 dst then { s1 with trl := { s1.trl with fenced := s1.trl.fenced ++ [(m, false)] } }
        else routeMsg m false s1)

/-- The frames sent before a port joined have been acknowledged: the port joins the selection, and messages that waited leave. -/
def execRouteFenceEnd (tile : Nat) (s : State) : Host.Outcome State Fault Refusal :=
  finish (
    let x := trlOf s tile
    if x.fence.isEmpty || x.fence.any (fun f => (trlOf s f.1).held.any (fun h => h.seq == f.2)) then s
    else fenceGo (trlPut tile { x with fence := [] } s))

end Sys2Proof.Machine
end

