-- ==== Sys2Proof/Machine/Domains.lean ====
section
/-!
DEFINITION. Machine/Domains.lean: domains, virtual switches, windows, decoders, capacity and pool devices as commands change them
(spec 02 R29-R63, R563; spec 10 R290-R292, R309): BIND, UNBIND, WINSET, WINCLR, decoder commits, dynamic capacity, loss walks.
-/
namespace Sys2Proof.Machine

/-! ### BIND and UNBIND: forms and reserved fields (R290) -/

/-- Fields of word 1 with their bits; the reserved ends are always in. -/
def bindFields : List (Nat × Nat) := [(57, 46), (45, 40), (39, 32), (31, 24), (23, 17), (16, 13), (12, 12), (11, 10), (9, 7), (6, 6)]

/-- Word 1 fields that a form does not name must be 0. -/
def bindRsv (named : List Nat) : List (Nat × Nat × Nat) :=
  [(1, 63, 58), (1, 5, 0)] ++ (bindFields.filter (fun f => !(named.contains f.1))).map (fun f => (1, f.1, f.2))

def fBindCreate : FxForm :=
  { fn := 1, form := 1, words := 4, atP2 := false, slot := .none, names := true
    rsv := bindRsv [57] ++ [(2, 63, 60), (2, 32, 0), (3, 63, 57)] }
def fBindQuiesce : FxForm := { fn := 1, form := 2, words := 2, atP2 := false, slot := .none, names := true, rsv := bindRsv [57, 45, 6] }
def fBindResume : FxForm := { fn := 1, form := 3, words := 2, atP2 := false, slot := .none, names := true, rsv := bindRsv [57, 45, 6] }
def fBindVppb : FxForm :=
  { fn := 1, form := 4, words := 2, atP2 := false, slot := .none, names := true, rsv := bindRsv [57, 45, 39, 23, 16, 12, 11] }
def fBindPooldev : FxForm := { fn := 1, form := 5, words := 2, atP2 := false, slot := .posts, names := false, rsv := bindRsv [23, 16, 12, 9] }
def fBindEvacuate : FxForm := { fn := 1, form := 6, words := 2, atP2 := false, slot := .posts, names := false, rsv := bindRsv [31] }
def fBindRetire : FxForm := { fn := 1, form := 7, words := 2, atP2 := false, slot := .posts, names := true, rsv := bindRsv [57] }
def fBindConstraint : FxForm :=
  { fn := 1, form := 8, words := 7, atP2 := false, slot := .none, names := true
    rsv := bindRsv [57] ++ [(2, 53, 52), (2, 39, 28), (6, 63, 63)] }
def fBindWall : FxForm :=
  { fn := 1, form := 9, words := 3, atP2 := false, slot := .none, names := true, rsv := bindRsv [57] ++ [(2, 63, 16)] }
def bindForms : List FxForm :=
  [fBindCreate, fBindQuiesce, fBindResume, fBindVppb, fBindPooldev, fBindEvacuate, fBindRetire, fBindConstraint, fBindWall]
def fUnbindVppb : FxForm := { fn := 2, form := 1, words := 2, atP2 := false, slot := .none, names := false, rsv := bindRsv [57, 45, 39] }
def fUnbindPooldev : FxForm := { fn := 2, form := 2, words := 2, atP2 := false, slot := .none, names := false, rsv := bindRsv [31] }
def unbindForms : List FxForm := [fUnbindVppb, fUnbindPooldev]

/-- DOMAIN, VCS and VPPB of word 1. -/
def FxEnv.dom (e : FxEnv) : Nat := fld (e.word 1) 57 46
def FxEnv.vcs (e : FxEnv) : Nat := fld (e.word 1) 45 40
def FxEnv.vppb (e : FxEnv) : Nat := fld (e.word 1) 39 32

/-- The segment of a domain overlaps another one's (R31). -/
def segOverlap (s : State) (d base span : Nat) : Bool :=
  s.dom.doms.any (fun p => !(p.1 == d) && p.2.valid && (base < p.2.mapBase + spanOf p.2 : Bool) && (p.2.mapBase < base + span : Bool))

/-- BIND CREATE (R44 step 1, R33, R309). -/
def runCreate (f : FxForm) (e : FxEnv) (s : State) : FxOut :=
  match fxCheck f false e.dom e s with
  | some st => fxRefuse st s
  | none =>
    let w := e.word 2
    let base := fld w 59 42
    let p := fld (e.word 3) 56 38
    let c := fld (e.word 3) 37 19
    let n := fld (e.word 3) 18 0
    let d := domOf s e.dom
    if 262144 < p + c + n || 262144 < base + (p + c + n) || (e.dom == 0 && !(bit w 33)) then fxRefuse .invalid s
    else if (!(decide (d.st = .free)) && !(e.dom == 0 && !d.kmd)) || segOverlap s e.dom base (p + c + n) then fxRefuse .conflict s
    else fxOk (domPut e.dom { d with
      valid := true, st := .active, mapBase := base, qos := fld w 41 34, kmd := bit w 33, privSize := p, scohSize := c, sncoSize := n } s)

/-- BIND QUIESCE (R291). -/
def runQuiesce (f : FxForm) (e : FxEnv) (s : State) : FxOut :=
  let all := bit (e.word 1) 6
  match fxCheck f (all && !(e.vcs == 0)) e.dom e s with
  | some st => fxRefuse st s
  | none =>
    let d := domOf s e.dom
    if decide (d.st = .free) || e.dom = 0 then fxRefuse .denied s
    else if decide (d.st = .contained) || decide (d.st = .retiring) || decide (d.st = .quiescing)
        || (!all && d.quiesced.contains e.vcs) then fxRefuse .conflict s
    else if all then fxOk (domLeft e.dom (domPut e.dom { d with st := .quiescing } s))
    else fxOk (domPut e.dom { d with quiesced := d.quiesced ++ [e.vcs] } s)

/-- BIND RESUME (R291). -/
def runResume (f : FxForm) (e : FxEnv) (s : State) : FxOut :=
  let all := bit (e.word 1) 6
  match fxCheck f (all && !(e.vcs == 0)) e.dom e s with
  | some st => fxRefuse st s
  | none =>
    let d := domOf s e.dom
    if decide (d.st = .free) then fxRefuse .denied s
    else if all then
      (if decide (d.st = .quiescing) then fxOk (domPut e.dom { d with st := .active } s) else fxRefuse .conflict s)
    else if d.quiesced.contains e.vcs then
      fxOk (domPut e.dom { d with quiesced := d.quiesced.filter (fun v => !(v == e.vcs)) } s)
    else fxRefuse .conflict s

/-- The fabric-manager port (R438): it exists while FM_PATHS bit 1 is set and the in-band path is open. -/
def fmPort? (s : State) : Option Nat := if s.mgt.inBand && s.mgt.fmPaths / 2 % 2 == 1 then some s.mgt.fmPortN else none

/-- The pass-through target that word 1 names. -/
def FxEnv.target (e : FxEnv) : VTarget :=
  let port := fld (e.word 1) 23 17
  if bit (e.word 1) 12 then .ld port (fld (e.word 1) 16 13) else .port port

/-- The port of a pass-through target, and its LD. -/
def VTarget.place : VTarget → Option (Nat × Option Nat)
  | .kmd _ => none
  | .port p => some (p, none)
  | .ld p l => some (p, some l)

/-- Two places share a device: the same port, and the same LD or the whole device. -/
def samePlace (a b : Nat × Option Nat) : Bool := (a.1 == b.1) && (a.2.isNone || b.2.isNone || a.2 == b.2)

/-- A device port is reachable through port-based routing (EXPORT of the configuration its link trained with, R402). -/
def exported (s : State) (port : Nat) : Bool := bit (word (cxpOf s port).cfg) 11

/-- A port or LD is bound to a vPPB, or held by a pool device index (R35, R563). -/
def placeTaken (s : State) (x : Nat × Option Nat) : Bool :=
  s.dom.vppb.any (fun p => match p.2 with | some t => (match t.place with | some y => samePlace x y | none => false) | none => false)
    || s.dom.devs.any (fun p => p.2.bound && samePlace x (p.2.port, p.2.ld))

/-- An LD that the device behind the port does not have. -/
def noLd (x : Nat × Option Nat) (lds : Nat) : Bool := match x.2 with | some l => (lds ≤ l : Bool) | none => false

/-- vPPBs bound. -/
def vppbsBound (s : State) : Nat := (s.dom.vppb.filter (fun p => p.2.isSome)).length

/-- BIND VPPB (R44 step 2, R35, R291, R309). -/
def runVppb (f : FxForm) (e : FxEnv) (s : State) : FxOut :=
  let tg := fld (e.word 1) 11 10
  match fxCheck f (2 ≤ tg : Bool) e.dom e s with
  | some st => fxRefuse st s
  | none =>
    let d := domOf s e.dom
    if decide (d.st = .free) then fxRefuse .denied s
    else match portOfVcs? s e.vcs with
      | none => fxRefuse .invalid s
      | some port =>
        let x := (fld (e.word 1) 23 17, if bit (e.word 1) 12 then some (fld (e.word 1) 16 13) else none)
        let t : VTarget := if tg = 0 then .kmd e.dom else e.target
        if e.dom = 0 && tg = 0 && !(fmPort? s == some port) then fxRefuse .denied s
        else if (sget none s.dom.vppb (e.vcs * 256 + e.vppb)).isSome then fxRefuse .busy s
        else if (tg = 0 && !d.kmd) || (tg = 1 && (!(portRole s x.1 == 2) || noLd x e.lds || placeTaken s x || exported s x.1)) then fxRefuse .conflict s
        else if 1024 ≤ vppbsBound s || (tg = 0 && (64 ≤ d.hosts || (presenters s e.dom).contains e.vcs)) then fxRefuse .noSpace s
        else
          let s1 := vppbPut e.vcs e.vppb (some t) s
          fxOk (hotPlug e.vcs e.vppb 2 (if tg = 0 then domPut e.dom { d with hosts := d.hosts + 1 } s1 else s1))

/-- The lowest index that is not held, R57, R563. -/
def freeDev (s : State) : Option Nat := (List.range 255).find? (fun n => !(devOf s n).bound)

/-- A SCRUBBING device whose capacity is scrubbed is ACTIVE, and its POOLDEV is posted (R291). -/
def scrubEnd (n : Nat) (s : State) : State :=
  let d := devOf s n
  if decide (d.st = .scrubbing) && (d.cap ≤ d.scrubAt : Bool) then
    let s1 := devPut n { d with st := .active, slot := none } s
    match d.slot with
    | some k => slotPost k .ok (word (at_ n 56 + d.cap % 2 ^ 28)) s1
    | none => s1
  else s

/-- BIND POOLDEV (R57, R291, R309). -/
def runPooldev (f : FxForm) (e : FxEnv) (s : State) : FxOut :=
  match fxCheck f false 0 e s with
  | some st => fxRefuse st s
  | none =>
    let x := (fld (e.word 1) 23 17, if bit (e.word 1) 12 then some (fld (e.word 1) 16 13) else none)
    let p := cxpOf s x.1
    if !(portRole s x.1 == 2) || !(linkUp s x.1) || !p.mem || p.cache || noLd x e.lds || placeTaken s x || exported s x.1 then fxRefuse .conflict s
    else match freeDev s with
      | none => fxRefuse .noSpace s
      | some n =>
        fxOk (scrubEnd n (devPut n {
          bound := true, st := .scrubbing, port := x.1, ld := x.2, rank := fld (e.word 1) 9 7, cap := min e.cap (2 ^ 28)
          slot := some e.slot } (fxPost f e s)))

/-- Parcels of a domain on a device. -/
def evNeed (s : State) (dev dom : Nat) : Nat := (s.dlr.map.filter (fun p => (p.2.tag == dom) && (locsOf p.2).any (fun l => l.1 == dev))).length

/-- Free parcels that meet a domain's constraints, without a device. -/
def evRoom (s : State) (dev dom : Nat) : Nat :=
  let c := conOf s dom
  let near := if c.pinTier = 8 then min (rcount s.dlr.near) (c.quota - oasisUsed s dom) else 0
  if c.pinTier = 8 then near
  else ((s.dom.devs.filter (fun p => decide (p.2.st = .active) && devAllowed c p.1 && !(p.1 == dev)
    && (c.pinTier == 15 || p.2.rank == c.pinTier))).map (fun p => rcount p.2.free)).sum

/-- The remaining capacity cannot hold the parcels of a device (R57, R192). -/
def evLacks (s : State) (dev : Nat) : Bool :=
  let ds := (s.dom.doms.filter (fun p => !(evNeed s dev p.1 == 0))).map (fun p => p.1)
  ds.any (fun d => (evRoom s dev d < evNeed s dev d : Bool))
    || (poolFree s - rcount (devOf s dev).free < s.dlr.promises + (naming s dev).length : Bool)

/-- BIND EVACUATE (R57, R291, R309). -/
def runEvacuate (f : FxForm) (e : FxEnv) (s : State) : FxOut :=
  match fxCheck f false 0 e s with
  | some st => fxRefuse st s
  | none =>
    let n := fld (e.word 1) 31 24
    if !(decide ((devOf s n).st = .active)) then fxRefuse .conflict s
    else if evLacks s n then fxRefuse .noSpace s
    else
      let k := (naming s n).length
      let s1 := fxPost f e s
      fxOk (devPut n { devOf s1 n with st := .evacuating, evSlot := some e.slot, evProm := k, moved := 0 }
        { s1 with dlr := { s1.dlr with promises := s1.dlr.promises + k } })

/-- Blocks that hold a parcel of a domain. -/
def domBlocks (s : State) (d : Nat) : List Nat :=
  let x := domOf s d
  sortNat ((s.dlr.map.filter (fun p => (p.2.tag == d) && p.2.ext)).map (fun p => (p.1 - x.mapBase * 1024) / 8) ++ x.extents)

/-- BIND RETIRE (R291, R309). -/
def runRetire (f : FxForm) (e : FxEnv) (s : State) : FxOut :=
  match fxCheck f false e.dom e s with
  | some st => fxRefuse st s
  | none =>
    let d := domOf s e.dom
    if decide (d.st = .free) || e.dom = 0 then fxRefuse .denied s
    else if !(d.hosts == 0) then fxRefuse .conflict s
    else
      let s1 := domPut e.dom { d with st := .retiring, retireSlot := some e.slot, scrubbed := 0 } (fxPost f e s)
      let s2 := { s1 with dom := { s1.dom with wins := s1.dom.wins.map (fun p =>
        if p.2.valid && (p.2.dom == e.dom) && p.2.slot.isNone then (p.1, { p.2 with drain := true, slot := some 4096 }) else p) } }
      fxOk (releaseStart e.dom (domBlocks s2 e.dom) false (domLeft e.dom s2))

/-- Parcels of a domain with EXT = 1. -/
def extParcels (s : State) (d : Nat) : Nat := (s.dlr.map.filter (fun p => (p.2.tag == d) && p.2.ext)).length

/-- A target code of PIN_TIER and FILL that is reserved. -/
def tierBad (t : Nat) : Bool := (9 ≤ t : Bool) && (t < 15 : Bool)

/-- BIND CONSTRAINT (R216, R309). -/
def runConstraint (f : FxForm) (e : FxEnv) (s : State) : FxOut :=
  let w := e.word 2
  match fxCheck f (tierBad (fld w 63 60) || tierBad (fld w 59 56)) e.dom e s with
  | some st => fxRefuse st s
  | none =>
    if decide ((domOf s e.dom).st = .free) then fxRefuse .denied s
    else if fld w 63 60 = 8 && fld w 27 0 < extParcels s e.dom then fxRefuse .invalid s
    else fxOk { s with dlr := { s.dlr with con := sset {} s.dlr.con e.dom {
      pinTier := fld w 63 60, fill := fld w 59 56, duplex := bit w 55, heatOff := bit w 54, migCap := fld w 51 40
      quota := fld w 27 0
      devset := (e.word 3).toNat + at_ (e.word 4).toNat 64 + at_ (e.word 5).toNat 128 + at_ (e.word 6).toNat 192 } } }

/-- BIND WALL (R51, R289). -/
def runWall (f : FxForm) (e : FxEnv) (s : State) : FxOut :=
  match fxCheck f false e.dom e s with
  | some st => fxRefuse st s
  | none =>
    let v := fld (e.word 2) 15 0
    let d := domOf s e.dom
    if decide (d.st = .free) then fxRefuse .denied s
    else if !((v &&& walledWays s e.dom) == 0) then fxRefuse .conflict s
    else if 12 < popCount 16 (v ||| walledWays s e.dom) then fxRefuse .noSpace s
    else
      let s1 := wallEvict e.dom (domPut e.dom { d with wall := v } s)
      if wallPending s1 e.dom then .wall e.dom s1 else fxOk s1

/-- UNBIND VPPB (R47, R291, R309). -/
def runUnbindVppb (f : FxForm) (e : FxEnv) (s : State) : FxOut :=
  match fxCheck f false 0 e s with
  | some st => fxRefuse st s
  | none =>
    match sget none s.dom.vppb (e.vcs * 256 + e.vppb) with
    | none => fxRefuse .conflict s
    | some (.kmd d) =>
      if s.dom.wins.any (fun p => p.2.valid && (p.2.vcs == e.vcs) && (p.2.dom == d)) then fxRefuse .conflict s
      else fxOk (unbindKmd e.vcs e.vppb d s)
    | some _ => fxOk (hotPlug e.vcs e.vppb 3 (vppbPut e.vcs e.vppb none s))

/-- UNBIND POOLDEV (R563, R309). -/
def runUnbindPooldev (f : FxForm) (e : FxEnv) (s : State) : FxOut :=
  match fxCheck f false 0 e s with
  | some st => fxRefuse st s
  | none =>
    let n := fld (e.word 1) 31 24
    if !(devOf s n).bound then fxRefuse .invalid s
    else if !(decide ((devOf s n).st = .absent)) then fxRefuse .conflict s
    else fxOk (devPut n {} s)

/-- Commands of the rows: an FX instruction of core n, with gd, and ga the register of the descriptor's address. -/
def execBindCreate (core gd ga : Fin 64) (s : State) : Host.Outcome State Fault Refusal :=
  finish (fxIssue core gd ga 1 0 0 bindForms fBindCreate runCreate s)
def execBindQuiesce (core gd ga : Fin 64) (s : State) : Host.Outcome State Fault Refusal :=
  finish (fxIssue core gd ga 1 0 0 bindForms fBindQuiesce runQuiesce s)
def execBindResume (core gd ga : Fin 64) (s : State) : Host.Outcome State Fault Refusal :=
  finish (fxIssue core gd ga 1 0 0 bindForms fBindResume runResume s)
/-- `lds`: logical devices of the device on the port named. -/
def execBindVppb (core gd ga : Fin 64) (lds : Nat) (s : State) : Host.Outcome State Fault Refusal :=
  finish (fxIssue core gd ga 1 lds 0 bindForms fBindVppb runVppb s)
/-- `lds`, `cap`: what enumeration reads: logical devices, capacity in whole parcels (R57). -/
def execBindPooldev (core gd ga : Fin 64) (lds cap : Nat) (s : State) : Host.Outcome State Fault Refusal :=
  finish (fxIssue core gd ga 1 lds cap bindForms fBindPooldev runPooldev s)
def execBindEvacuate (core gd ga : Fin 64) (s : State) : Host.Outcome State Fault Refusal :=
  finish (fxIssue core gd ga 1 0 0 bindForms fBindEvacuate runEvacuate s)
def execBindRetire (core gd ga : Fin 64) (s : State) : Host.Outcome State Fault Refusal :=
  finish (fxIssue core gd ga 1 0 0 bindForms fBindRetire runRetire s)
def execBindConstraint (core gd ga : Fin 64) (s : State) : Host.Outcome State Fault Refusal :=
  finish (fxIssue core gd ga 1 0 0 bindForms fBindConstraint runConstraint s)
def execBindWall (core gd ga : Fin 64) (s : State) : Host.Outcome State Fault Refusal :=
  finish (fxIssue core gd ga 1 0 0 bindForms fBindWall runWall s)
def execUnbindVppb (core gd ga : Fin 64) (s : State) : Host.Outcome State Fault Refusal :=
  finish (fxIssue core gd ga 2 0 0 unbindForms fUnbindVppb runUnbindVppb s)
def execUnbindPooldev (core gd ga : Fin 64) (s : State) : Host.Outcome State Fault Refusal :=
  finish (fxIssue core gd ga 2 0 0 unbindForms fUnbindPooldev runUnbindPooldev s)

/-! ### Windows (R39-R46, R292) -/

/-- Two ranges of units meet. -/
def rangesMeet (a n b m : Nat) : Bool := (a < b + m : Bool) && (b < a + n : Bool)

/-- The ST_INVALID rows of R41 for a window. -/
def winInvalid (s : State) (mode : Nat) (w : Window) : Bool :=
  let d := domOf s w.dom
  (Mode.ofCode mode).isNone || w.size == 0 || (spanOf d < w.da + w.size : Bool)
    || !(regionOf d w.da == regionOf d (w.da + w.size - 1)) || !(regionOf d w.da == Mode.ofCode mode)

/-- The lowest free window slot. -/
def freeWin (s : State) : Option Nat := (List.range 65536).find? (fun n => !(sget {} s.dom.wins n).valid)

/-- The other rows of R41, in order; else the slot. -/
def winPlace (w : Window) (s : State) : Except Status Nat :=
  if !(decide ((domOf s w.dom).st = .active)) then .error .denied
  else if !(s.dom.decoders.any (fun c => (c.vcs == w.vcs) && (c.dom == w.dom) && (c.dec == w.dec)
      && (c.hpa ≤ w.hpa : Bool) && (w.hpa + w.size ≤ c.hpa + c.size : Bool))) then .error .conflict
  else if s.dom.wins.any (fun p => p.2.valid && (p.2.vcs == w.vcs) && rangesMeet w.hpa w.size p.2.hpa p.2.size) then .error .conflict
  else if decide (w.mode = .priv) && s.dom.wins.any (fun p => p.2.valid && (p.2.dom == w.dom) && rangesMeet w.da w.size p.2.da p.2.size)
    then .error .conflict
  else match freeWin s with
    | some n => .ok n
    | none => .error .noSpace

/-- A window fills a slot: GEN rises, WIN_COUNT rises (R39, R41). -/
def winFill (n : Nat) (w : Window) (s : State) : State :=
  let d := domOf s w.dom
  domPut w.dom { d with winCount := d.winCount + 1 } { s with dom := { s.dom with
    wins := sput s.dom.wins n { w with valid := true, drain := false, gen := ((sget {} s.dom.wins n).gen + 1) % 256, slot := none } } }

/-- The window that words 1 and 2 describe. -/
def winImage (a b : Word) : Window :=
  { valid := false, mode := (Mode.ofCode (fld a 62 61)).getD .priv, drain := false, wp := bit a 59, dom := fld a 57 46, vcs := fld a 45 40
    dec := fld a 39 37, hpa := fld a 23 0, gen := 0, size := fld b 55 37, da := fld b 17 0, slot := none }

def fWinset : FxForm :=
  { fn := 3, form := 0, words := 4, atP2 := false, slot := .none, names := true
    rsv := [(1, 63, 63), (1, 60, 60), (1, 58, 58), (1, 36, 24), (2, 63, 56), (2, 36, 18), (3, 63, 16)] }
def fWinclr : FxForm := { fn := 4, form := 0, words := 2, atP2 := false, slot := .posts, names := false, rsv := [(1, 63, 25)] }

/-- WINSET (R41, R292). -/
def runWinset (f : FxForm) (e : FxEnv) (s : State) : FxOut :=
  let w := winImage (e.word 1) (e.word 2)
  match fxCheck f (winInvalid s (fld (e.word 1) 62 61) w) w.dom e s with
  | some st => fxRefuse st s
  | none => match winPlace w s with
    | .error st => fxRefuse st s
    | .ok n => .done .ok [(3, word n)] 0 (winFill n w s)

/-- A window is being cleared by WINCLR (R46). -/
def winDrain (n k : Nat) (s : State) : State :=
  { s with dom := { s.dom with wins := sput s.dom.wins n { sget {} s.dom.wins n with drain := true, slot := some k } } }

/-- WINCLR (R46, R292, R309). -/
def runWinclr (f : FxForm) (e : FxEnv) (s : State) : FxOut :=
  match fxCheck f (!(bit (e.word 1) 24) && !(fld (e.word 1) 23 16 == 0)) 0 e s with
  | some st => fxRefuse st s
  | none =>
    let n := fld (e.word 1) 15 0
    let w := sget {} s.dom.wins n
    if !w.valid then fxRefuse .invalid s
    else if w.slot.isSome then fxRefuse .busy s
    else if bit (e.word 1) 24 && !(w.gen == fld (e.word 1) 23 16) then fxRefuse .conflict s
    else fxOk (winDrain n e.slot (fxPost f e s))

def execWinset (core gd ga : Fin 64) (s : State) : Host.Outcome State Fault Refusal :=
  finish (fxIssue core gd ga 3 0 0 [fWinset] fWinset runWinset s)
def execWinclr (core gd ga : Fin 64) (s : State) : Host.Outcome State Fault Refusal :=
  finish (fxIssue core gd ga 4 0 0 [fWinclr] fWinclr runWinclr s)

/-- The slot of a drained window is cleared: every field but GEN reads 0, WIN_COUNT falls, the WINCLR is posted (R46). -/
def winClear (n : Nat) (s : State) : State :=
  let w := sget {} s.dom.wins n
  let d := domOf s w.dom
  let s1 := domPut w.dom { d with winCount := d.winCount - 1 } { s with dom := { s.dom with wins := sset {} s.dom.wins n { gen := w.gen } } }
  match w.slot with
  | some k => slotPost k .ok 0 s1
  | none => s1

/-- Every request that passed binding under a window has completed (R46); before that the command has no effect. -/
def execWinclrDrainDone (win : Nat) (s : State) : Host.Outcome State Fault Refusal :=
  finish (
    let w := sget {} s.dom.wins win
    if w.valid && w.drain && w.slot.isSome && !(s.reqs.any (fun r => r.win == some win)) then winClear win s else s)

/-! ### Decoder commits (R38, R141) -/

/-- The answer of a commit on the host's configuration path: 0 committed, 1 the decoder error status. -/
def commitAnswer (port code : Nat) (s : State) : State := respond (.cfg port) code [] s

/-- A host commits decoder `dec` of a domain's KMD instance: base, size and DA in bytes; `bi`: back-invalidate is enabled on the
path. Firmware creates its one window, and the commit succeeds or fails (R38, R44 step 3, R141). -/
def execHdmDecoderCommit (vcs dom dec hpa size da : Nat) (bi : Bool) (s : State) : Host.Outcome State Fault Refusal :=
  finish (
    match portOfVcs? s vcs with
    | none => s
    | some port =>
      if !((presenters s dom).contains vcs) || 8 ≤ dec then s
      else
        let d := domOf s dom
        let u := unit256
        let r := regionOf d (da / u)
        if !(hpa % u == 0) || !(size % u == 0) || !(da % u == 0) || size = 0 || r.isNone
            || !(r == regionOf d ((da + size) / u - 1)) then commitAnswer port 1 s
        else if r == some .scoh && (!bi || (cxpOf s port).flit == 1) then commitAnswer port 1 s
        else
          let c : Decoder := { vcs := vcs, dom := dom, dec := dec, hpa := hpa / u, size := size / u, da := da / u }
          let s1 := { s with dom := { s.dom with
            decoders := s.dom.decoders.filter (fun x => !((x.vcs == vcs) && (x.dom == dom) && (x.dec == dec))) ++ [c] } }
          let w : Window := { valid := false, mode := r.getD .priv, dom := dom, vcs := vcs, dec := dec, hpa := hpa / u, size := size / u, da := da / u }
          if winInvalid s1 (r.getD .priv).code w then commitAnswer port 1 s
          else match winPlace w s1 with
            | .error _ => commitAnswer port 1 s
            | .ok n => commitAnswer port 0 (winFill n w s1))

/-! ### Dynamic capacity (R44, R45) -/

/-- Blocks that can be offered: within the domain's span, in one region, none with EXT set. -/
def addable (s : State) (dom : Nat) (blocks : List Nat) : Bool :=
  let d := domOf s dom
  blocks.all (fun b => (regionOf d (b / 128) == regionOf d (blocks.headD 0 / 128)) && (b < spanOf d * 128 : Bool)
    && (List.range 8).all (fun i => !(mapOf s (mapIdx s dom (8 * b + i))).ext))

/-- EXTEND writes an entry: ZERO, EXT = 1, the domain's tag (R296). -/
def entryExtend (dom : Nat) (e : MapEntry) : MapEntry := { gen := (e.gen + 1) % 65536, ext := true, tag := dom }

/-- Initiate Dynamic Capacity Add (R44 step 4): promises are taken, the entries become ZERO with the domain's tag, MSYNC follows,
and the hosts that present the region get the Add Capacity event; a PRIVATE region is offered to one host, `vcs`. With no host to
ask, the blocks are the domain's at once (log entry 33, DEDUCED). -/
def initiateDcAdd (dom first n vcs : Nat) (s : State) : State :=
    let d := domOf s dom
    let blocks := (List.range n).map (fun i => first + i)
    if !(decide (d.st = .active)) then respond .mgmt Status.denied.code [] s
    else if n = 0 || spanOf d * 128 < first + n || !(addable s dom blocks) then respond .mgmt Status.invalid.code [] s
    else
      let need := 8 * n * promiseOf s dom
      if poolFree s < s.dlr.promises + need then respond .mgmt Status.noSpace.code [] s
      else
        let s1 := (blockParcels blocks).foldl (fun s' p =>
          let i := mapIdx s' dom p
          mapNow i (entryExtend dom (mapOf s' i)) s') { s with dlr := { s.dlr with promises := s.dlr.promises + need } }
        let hosts := if regionOf d (first / 128) == some .priv then (presenters s1 dom).filter (fun v => v == vcs) else presenters s1 dom
        let s2 := hosts.foldl (fun s' v => logPush v dom 4 (.addCapacity dom blocks) s') s1
        respond .mgmt 0 [] (if hosts.isEmpty then domPut dom { domOf s2 dom with extents := (domOf s2 dom).extents ++ blocks } s2
          else { s2 with dom := { s2.dom with offers := s2.dom.offers ++ [{ dom := dom, blocks := blocks, waiting := hosts, accepted := [] }] } })

def execInitiateDcAdd (dom first n vcs : Nat) (s : State) : Host.Outcome State Fault Refusal :=
  finish (engine false false (initiateDcAdd dom first n vcs) s)

/-- A host answers an offer: the blocks it accepts (R44 step 5). -/
def execAddDcResponse (vcs dom : Nat) (accepted : List Nat) (s : State) : Host.Outcome State Fault Refusal :=
  finish (
    match s.dom.offers.find? (fun o => (o.dom == dom) && o.waiting.contains vcs) with
    | none => s
    | some o =>
      let o1 : Offer := { o with
        waiting := o.waiting.filter (fun v => !(v == vcs))
        accepted := o.accepted ++ accepted.filter (fun b => o.blocks.contains b && !(o.accepted.contains b)) }
      { s with dom := { s.dom with offers := s.dom.offers.map (fun x => if x = o then o1 else x) } })

/-- A host releases blocks of a domain it presents (R45). -/
def execReleaseDc (vcs dom : Nat) (blocks : List Nat) (s : State) : Host.Outcome State Fault Refusal :=
  finish (if (presenters s dom).contains vcs then
      releaseStart dom (blocks.filter (fun b => (domOf s dom).extents.contains b)) true s
    else s)

/-- The fabric manager forces a release; hosts learn of it from the Release Capacity event (R45). -/
def initiateDcRelease (dom : Nat) (blocks : List Nat) (s : State) : State :=
  let bs := blocks.filter (fun b => (domOf s dom).extents.contains b)
  let s1 := (presenters s dom).foldl (fun s' v => logPush v dom 4 (.releaseCapacity dom bs) s') s
  respond .mgmt 0 [] (releaseStart dom bs true s1)

def execInitiateDcRelease (dom : Nat) (blocks : List Nat) (s : State) : Host.Outcome State Fault Refusal :=
  finish (engine false false (initiateDcRelease dom blocks) s)

/-- The drain of the oldest release of a domain that is draining ends (R45 steps 3 and 4): its former backing is scrubbed. While
a request of the drain is in flight the command has no effect. -/
def execReleaseDrainDone (dom : Nat) (s : State) : Host.Outcome State Fault Refusal :=
  finish (
    match s.dom.releases.find? (fun r => (r.dom == dom) && (r.phase == 1)) with
    | none => s
    | some r =>
      if !(releaseDrained s r) then s
      else scrubAll r.backing { s with dom := { s.dom with
        releases := s.dom.releases.map (fun x => if x = r then { r with phase := 2, waits := [] } else x) } })

/-! ### Scrubs (R49, R57, R212) -/

/-- Copy bytes are metered (R212). -/
def meterBytes (dom n : Nat) (s : State) : State :=
  countN 0x5024 (some dom) none n { s with dlr := { s.dlr with
    copied := s.dlr.copied + n, copiedD := sset 0 s.dlr.copiedD dom (sget 0 s.dlr.copiedD dom + n) } }

/-- The lines of a near-tier parcel are zeros written by the scrub (R48, R227). -/
def nearZero (p : Nat) (s : State) : State :=
  { s with oas := { s.oas with lines := s.oas.lines.filter (fun x => !((nearOa p 0 / 64 ≤ x.1 : Bool) && (x.1 < nearOa p 0 / 64 + 4096 : Bool))) } }

/-- A Caravan's scrub of a parcel of a location completes, and the parcel joins the free pool (R49): `dev` 255 is the near tier. A
parcel that was released comes first, then the next one of the scrub that follows a bind or boot. A pool device sees 4,096 writes of
zeros, shown as one output of code 20. -/
def execScrubParcelDone (dev : Nat) (s : State) : Host.Outcome State Fault Refusal :=
  finish (
    if dev = 255 then
      match s.dlr.nearToScrub with
      | p :: t => meterBytes 0 0x40000 (nearZero p { s with dlr := { s.dlr with nearToScrub := t, near := radd s.dlr.near p } })
      | [] =>
        if s.dlr.nearScrub < s.dlr.nearTotal then
          let p := s.dlr.nearScrub
          meterBytes 0 0x40000 (nearZero p { s with dlr := { s.dlr with
            nearScrub := p + 1, near := if s.oas.retired.contains p then s.dlr.near else radd s.dlr.near p } })
        else s
    else
      let d := devOf s dev
      if devLost s dev then s
      else match d.toScrub with
        | p :: t => meterBytes 0 0x40000 (emit (.link d.port 20 p) (devPut dev { d with toScrub := t, free := radd d.free p } s))
        | [] =>
          if decide (d.st = .scrubbing) && (d.scrubAt < d.cap : Bool) then
            meterBytes 0 0x40000 (scrubEnd dev (emit (.link d.port 20 d.scrubAt)
              (devPut dev { d with scrubAt := d.scrubAt + 1, free := radd d.free d.scrubAt } s)))
          else s)

/-! ### Loss walks (R60, R61, R214) -/

/-- What a loss rewrite makes of an entry that names a lost device (R214). -/
def lossEntry (s : State) (dev : Nat) (e : MapEntry) : Option MapEntry :=
  match e.kind with
  | .pool => if e.devA = dev then some { genUp e with kind := .poisoned, devA := 0, pA := 0, devB := 0, pB := 0, rdup := false } else none
  | .duplex =>
    if e.devA ≠ dev && e.devB ≠ dev then none
    else
      let o : Loc := if e.devA = dev then (e.devB, e.pB) else (e.devA, e.pA)
      if devLost s o.1 then some { genUp e with kind := .poisoned, devA := 0, pA := 0, devB := 0, pB := 0, rdup := false }
      else some { genUp e with kind := .pool, devA := o.1, pA := o.2, devB := 0, pB := 0, rdup := true }
  | _ => none

/-- A run of poisoned parcels is reported to every host that presents the domain (R61): CAUSE 1. The last record of a domain
carries FLAGS[0]. -/
def runRec (w : LossWalk) (d : Nat) (last : Bool) (s : State) : State :=
  match w.run with
  | none => s
  | some (p, n) => (presenters s d).foldl (fun s' v =>
      lossRec v d (.memLoss 1 (b2n last) w.dev d (hpaFor s' v d (p * 2 ^ 18)) (n * 2 ^ 18) 0 w.incident w.time) s') s

/-- The walk visits one parcel: it is rewritten, deferred while its move runs, or left. Answers whether it became poisoned. -/
def walkParcel (w : LossWalk) (d p : Nat) (s : State) : Bool × Bool × State :=
  let i := mapIdx s d p
  let e := mapOf s i
  if e.tag ≠ d then (false, false, s)
  else match lossEntry s w.dev e with
    | none => (false, false, s)
    | some e' =>
      if !(decide (e.ms = .none)) then (false, true, s)
      else
        let s1 := mapNow i { e' with ms := .none, car := 0 } s
        if decide (e'.kind = .poisoned) then (true, false, discardLines (inParcel d p) s1) else (false, false, s1)

/-- A parcel became poisoned: it extends the run that is held back, or that run's record is sent and a new run begins (R61). -/
def walkLost (w : LossWalk) (d p : Nat) (s : State) : LossWalk × State :=
  match w.run with
  | some (a, k) => if a + k = p then ({ w with run := some (a, k + 1) }, s) else ({ w with run := some (p, 1) }, runRec w d false s)
  | none => ({ w with run := some (p, 1) }, s)

/-- The deferred entries of a walk whose moves have ended are visited again. -/
def walkDeferred (d : Nat) : List Nat → LossWalk → State → LossWalk × State
  | [], w, s => (w, s)
  | p :: t, w, s =>
    let r := walkParcel w d p s
    let x := if r.1 then walkLost w d p r.2.2 else (w, r.2.2)
    walkDeferred d t { x.1 with deferred := if r.2.1 then x.1.deferred ++ [p] else x.1.deferred } x.2

/-- The walk of a domain ends: its last CAUSE 1 record, or the CAUSE 3 record of one that had duplex legs as well. -/
def walkDomEnd (w : LossWalk) (d : Nat) (s : State) : State :=
  let legs := sget 0 w.duplex d
  let single := !(s.dom.lossList.any (fun x => (x.2.1 == d) && (match x.2.2 with | .memLoss 3 _ _ _ _ _ _ i _ => i == w.incident | _ => false)))
  if legs ≠ 0 && single then redundancyLoss d w.dev legs w.incident w.time (runRec w d false s)
  else runRec w d true s

/-- The next `n` parcels of the first domain of a walk are visited. -/
def walkRun (d : Nat) : Nat → LossWalk → State → LossWalk × State
  | 0, w, s => (w, s)
  | n + 1, w, s =>
    if spanOf (domOf s d) * 1024 ≤ w.pos then (w, s)
    else
      let p := w.pos
      let r := walkParcel w d p s
      let x := if r.1 then walkLost w d p r.2.2 else (w, r.2.2)
      walkRun d n { x.1 with pos := p + 1, deferred := if r.2.1 then x.1.deferred ++ [p] else x.1.deferred } x.2

/-- Firmware's loss walk of a device goes on by n parcels (R61): entries are rewritten, those with running moves deferred; a domain
ends when its deferred entries have ended, and the device is ABSENT after the last one. -/
def execLossWalkStep (dev n : Nat) (s : State) : Host.Outcome State Fault Refusal :=
  finish (
    match s.dom.walks.find? (fun w => w.dev == dev) with
    | none => s
    | some w0 =>
      match w0.doms with
      | [] => devPut dev { devOf s dev with st := .absent } { s with dom := { s.dom with walks := s.dom.walks.filter (fun w => !(w.dev == dev)) } }
      | d :: t =>
        let x := walkRun d n w0 s
        let y := walkDeferred d x.1.deferred { x.1 with deferred := [] } x.2
        let w := y.1
        let put := fun (w' : LossWalk) (s' : State) => { s' with dom := { s'.dom with walks := s'.dom.walks.map (fun v => if v.dev = dev then w' else v) } }
        if w.pos < spanOf (domOf y.2 d) * 1024 || !w.deferred.isEmpty then put w y.2
        else
          let s2 := walkDomEnd w d y.2
          if t.isEmpty then devPut dev { devOf s2 dev with st := .absent } { s2 with dom := { s2.dom with walks := s2.dom.walks.filter (fun v => !(v.dev == dev)) } }
          else put { w with doms := t, pos := 0, run := none, deferred := [] } s2)

end Sys2Proof.Machine
end

