-- ==== Sys2Proof/Machine/Gates.lean ====
section
/-!
DEFINITION. Machine/Gates.lean: changing the Gate's rules (spec 03 R76-R79, spec 10 R293, R294) and the barriers (R78, R191, R289).
-/
namespace Sys2Proof.Machine

/-- Reserved fields of GATESET words 1 to 5. -/
def gatesetRsv : List (Nat × Nat × Nat) :=
  [(1, 63, 63), (1, 61, 57), (1, 44, 16), (1, 15, 15), (1, 12, 11), (1, 7, 7), (1, 3, 3), (2, 63, 48), (2, 5, 0), (3, 63, 48),
    (3, 5, 0), (4, 63, 46), (4, 31, 31), (4, 15, 1)]

def gateForm (k : Nat) : FxForm := { fn := 8, form := k, words := 6, atP2 := false, slot := .none, names := true, rsv := gatesetRsv }
def gatesetForms : List FxForm := [gateForm 1, gateForm 2, gateForm 3, gateForm 4, gateForm 5]
def gateclrForm (k : Nat) : FxForm :=
  { fn := 9, form := k, words := 2, atP2 := false, slot := .none, names := true, rsv := [(1, 63, 63), (1, 61, 58), (1, 31, 0)] }
def gateclrForms : List FxForm := [gateclrForm 1, gateclrForm 2]

/-- SPACE and DOMAIN of a GATESET, and the list they name. -/
def FxEnv.das (e : FxEnv) : Bool := bit (e.word 1) 62
def FxEnv.gdom (e : FxEnv) : Nat := fld (e.word 1) 56 45
def FxEnv.glist (e : FxEnv) : Nat := if e.das then dasList else e.gdom

/-- RULE and LINK. -/
def FxEnv.rule (e : FxEnv) : Nat := fld (e.word 4) 45 32
def FxEnv.link (e : FxEnv) : Nat := fld (e.word 4) 29 16

/-- The fixed regions of R72. -/
def fixedRanges : List (Nat × Nat) :=
  [(0x24000000, 0x2411FFFF), (0x24200000, 0x24290FFF), (0x010000000000, 0x013FFFFFFFFF)]

/-- A DAS rule covers a line of a fixed or locked region. -/
def coversLocked (s : State) (a b : Nat) : Bool :=
  (fixedRanges ++ (s.gate.locks.filter (fun p => p.2.en)).map (fun p => (p.2.base, p.2.limit))).any
    (fun r => (a ≤ r.2 : Bool) && (r.1 ≤ b : Bool))

/-- START and LIMIT. -/
def FxEnv.gstart (e : FxEnv) : Nat := fld (e.word 2) 47 6 * 64
def FxEnv.glimit (e : FxEnv) : Nat := fld (e.word 3) 47 6 * 64

/-- The ST_INVALID row of R76 beyond reserved bits. -/
def gateInvalid (e : FxEnv) : Bool :=
  (e.glimit < e.gstart : Bool) || (!e.das && (2 ^ 46 ≤ e.gstart || 2 ^ 46 ≤ e.glimit)) || (e.das && !(e.gdom == 0))

/-- The rows of R76 up to ST_LOCKED; `writes`: the form writes a rule's range. -/
def gateCheck (f : FxForm) (writes : Bool) (e : FxEnv) (s : State) : Option Status :=
  match fxCheck f (gateInvalid e) e.gdom e s with
  | some st => some st
  | none =>
    let d := domOf s e.gdom
    if !e.das && (decide (d.st = .free) || decide (d.st = .retiring)) then some .denied
    else if writes && e.das && coversLocked s e.gstart e.glimit then some .locked
    else none

/-- The rule that the descriptor writes into a slot: GEN rises (R66). -/
def ruleImage (e : FxEnv) (old : Rule) : Rule :=
  let w := e.word 1
  { old with
    das := e.das, dom := e.gdom, p3 := fld w 15 12, p2 := fld w 11 8, p1 := fld w 7 4, p0 := fld w 3 0, start := e.gstart
    limit := e.glimit, gen := (old.gen + 1) % 256 }

/-- A slot that may take a new rule (R294). -/
def slotFree (r : Rule) : Bool := !r.valid && !r.freed

/-- A rule of a staged chain of the descriptor's SPACE and DOMAIN. -/
def stagedAs (e : FxEnv) (r : Rule) : Bool := r.valid && r.staged && (r.das == e.das) && (r.dom == e.gdom)

/-- The first slot of a staged chain: no staged rule leads to it. -/
def stagedHead (s : State) (k : Nat) : Bool :=
  (ruleOf s k).valid && (ruleOf s k).staged && !(s.gate.rules.any (fun p => p.2.valid && p.2.staged && !p.2.last && (p.2.next == k)))

/-- The first slot of the chain that holds a staged slot. -/
def chainHead (s : State) : Nat → Nat → Nat
  | 0, k => k
  | n + 1, k => match s.gate.rules.find? (fun p => p.2.valid && p.2.staged && !p.2.last && (p.2.next == k)) with
    | some p => chainHead s n p.1
    | none => k

/-- Pinned rules would pass 2,048 after a list grows to n rules. -/
def pinOver (s : State) (l n : Nat) : Bool :=
  (headOf s l).pin && (2048 < pinnedRules s - (headOf s l).count + n : Bool)

/-- GATESET WRITE. -/
def runGateWrite (f : FxForm) (e : FxEnv) (s : State) : FxOut :=
  match gateCheck f true e s with
  | some st => fxRefuse st s
  | none =>
    if (listSlots s e.glist).contains e.rule then fxOk (rulePut e.rule (ruleImage e (ruleOf s e.rule)) s) else fxRefuse .conflict s

/-- GATESET STAGE. -/
def runGateStage (f : FxForm) (e : FxEnv) (s : State) : FxOut :=
  match gateCheck f true e s with
  | some st => fxRefuse st s
  | none =>
    let r := ruleOf s e.rule
    let after := bit (e.word 4) 30
    let l := ruleOf s e.link
    if !(slotFree r) || (after && !(stagedAs e l)) then fxRefuse .conflict s
    else if after && 256 ≤ (stagedSlots s (chainHead s 256 e.link)).length then fxRefuse .noSpace s
    else
      let n := { ruleImage e r with valid := true, staged := true, last := if after then l.last else true, next := if after then l.next else 0 }
      fxOk (rulePut e.rule n (if after then rulePut e.link { l with last := false, next := e.rule } s else s))

/-- GATESET INSERT. -/
def runGateInsert (f : FxForm) (e : FxEnv) (s : State) : FxOut :=
  match gateCheck f true e s with
  | some st => fxRefuse st s
  | none =>
    let r := ruleOf s e.rule
    let after := bit (e.word 4) 30
    let h := headOf s e.glist
    let l := ruleOf s e.link
    if !(slotFree r) || (after && !((listSlots s e.glist).contains e.link)) then fxRefuse .conflict s
    else if 256 ≤ h.count || pinOver s e.glist (h.count + 1) then fxRefuse .noSpace s
    else if after then
      fxOk (headPut e.glist { h with count := h.count + 1 }
        (rulePut e.rule { ruleImage e r with valid := true, staged := false, last := l.last, next := l.next }
          (rulePut e.link { l with last := false, next := e.rule } s)))
    else
      fxOk (headPut e.glist { h with count := h.count + 1, head := e.rule }
        (rulePut e.rule { ruleImage e r with valid := true, staged := false, last := h.count == 0, next := if h.count = 0 then 0 else h.head } s))

/-- STAGED of every slot of a chain. -/
def setStaged (v : Bool) (ks : List Nat) (s : State) : State :=
  ks.foldl (fun s' k => rulePut k { ruleOf s' k with staged := v } s') s

/-- GATESET SWAP. -/
def runGateSwap (f : FxForm) (e : FxEnv) (s : State) : FxOut :=
  match gateCheck f false e s with
  | some st => fxRefuse st s
  | none =>
    let h := headOf s e.glist
    let new := stagedSlots s e.rule
    if !(stagedHead s e.rule) || !(stagedAs e (ruleOf s e.rule)) then fxRefuse .conflict s
    else if pinOver s e.glist new.length then fxRefuse .noSpace s
    else
      let old := listSlots s e.glist
      .done .ok [(5, word (if h.count = 0 then 0 else at_ 1 14 + h.head))] 0
        (headPut e.glist { h with count := new.length, head := e.rule } (setStaged true old (setStaged false new s)))

/-- GATESET PIN. -/
def runGatePin (f : FxForm) (e : FxEnv) (s : State) : FxOut :=
  match gateCheck f false e s with
  | some st => fxRefuse st s
  | none =>
    let h := headOf s e.glist
    let v := bit (e.word 4) 0
    if v && !h.pin && 2048 < pinnedRules s + h.count then fxRefuse .noSpace s
    else fxOk (headPut e.glist { h with pin := v } s)

/-- SPACE, DOMAIN and RULE of a GATECLR. -/
def FxEnv.cdom (e : FxEnv) : Nat := fld (e.word 1) 57 46
def FxEnv.clist (e : FxEnv) : Nat := if e.das then dasList else e.cdom
def FxEnv.crule (e : FxEnv) : Nat := fld (e.word 1) 45 32

/-- A released slot keeps its GEN and is free after the next GSYNC (R294). -/
def slotRelease (k : Nat) (s : State) : State := rulePut k { gen := (ruleOf s k).gen, freed := true } s

/-- GATECLR UNLINK. -/
def runUnlink (f : FxForm) (e : FxEnv) (s : State) : FxOut :=
  match fxCheck f (e.das && !(e.cdom == 0)) e.cdom e s with
  | some st => fxRefuse st s
  | none =>
    let ks := listSlots s e.clist
    let h := headOf s e.clist
    let r := ruleOf s e.crule
    if !(ks.contains e.crule) then fxRefuse .conflict s
    else
      let s1 := match ks.find? (fun k => !(ruleOf s k).last && ((ruleOf s k).next == e.crule)) with
        | some k => headPut e.clist { h with count := h.count - 1 } (rulePut k { ruleOf s k with last := r.last, next := r.next } s)
        | none => headPut e.clist { h with count := h.count - 1, head := r.next } s
      fxOk (slotRelease e.crule s1)

/-- GATECLR FREE. -/
def runFree (f : FxForm) (e : FxEnv) (s : State) : FxOut :=
  match fxCheck f (e.das && !(e.cdom == 0)) e.cdom e s with
  | some st => fxRefuse st s
  | none =>
    let r := ruleOf s e.crule
    if !(stagedHead s e.crule) || !(r.das == e.das) || !(r.dom == e.cdom) then fxRefuse .conflict s
    else fxOk ((stagedSlots s e.crule).foldl (fun s' k => slotRelease k s') s)

def execGatesetWrite (core gd ga : Fin 64) (s : State) : Host.Outcome State Fault Refusal :=
  finish (fxIssue core gd ga 8 0 0 gatesetForms (gateForm 1) runGateWrite s)
def execGatesetStage (core gd ga : Fin 64) (s : State) : Host.Outcome State Fault Refusal :=
  finish (fxIssue core gd ga 8 0 0 gatesetForms (gateForm 2) runGateStage s)
def execGatesetInsert (core gd ga : Fin 64) (s : State) : Host.Outcome State Fault Refusal :=
  finish (fxIssue core gd ga 8 0 0 gatesetForms (gateForm 3) runGateInsert s)
def execGatesetSwap (core gd ga : Fin 64) (s : State) : Host.Outcome State Fault Refusal :=
  finish (fxIssue core gd ga 8 0 0 gatesetForms (gateForm 4) runGateSwap s)
def execGatesetPin (core gd ga : Fin 64) (s : State) : Host.Outcome State Fault Refusal :=
  finish (fxIssue core gd ga 8 0 0 gatesetForms (gateForm 5) runGatePin s)
def execGateclrUnlink (core gd ga : Fin 64) (s : State) : Host.Outcome State Fault Refusal :=
  finish (fxIssue core gd ga 9 0 0 gateclrForms (gateclrForm 1) runUnlink s)
def execGateclrFree (core gd ga : Fin 64) (s : State) : Host.Outcome State Fault Refusal :=
  finish (fxIssue core gd ga 9 0 0 gateclrForms (gateclrForm 2) runFree s)

/-! ### Barriers (R78, R191, R289) -/

/-- Whoever issued a barrier goes on: core n, or the management path (64); 65: a core that has left service since. -/
def barrierEnd (who : Nat) (s : State) : State :=
  if who = 64 then respond .mgmt 0 [] s
  else if 64 < who then s
  else match (coreOf s who).busy with
    | .gsync gd => retireWith who gd 0 s
    | .msync gd => retireWith who gd 0 s
    | _ => s

/-- The oldest Gate barrier retires: GEN rises, released slots are free (R78, R294). -/
def execGsyncRetire (s : State) : Host.Outcome State Fault Refusal :=
  finish (
    match s.gate.gsyncs with
    | [] => s
    | who :: t =>
      let s1 := { s with gate := { s.gate with gsyncs := t, gen := (s.gate.gen + 1) % 2 ^ 32 } }
      barrierEnd who (s1.gate.rules.foldl (fun s' p => rulePut p.1 { p.2 with freed := false } s') s1))

/-- The oldest placement barrier retires: every TLB copy reflects the map (R191). -/
def execMsyncRetire (s : State) : Host.Outcome State Fault Refusal :=
  finish (
    match s.dlr.msyncs with
    | [] => s
    | who :: t => barrierEnd who { s with dlr := { s.dlr with msyncs := t, tlb := s.dlr.tlb.map (fun p => (p.1, mapOf s p.1)) } })

end Sys2Proof.Machine
end

