-- ==== Sys2Proof/Machine/Moves.lean ====
section
/-!
DEFINITION. Machine/Moves.lean: the placement operations (spec 10 R295-R299), moves and Caravans (spec 07 R201-R212) and heat
(R195-R198).
-/
namespace Sys2Proof.Machine

/-! ### Parcel references (R295) -/

def FxEnv.force (e : FxEnv) : Bool := bit (e.word 1) 63
def FxEnv.genv (e : FxEnv) : Bool := bit (e.word 1) 62
def FxEnv.pdom (e : FxEnv) : Nat := fld (e.word 1) 59 48
def FxEnv.pgen (e : FxEnv) : Nat := fld (e.word 1) 47 32
def FxEnv.parcel (e : FxEnv) : Nat := fld (e.word 1) 27 0

/-- GEN is 0 where GENV is 0. -/
def genUnused (e : FxEnv) : Bool := !e.genv && !(e.pgen == 0)

/-- The expected generation differs (R189). -/
def genDiffers (e : FxEnv) (m : MapEntry) : Bool := e.genv && !(m.gen == e.pgen)

/-- The map words of an entry, R186. -/
def mapWords (e : MapEntry) : Word × Word :=
  (word (at_ e.kind.code 61 + at_ e.ms.code 59 + at_ e.car 54 + at_ (b2n e.ext) 53 + at_ (b2n e.pin) 52 + at_ (b2n e.rdup) 51
    + at_ e.tag 36 + at_ e.gen 20 + e.devB), word (at_ e.devA 56 + at_ e.pA 28 + e.pB))

/-! ### PMAPSET and PMAPGET (R296, R297) -/

def fExtend : FxForm := { fn := 0x10, form := 1, words := 3, atP2 := false, slot := .none, names := true, rsv := [(1, 61, 60), (1, 31, 28), (2, 63, 17)] }
def fRelease : FxForm := { fn := 0x10, form := 2, words := 3, atP2 := false, slot := .none, names := true, rsv := [(1, 61, 60), (1, 31, 28), (2, 63, 17)] }
def fPin : FxForm := { fn := 0x10, form := 3, words := 3, atP2 := true, slot := .none, names := true, rsv := [(1, 60, 60), (1, 31, 28), (2, 63, 17)] }
def pmapsetForms : List FxForm := [fExtend, fRelease, fPin]

/-- COUNT. -/
def FxEnv.count (e : FxEnv) : Nat := fld (e.word 2) 16 0

/-- Step 1 of PMAPSET beyond reserved bits. -/
def pmapInvalid (e : FxEnv) : Bool := genUnused e || e.count == 0 || 65536 < e.count || (e.genv && !(e.count == 1))

/-- Steps 1 to 4, and FORCE at P2. -/
def pmapCheck (f : FxForm) (e : FxEnv) (s : State) : Option Status :=
  match fxCheck { f with atP2 := f.atP2 && !e.force } (pmapInvalid e) e.pdom e s with
  | some st => some st
  | none => none

/-- The range lies beyond the span. -/
def pmapRange (e : FxEnv) (s : State) : Bool := (spanOf (domOf s e.pdom) * 1024 < e.parcel + e.count : Bool)

/-- Entries are written in parcel order until one is refused: the status, how many were written, the state. `one` refuses an entry,
or writes it. -/
def pmapRun (e : FxEnv) (cond : MapEntry → Bool) (one : Nat → State → State) : Nat → Nat → Nat → State → Status × Nat × State
  | 0, _, k, s => (.ok, k, s)
  | n + 1, p, k, s =>
    let i := mapIdx s e.pdom p
    let m := mapOf s i
    if genDiffers e m || !(cond m) then (.conflict, k, s)
    else if !(decide (m.ms = .none)) && !e.force then (.busy, k, s)
    else pmapRun e cond one n (p + 1) (k + 1) (one i (forceMove i s))

/-- The result of a range form. -/
def pmapEnd (r : Status × Nat × State) : FxOut := .done r.1 [] r.2.1 r.2.2

/-- PMAPSET EXTEND. -/
def runExtend (f : FxForm) (e : FxEnv) (s : State) : FxOut :=
  match pmapCheck f e s with
  | some st => fxRefuse st s
  | none =>
    if !(decide ((domOf s e.pdom).st = .active)) then fxRefuse .denied s
    else if pmapRange e s then fxRefuse .invalid s
    else
      let k := promiseOf s e.pdom
      if poolFree s < s.dlr.promises + k * e.count then fxRefuse .noSpace s
      else pmapEnd (pmapRun e (fun m => !m.ext) (fun i s' =>
        mapSlow i (entryExtend e.pdom (mapOf s' i)) { s' with dlr := { s'.dlr with promises := s'.dlr.promises + k } }) e.count e.parcel 0 s)

/-- PMAPSET RELEASE of one entry: its backing waits for the accesses that passed placement, then is scrubbed. -/
def releaseOne (dom i : Nat) (s : State) : State :=
  let waits := flightOn s i
  let x := entryRelease false i s
  if x.1.isEmpty then x.2
  else { x.2 with dom := { x.2.dom with releases := x.2.dom.releases ++ [
    { dom := dom, blocks := [], backing := x.1, waits := waits, phase := 1, report := false }] } }

/-- PMAPSET RELEASE. -/
def runRelease (f : FxForm) (e : FxEnv) (s : State) : FxOut :=
  match pmapCheck f e s with
  | some st => fxRefuse st s
  | none =>
    if decide ((domOf s e.pdom).st = .free) then fxRefuse .denied s
    else if pmapRange e s then fxRefuse .invalid s
    else pmapEnd (pmapRun e (fun m => m.tag == e.pdom) (releaseOne e.pdom) e.count e.parcel 0 s)

/-- PMAPSET PIN. -/
def runPin (f : FxForm) (e : FxEnv) (s : State) : FxOut :=
  match pmapCheck f e s with
  | some st => fxRefuse st s
  | none =>
    let d := domOf s e.pdom
    if decide (d.st = .free) || decide (d.st = .retiring) then fxRefuse .denied s
    else if pmapRange e s then fxRefuse .invalid s
    else pmapEnd (pmapRun e (fun m => (m.tag == e.pdom) && m.ext) (fun i s' =>
      mapSlow i { genUp (mapOf s' i) with pin := bit (e.word 1) 61 } s') e.count e.parcel 0 s)

def fEntry : FxForm :=
  { fn := 0x11, form := 1, words := 4, atP2 := true, slot := .none, names := true, rsv := [(1, 63, 60), (1, 47, 28)] }
def fLegs : FxForm :=
  { fn := 0x11, form := 2, words := 3, atP2 := true, slot := .none, names := true, rsv := [(1, 63, 60), (1, 47, 8)] }
def pmapgetForms : List FxForm := [fEntry, fLegs]

/-- PMAPGET ENTRY. -/
def runEntry (f : FxForm) (e : FxEnv) (s : State) : FxOut :=
  match fxCheck f false e.pdom e s with
  | some st => fxRefuse st s
  | none =>
    let d := domOf s e.pdom
    if decide (d.st = .free) then fxRefuse .denied s
    else if spanOf d * 1024 ≤ e.parcel then fxRefuse .invalid s
    else
      let m := mapWords (mapOf s (mapIdx s e.pdom e.parcel))
      .done .ok [(2, m.1), (3, m.2)] 0 s

/-- PMAPGET LEGS. -/
def runLegs (f : FxForm) (e : FxEnv) (s : State) : FxOut :=
  match fxCheck f false e.pdom e s with
  | some st => fxRefuse st s
  | none =>
    let n := fld (e.word 1) 7 0
    if !(devOf s n).bound then fxRefuse .invalid s
    else
      let l := legsOf s n e.pdom
      .done .ok [(2, word (at_ l.1 28 + l.2))] 0 s

def execPmapsetExtend (core gd ga : Fin 64) (s : State) : Host.Outcome State Fault Refusal :=
  finish (fxIssue core gd ga 0x10 0 0 pmapsetForms fExtend runExtend s)
def execPmapsetRelease (core gd ga : Fin 64) (s : State) : Host.Outcome State Fault Refusal :=
  finish (fxIssue core gd ga 0x10 0 0 pmapsetForms fRelease runRelease s)
def execPmapsetPin (core gd ga : Fin 64) (s : State) : Host.Outcome State Fault Refusal :=
  finish (fxIssue core gd ga 0x10 0 0 pmapsetForms fPin runPin s)
def execPmapgetEntry (core gd ga : Fin 64) (s : State) : Host.Outcome State Fault Refusal :=
  finish (fxIssue core gd ga 0x11 0 0 pmapgetForms fEntry runEntry s)
def execPmapgetLegs (core gd ga : Fin 64) (s : State) : Host.Outcome State Fault Refusal :=
  finish (fxIssue core gd ga 0x11 0 0 pmapgetForms fLegs runLegs s)

/-! ### MOVE (R201, R202, R298) -/

def fStart : FxForm :=
  { fn := 0x12, form := 1, words := 3, atP2 := true, slot := .posts, names := true
    rsv := [(1, 63, 63), (1, 61, 60), (1, 31, 28), (2, 59, 11)] }
def fCancel : FxForm :=
  { fn := 0x12, form := 2, words := 2, atP2 := true, slot := .none, names := true, rsv := [(1, 63, 60), (1, 47, 28)] }
def moveForms : List FxForm := [fStart, fCancel]

/-- The target of MOVE word 2; fields the type does not use must be 0. -/
def moveTarget (w : Word) : Option Target :=
  let legb := fld w 61 61
  let rank := fld w 10 8
  let dev := fld w 7 0
  match fld w 63 62 with
  | 0 => if legb + rank + dev = 0 then some .oasis else none
  | 1 => if legb + dev = 0 then some (.tier rank) else none
  | 2 => if legb + rank = 0 then some (.dev dev) else none
  | _ => if rank = 0 then some (.leg (bit w 61) dev) else none

/-- A target that does not fit a parcel (the ST_INVALID row of R202); 255 is no device index (log entry 67, DEDUCED). -/
def moveMisfit (m : MapEntry) : Target → Bool
  | .oasis => decide (m.kind = .oasis)
  | .tier _ => false
  | .dev d => (d == 255) || (decide (m.kind = .pool) && (m.devA == d))
  | .leg b d => (d == 255) || (match m.kind with
      | .duplex => (m.devA == d) || (m.devB == d)
      | .pool => !(b && m.rdup) || (m.devA == d)
      | .poisoned => false
      | _ => true)

/-- The domain's constraints forbid a target, or its device is not ACTIVE (R202, R216). -/
def moveForbidden (s : State) (c : DCon) : Target → Bool
  | .oasis => !(c.pinTier == 15) && !(c.pinTier == 8)
  | .tier t => !(c.pinTier == 15) && !(c.pinTier == t)
  | .dev d => !(decide ((devOf s d).st = .active)) || !(devAllowed c d) || (!(c.pinTier == 15) && !(c.pinTier == (devOf s d).rank))
  | .leg _ d => !(decide ((devOf s d).st = .active)) || !(devAllowed c d) || (!(c.pinTier == 15) && !(c.pinTier == (devOf s d).rank))

/-- The devices a move's destination is taken from now (R201, R193 steps 3 and 4); none: no free parcel at the target. -/
def moveDevs (s : State) (dom : Nat) (t : Target) : Option (List Nat) :=
  let c := conOf s dom
  match t with
  | .oasis => if nearOk s dom then some [255] else none
  | .tier t => rankChoice s c t
  | .dev d =>
    if !(decide ((devOf s d).st = .active)) || rcount (devOf s d).free = 0 then none
    else if c.duplex then (mostFree (rankDevs s c (devOf s d).rank (some d))).map (fun b => [d, b])
    else some [d]
  | .leg _ d => if !(decide ((devOf s d).st = .active)) || rcount (devOf s d).free = 0 then none else some [d]

/-- MOVE START. -/
def runStart (f : FxForm) (e : FxEnv) (s : State) : FxOut :=
  let i := mapIdx s e.pdom e.parcel
  let m := mapOf s i
  let t := moveTarget (e.word 2)
  let bad := genUnused e || t.isNone || (spanOf (domOf s e.pdom) * 1024 ≤ e.parcel : Bool) || decide (m.kind = .zero)
    || !(m.tag == e.pdom) || !m.ext || moveMisfit m (t.getD .oasis)
  let tg := t.getD .oasis
  match fxCheck3 f bad e.pdom e s with
  | some st => fxRefuse st s
  | none =>
    if !(decide ((domOf s e.pdom).st = .active)) || moveForbidden s (conOf s e.pdom) tg then fxRefuse .denied s
    else if e.p2 && m.pin then fxRefuse .locked s
    else if decide (m.kind = .poisoned) then fxRefuse .poisoned s
    else if genDiffers e m then fxRefuse .conflict s
    else if fxBusy f e s || !(decide (m.ms = .none)) || s.dlr.moves.any (fun q => q.idx == i) || 256 ≤ s.dlr.moves.length
      then fxRefuse .busy s
    else if (moveDevs s e.pdom tg).isNone then fxRefuse .noSpace s
    else
      let q : MoveQ := { dom := e.pdom, idx := i, tgt := tg, high := bit (e.word 2) 60, gen := m.gen, slot := e.slot, p2 := e.p2 }
      let s1 := fxPost f e s
      fxOk { s1 with dlr := { s1.dlr with moves := s1.dlr.moves ++ [q] } }

/-- The Caravan that runs a parcel's move. -/
def carOn (s : State) (i : Nat) : Option (Nat × Caravan) :=
  s.dlr.cars.find? (fun p => !(decide (p.2.st = .none)) && (p.2.idx == i))

/-- MOVE CANCEL (R209, R298). -/
def runCancel (f : FxForm) (e : FxEnv) (s : State) : FxOut :=
  match fxCheck f false e.pdom e s with
  | some st => fxRefuse st s
  | none =>
    let i := mapIdx s e.pdom e.parcel
    match s.dlr.moves.find? (fun q => q.idx == i), carOn s i with
    | some q, _ =>
      if e.p2 && !q.p2 then fxRefuse .locked s
      else fxOk (movePost q.slot q.dom .conflict 1 (mapOf s i).gen 0
        { s with dlr := { s.dlr with moves := s.dlr.moves.filter (fun x => !(x.idx == i)) } })
    | none, some (n, c) => if e.p2 && !c.p2 then fxRefuse .locked s else fxOk (moveAbort n 1 s)
    | none, none => fxRefuse .conflict s

def execMoveStart (core gd ga : Fin 64) (s : State) : Host.Outcome State Fault Refusal :=
  finish (fxIssue core gd ga 0x12 0 0 moveForms fStart runStart s)
def execMoveCancel (core gd ga : Fin 64) (s : State) : Host.Outcome State Fault Refusal :=
  finish (fxIssue core gd ga 0x12 0 0 moveForms fCancel runCancel s)

/-! ### Result slots as words (R286, R287) -/

/-- The words of a slot as a load sees them. -/
def slotWords (x : Slot) : List Word :=
  let r := x.st == 2
  [word (at_ x.st 62 + at_ x.core 56 + at_ x.op 47 + at_ (if r then x.status.code else 4) 32 + x.seq)]
    ++ (if r then [x.echo, x.detail, word x.time] ++ (List.range 4).map (fun i => x.data.getD i 0) else List.replicate 7 0)

/-- An ACK at the slot's arbiter (R288). -/
def slotAck (n : Nat) (s : State) : Status × State :=
  let x := slotOf s n
  if x.st = 2 then (.ok, slotPut n { x with st := 0 } s) else if x.st = 1 then (.notReady, s) else (.conflict, s)

def fMovestat : FxForm := { fn := 0x13, form := 0, words := 5, atP2 := true, slot := .names, names := false, rsv := [(1, 63, 1)] }

/-- Where the move of a slot stands: word 2 of MOVESTAT. -/
def movePhase (s : State) (n : Nat) : Word :=
  match s.dlr.moves.findIdx? (fun q => q.slot == n), s.dlr.cars.find? (fun p => !(decide (p.2.st = .none)) && (p.2.slot == n)) with
  | some k, _ => word (k % 256)
  | none, some (c, x) => word (at_ x.st.code 62 + at_ c 56 + at_ x.cursor 32)
  | none, none => word (at_ 3 62)

/-- MOVESTAT (R298). -/
def runMovestat (f : FxForm) (e : FxEnv) (s : State) : FxOut :=
  match fxCheck f false 0 e s with
  | some st => fxRefuse st s
  | none =>
    let x := slotOf s e.slot
    if x.st = 0 || !(x.op == 0x12) then fxRefuse .invalid s
    else if x.st = 1 then .done .notReady [(2, movePhase s e.slot), (3, 0), (4, 0)] 0 s
    else
      let w := slotWords x
      .done .ok [(2, movePhase s e.slot), (3, w.getD 0 0), (4, w.getD 2 0)] 0 (if bit (e.word 1) 0 then (slotAck e.slot s).2 else s)

def execMovestat (core gd ga : Fin 64) (s : State) : Host.Outcome State Fault Refusal :=
  finish (fxIssue core gd ga 0x13 0 0 [fMovestat] fMovestat runMovestat s)

/-! ### HEAT (R299) -/

def fHeatRead : FxForm := { fn := 0x14, form := 1, words := 3, atP2 := true, slot := .none, names := true, rsv := [(1, 63, 60), (1, 47, 28)] }
def fHeatSet : FxForm := { fn := 0x14, form := 2, words := 3, atP2 := false, slot := .none, names := true, rsv := [(1, 63, 60), (1, 47, 28), (2, 63, 16)] }
def heatForms : List FxForm := [fHeatRead, fHeatSet]

/-- HEAT READ; a parcel beyond the span is refused (log entry 34, DEDUCED). -/
def runHeatRead (f : FxForm) (e : FxEnv) (s : State) : FxOut :=
  match fxCheck f (spanOf (domOf s e.pdom) * 1024 ≤ e.parcel : Bool) e.pdom e s with
  | some st => fxRefuse st s
  | none =>
    let i := mapIdx s e.pdom e.parcel
    match sfind? s.dlr.hcache i with
    | some h => .done .ok [(2, word (at_ h.rd 50 + at_ h.wr 34 + at_ h.count 2 + h.wmix))] 0 s
    | none =>
      let h := sget (0, 0) s.dlr.heat i
      .done .ok [(2, word (at_ h.1 2 + h.2))] 0 s

/-- HEAT SET. -/
def runHeatSet (f : FxForm) (e : FxEnv) (s : State) : FxOut :=
  match fxCheck f (spanOf (domOf s e.pdom) * 1024 ≤ e.parcel : Bool) e.pdom e s with
  | some st => fxRefuse st s
  | none =>
    let i := mapIdx s e.pdom e.parcel
    let c := fld (e.word 2) 15 2
    let w := fld (e.word 2) 1 0
    match sfind? s.dlr.hcache i with
    | some h => fxOk { s with dlr := { s.dlr with hcache := sput s.dlr.hcache i { h with count := c, wmix := w, rd := 0, wr := 0 } } }
    | none => fxOk { s with dlr := { s.dlr with heat := sset (0, 0) s.dlr.heat i (c, w) } }

def execHeatRead (core gd ga : Fin 64) (s : State) : Host.Outcome State Fault Refusal :=
  finish (fxIssue core gd ga 0x14 0 0 heatForms fHeatRead runHeatRead s)
def execHeatSet (core gd ga : Fin 64) (s : State) : Host.Outcome State Fault Refusal :=
  finish (fxIssue core gd ga 0x14 0 0 heatForms fHeatSet runHeatSet s)

/-! ### Caravans (R203-R212) -/

/-- Side of a device: 0 beside T00-T11, 1 beside T12-T23. -/
def devSide (s : State) (d : Nat) : Nat := if (devOf s d).port / 4 < 12 then 0 else 1

/-- Busy Caravans of a side. -/
def sideLoad (s : State) (side : Nat) : Nat := (s.dlr.cars.filter (fun p => !(decide (p.2.st = .none)) && (p.1 / 16 == side))).length

/-- The lowest idle Caravan of a side. -/
def idleOn (s : State) (side : Nat) : Option Nat :=
  ((List.range 16).map (fun i => 16 * side + i)).find? (fun n => decide ((carOf s n).st = .none))

/-- Work placement (R203). -/
def pickCaravan (s : State) (m : MapEntry) : Option Nat :=
  let least := if sideLoad s 1 < sideLoad s 0 then 1 else 0
  let first := match m.kind with | .pool => devSide s m.devA | .duplex => devSide s m.devA | _ => least
  (idleOn s first).orElse (fun _ => idleOn s (1 - first))

/-- Copy bytes that may be used in a 1 ms window: device-wide, and for a domain (R212; fixed windows, log entry 35, DEDUCED). -/
def migLimit (s : State) : Nat := regFld s aDlrCfg 47 40 * 12300000 + 0x100000
def domLimit (s : State) (d : Nat) : Option Nat :=
  if (conOf s d).migCap = 0 then none else some ((conOf s d).migCap * 100000 + 0x100000)

/-- A chunk of a domain is within the allowance. -/
def mayCopy (s : State) (d : Nat) : Bool :=
  (s.dlr.copied + 1024 ≤ migLimit s : Bool) && (match domLimit s d with | some l => (sget 0 s.dlr.copiedD d + 1024 ≤ l : Bool) | none => true)

/-- Why a queued move may not start (R203): its CAUSE. -/
def startCause (s : State) (q : MoveQ) : Option Nat :=
  let m := mapOf s q.idx
  let ls := locsOf m
  if decide (m.kind = .poisoned) || (!ls.isEmpty && ls.all (fun l => !(l.1 == 255) && devLost s l.1)) then some 3
  else if m.gen ≠ q.gen then some 1
  else if !(decide ((domOf s q.dom).st = .active)) then some 5
  else if (moveDevs s q.dom q.tgt).isNone then some 7
  else none

/-- An idle Caravan takes the next queued move: high priority first, then arrival order (R203). -/
def execCaravanMoveStart (s : State) : Host.Outcome State Fault Refusal :=
  finish (
    match (s.dlr.moves.find? (fun q => q.high)).orElse (fun _ => s.dlr.moves.head?) with
    | none => s
    | some q =>
      let m := mapOf s q.idx
      match pickCaravan s m with
      | none => s
      | some n =>
        let s1 := { s with dlr := { s.dlr with moves := s.dlr.moves.filter (fun x => !(x.idx == q.idx)) } }
        match startCause s1 q with
        | some c => movePost q.slot q.dom (causeStatus c) c m.gen 0 s1
        | none => match (moveDevs s1 q.dom q.tgt).bind (fun ds => takeAll ds s1) with
          | none => movePost q.slot q.dom .noSpace 7 m.gen 0 s1
          | some (ls, s2) =>
            carPut n { carOf s2 n with
              st := .copying, cursor := 0, flight := mayCopy s2 q.dom, dom := q.dom, idx := q.idx, slot := q.slot, tgt := some q.tgt
              dest := ls, drain := [], start := s2.time, high := q.high, p2 := q.p2, synced := [] }
              (mapNow q.idx { m with ms := .copying, car := n } s2))

/-- A line of the source as the Caravan reads it: of the near tier from the Oasis, of a pool device as the device returned it. -/
def srcLine (s : State) (c : Caravan) (off : Nat) (given : Line × Bool) : Line × Bool :=
  match readLoc s (mapOf s c.idx) with
  | some l => if l.1 = 255 then (let r := oasRead (oasNow s (nearOa l.2 off)) c.dom; (r.1, r.2.1)) else given
  | none => (0, true)

/-- One line is written to a destination, with its poison (R206). -/
def destLine (c : Caravan) (off : Nat) (d : Line × Bool) (l : Loc) (s : State) : State :=
  if l.1 = 255 then
    { s with oas := { s.oas with lines := sset {} s.oas.lines (nearOa l.2 off / 64) { data := d.1, tag := c.dom, pois := d.2, scr := false } } }
  else emit (.tx (devOf s l.1).port (.devWr s.next (l.2 * 0x40000 + off) d.1 (BitVec.allOnes 64) d.2)) (takeNext s)

/-- The 16 lines of the chunk in flight are copied. -/
def copyChunk (c : Caravan) (lines : List Line) (poison : Nat) (s : State) : State :=
  (List.range 16).foldl (fun s' i =>
    let off := (c.cursor + i) * 64
    let d := srcLine s' c off (lines.getD i 0, poison / 2 ^ i % 2 == 1)
    c.dest.foldl (fun s'' l => destLine c off d l s'') s') s

/-- DIRTY lines of a Caravan's parcel that the destination does not hold yet (R153). -/
def unsynced (s : State) (c : Caravan) : List (Nat × LcLine) :=
  s.coh.lc.filter (fun p => p.2.dirty && (keyDom p.1 == c.dom) && (idxOf s c.dom (keyDa p.1) == c.idx)
    && !(c.synced.contains (p.1, p.2.data, p.2.poison)))

/-- Their writes to the destination start (R207 step 2). -/
def syncLines (n : Nat) (s : State) : State :=
  (unsynced s (carOf s n)).foldl (fun s' p =>
    let c := carOf s' n
    writeBack p.1 1 p.2 (carPut n { c with synced := c.synced.filter (fun x => !(x.1 == p.1)) ++ [(p.1, p.2.data, p.2.poison)] } s')) s

/-- CURSOR has reached 4,096: SWITCHING (R207 steps 1 and 2). -/
def toSwitching (n : Nat) (s : State) : State :=
  let c := carOf s n
  syncLines n (carPut n { c with st := .switching, flight := false, drain := flightOn s c.idx, start := s.time }
    (mapNow c.idx { mapOf s c.idx with ms := .switching } s))

/-- A Caravan's chunk completes (R204). `lines` and `poison` are what a pool device returned for the 16 lines; `err`: 0 none, 2 the
destination refused a write, 6 an uncorrectable error in the transfer cells (R206, R208). -/
def execChunkComplete (car : Nat) (lines : List Line) (poison err : Nat) (s : State) : Host.Outcome State Fault Refusal :=
  finish (
    let c := carOf s car
    if !(decide (c.st = .copying)) || !c.flight then s
    else if err = 2 || err = 6 then moveAbort car err s
    else
      let s1 := meterBytes c.dom 1024 (copyChunk c lines poison s)
      let s2 := wake (fun p => decide (p = .chunkHold c.idx)) (carPut car { c with cursor := c.cursor + 16, flight := false } s1)
      if 4096 ≤ c.cursor + 16 then toSwitching car s2
      else carPut car { carOf s2 car with flight := mayCopy s2 c.dom, start := s2.time } s2)

/-- The entry after a flip (R201). -/
def flipEntry (c : Caravan) (m : MapEntry) : MapEntry :=
  let b : MapEntry := { genUp m with ms := .none, car := 0, rdup := false }
  match c.tgt, c.dest with
  | some (.leg leg _), [l] =>
    if leg then { b with kind := .duplex, devB := l.1, pB := l.2 } else { b with kind := .duplex, devA := l.1, pA := l.2 }
  | _, ls => withLoc b ls

/-- The parcels a flip frees. -/
def flipFrees (old new : MapEntry) : List Loc := (locsOf old).filter (fun l => !((locsOf new).contains l))

/-- A move of an evacuation has moved its parcel off. -/
def evMoved (old : MapEntry) (slot : Nat) (s : State) : State :=
  (locsOf old).foldl (fun s' l =>
    let d := devOf s' l.1
    if !(l.1 == 255) && decide (d.st = .evacuating) then
      let k := if slot = 4096 then min 1 d.evProm else 0
      promiseEnd k (devPut l.1 { d with moved := d.moved + 1, evProm := d.evProm - k } s')
    else s') s

/-- The flip commits once the accesses that passed placement before SWITCHING have completed and the destination holds every DIRTY
line (R207 steps 3 to 6, R153); a line dirtied again is written again. Before that the command changes nothing else. -/
def execMoveFlip (car : Nat) (s : State) : Host.Outcome State Fault Refusal :=
  finish (
    let c := carOf s car
    if !(decide (c.st = .switching)) then s
    else if !(unsynced s c).isEmpty then syncLines car s
    else if c.drain.any (fun i => match reqOf s i with | some r => inFlight r | none => false)
        || s.reqs.any (fun r => decide (r.who = .wback 1) && (idxOf s r.dom r.da == c.idx)) then s
    else
      let m := mapOf s c.idx
      let m' := flipEntry c m
      let s1 := mapNow c.idx m' s
      let s2 := { s1 with coh := { s1.coh with lc := s1.coh.lc.map (fun p =>
        if p.2.dirty && c.synced.any (fun x => x.1 == p.1) then (p.1, { p.2 with dirty := false }) else p) } }
      let s3 := evMoved m c.slot (scrubAll (flipFrees m m') (carPut car { done := satAdd (2 ^ 32 - 1) c.done 1, aborted := c.aborted } s2))
      movePost c.slot c.dom .ok 0 m'.gen (if decide (m'.kind = .oasis) then 0xFF else m'.devA) (wakeMove c.idx s3))

/-- SWITCH_MAX passes in SWITCHING, or for a chunk in flight (R208). -/
def execSwitchMaxExpire (car : Nat) (s : State) : Host.Outcome State Fault Refusal :=
  finish (
    let c := carOf s car
    if decide (c.st = .switching) || (decide (c.st = .copying) && c.flight) then
      moveAbort car 4 (advanceTo (c.start + regFld s aDlrCfg 29 20 * 1000) s)
    else s)

/-- Paused Caravans resume: high-priority moves first (R212). -/
def resumeCars (high : Bool) (s : State) : State :=
  s.dlr.cars.foldl (fun s' p =>
    let c := carOf s' p.1
    if decide (c.st = .copying) && !c.flight && (c.high == high) && mayCopy s' c.dom then
      carPut p.1 { c with flight := true, start := s'.time } s' else s') s

/-- The copy-byte allowance renews (R212). -/
def execMigrationAllowance (s : State) : Host.Outcome State Fault Refusal :=
  finish (resumeCars false (resumeCars true { s with dlr := { s.dlr with copied := 0, copiedD := [] } }))

/-! ### Epochs and the heat sweep (R197, R198) -/

/-- An epoch ends: EPOCH ms have passed and the last sweep has finished (R197); with EN = 0 no sweep runs. -/
def execEpochEnd (s : State) : Host.Outcome State Fault Refusal :=
  finish (
    if regFld s aDlrHeatCfg 63 63 = 0 || s.dlr.sweep ≠ 0 then s
    else
      let s1 := advanceTo (s.dlr.epochAt + regFld s aDlrHeatCfg 57 44 * 1000000) s
      { s1 with dlr := { s1.dlr with
        epochs := (s1.dlr.epochs + 1) % 2 ^ 32, lastMs := min 16383 ((s1.time - s1.dlr.epochAt) / 1000000), epochAt := s1.time
        sweep := 1, reports := 0 } })

/-- The location breaks the domain's constraints (R198 code 3, R216). -/
def breaksCon (s : State) (m : MapEntry) : Bool :=
  let c := conOf s m.tag
  let badDev := fun d => !(devAllowed c d) || (!(c.pinTier == 15) && !(c.pinTier == (devOf s d).rank))
  match m.kind with
  | .pool => c.duplex || badDev m.devA
  | .duplex => badDev m.devA || badDev m.devB
  | .oasis => (c.pinTier < 8 : Bool)
  | _ => false

/-- The reason a parcel is reported for, R198; the lowest code where several hold (log entry 36, DEDUCED). -/
def reportReason (s : State) (m : MapEntry) (count : Nat) : Option Nat :=
  if !(decide (m.ms = .none)) then none
  else
    let pool := decide (m.kind = .pool) || decide (m.kind = .duplex)
    if pool && !m.pin && regFld s aDlrHeatThr 29 16 ≤ count then some 1
    else if decide (m.kind = .oasis) && !m.pin && count ≤ regFld s aDlrHeatThr 13 0 then some 2
    else if m.rdup || breaksCon s m then some 3
    else none

/-- A heat report (R198). -/
def reportRec (s : State) (i dom parcel reason : Nat) (m : MapEntry) (count wmix : Nat) : Line :=
  recLine [(0, s.time), (8, i), (0xC, parcel), (0x10, dom), (0x12, reason), (0x13, m.kind.code + at_ (b2n m.pin) 3 + at_ (b2n m.rdup) 4),
    (0x14, count), (0x16, wmix), (0x17, if decide (m.kind = .oasis) then 8 else (devOf s m.devA).rank), (0x18, m.devA), (0x19, m.devB),
    (0x1A, m.gen), (0x1C, s.dlr.epochs)]

/-- WMIX of an epoch's samples. -/
def wmixOf (rd wr old : Nat) : Nat :=
  if rd + wr = 0 then old
  else if wr * 4 < rd + wr then 0 else if wr * 2 < rd + wr then 1 else if wr * 4 < (rd + wr) * 3 then 2 else 3

/-- The sweep visits one map index of a valid segment: WMIX, the report, half of COUNT. -/
def sweepOne (i : Nat) (s : State) : State :=
  match domOfIdx s i with
  | none => s
  | some d =>
    let m := mapOf s i
    let h := sfind? s.dlr.hcache i
    let t := sget (0, 0) s.dlr.heat i
    let count := match h with | some x => x.count | none => t.1
    let wmix := match h with | some x => wmixOf x.rd x.wr x.wmix | none => t.2
    let s1 :=
      if regFld s aDlrHeatCfg 62 62 = 0 || i < s.dlr.resume || regFld s aDlrHeatCfg 33 17 ≤ s.dlr.reports then s
      else match reportReason s m count with
        | none => s
        | some r =>
          let k := s.dlr.reports + 1
          let s' := { s with dlr := { s.dlr with
            reports := k, resume := if k = regFld s aDlrHeatCfg 33 17 then i + 1 else s.dlr.resume } }
          match enginePush (regFld s aDlrHeatCfg 43 34) (reportRec s i d (i - (domOf s d).mapBase * 1024) r m count wmix) s' with
          | some s'' => s''
          | none => countN 0x5026 none none 1 { s with dlr := { s.dlr with repDrop := satAdd (2 ^ 48 - 1) s.dlr.repDrop 1 } }
    match h with
    | some x => { s1 with dlr := { s1.dlr with hcache := sput s1.dlr.hcache i { x with count := count / 2, wmix := wmix, rd := 0, wr := 0 } } }
    | none => { s1 with dlr := { s1.dlr with heat := sset (0, 0) s1.dlr.heat i (count / 2, wmix) } }

/-- The sweep visits the next n map indices (R197); indices with neither an entry, nor heat, nor samples change nothing and report
nothing. -/
def execHeatSweep (n : Nat) (s : State) : Host.Outcome State Fault Refusal :=
  finish (
    if s.dlr.sweep = 0 then s
    else
      let lo := s.dlr.sweep - 1
      let hi := min (lo + n) (2 ^ 28)
      let within := fun (k : Nat) => (lo ≤ k : Bool) && (k < hi : Bool)
      let ks := sortNat (((s.dlr.map.map (fun p => p.1)) ++ s.dlr.heat.map (fun p => p.1) ++ s.dlr.hcache.map (fun p => p.1)).filter within)
      let s1 := ks.foldl (fun s' i => sweepOne i s') s
      if hi = 2 ^ 28 then { s1 with dlr := { s1.dlr with
        sweep := 0, resume := if regFld s1 aDlrHeatCfg 33 17 ≤ s1.dlr.reports then s1.dlr.resume else 0 } }
      else { s1 with dlr := { s1.dlr with sweep := hi + 1 } })

end Sys2Proof.Machine
end

