-- ==== Sys2Proof/Machine/TrafficFx.lean ====
section
/-!
DEFINITION. Machine/TrafficFx.lean: the line operations SFQUERY, LINEFLUSH and MELD, the traffic operations MIRROR, QOSSET and
PORTCTL, the monitoring operations and RESULTPUT (spec 10 R288, R300-R306, R308; spec 18 R499-R506).
-/
namespace Sys2Proof.Machine

/-! ### Line references (R170, R300) -/

/-- What a line reference names. -/
inductive LineRef where
  | da (dom da : Nat)
  | shm (a : Nat)
  | bad
  deriving DecidableEq, Repr

/-- TSPACE. -/
def FxEnv.tspace (e : FxEnv) : Bool := bit (e.word 1) 63

/-- The aperture names the domain of A[45:34] and the DA APBASE ∥ A[33:0]. -/
def apertureDa (apbase a : Nat) : Nat × Nat :=
  ((a - 0x800000000000) / 2 ^ 34 % 4096, apbase * 2 ^ 34 + a % 2 ^ 34)

/-- The target of a line reference. -/
def lineRef (s : State) (e : FxEnv) : LineRef :=
  let w := e.word 1
  if e.tspace then .da (fld w 57 46) (fld w 45 0)
  else match rangeOf (fld w 47 0) with
    | some .shm => .shm (fld w 47 0)
    | some .aper => let x := apertureDa (coreOf s e.core).apbase (fld w 47 0); .da x.1 x.2
    | _ => .bad

/-- Reserved bits of w1. -/
def lineRsv (e : FxEnv) : Bool := if e.tspace then !(fld (e.word 1) 62 58 == 0) else !(fld (e.word 1) 62 48 == 0)

/-- A form with a line reference: the aperture is closed at P2, a domain named directly must be in scope there. -/
def lineForm (f : FxForm) (s : State) (e : FxEnv) : FxForm :=
  { f with
    names := e.tspace
    atP2 := e.tspace || (match lineRef s e with | .da _ _ => false | _ => true) }

/-- The domain of a line reference. -/
def refDom : LineRef → Nat
  | .da d _ => d
  | _ => 0

/-- Level of an issuer. -/
def FxEnv.lv (e : FxEnv) : Priv := if e.p2 then .p2 else .p1

/-- SOURCE of an issuer in a violation record (R82). -/
def FxEnv.source (e : FxEnv) : Nat := match e.who with | .core n _ _ => 0x100 + n | .mgmt _ => 0x200

/-- The Gate's decision on an access of a line operation with some permissions: the first that is refused. -/
def refDeny (s : State) (e : FxEnv) (r : LineRef) (ps : List Perm) : Option Verdict :=
  ps.findSome? (fun p =>
    match (match r with
      | .da d a => daVerdict s d (a / 64 * 64) e.lv p true
      | .shm a => dasVerdict s (a / 64 * 64) e.lv p
      | .bad => .allow) with
    | .allow => none
    | v => some v)

/-- A refused line operation: counted, raised and recorded; ST_LOCKED in a locked region (R75, R81, R82). -/
def refRefuse (e : FxEnv) (r : LineRef) (v : Verdict) (kind len : Nat) (s : State) : FxOut :=
  let x := match r with | .da d a => (a, d) | .shm a => (a, 0xFFFF) | .bad => (0, 0xFFFF)
  fxRefuse (if decide (v = .locked) then .locked else .denied)
    (gateRefuse (x.1 / 64 * 64) x.2 e.lv false (v.kind kind) v.slot e.source len s)

/-- A DA lies in a SHARED_COHERENT window of its domain. -/
def scohWindow (s : State) (dom da : Nat) : Bool :=
  s.dom.wins.any (fun p => p.2.valid && decide (p.2.mode = .scoh) && (p.2.dom == dom) && (p.2.da * unit256 ≤ da : Bool)
    && (da < (p.2.da + p.2.size) * unit256 : Bool))

/-- COH_SF_ENTRY of a line (R128). -/
def sfWord (s : State) (k : Nat) : Word :=
  match sfOf s k with
  | none => 0
  | some e =>
    let agents := if e.grp then at_ e.groups 33
      else at_ (e.agents.getD 0 0) 47 + at_ (e.agents.getD 1 0) 40 + at_ (e.agents.getD 2 0) 33
    word (at_ 1 63 + at_ (dirState s k e).code 60 + at_ (b2n (match ownerOf s k with | some a => holdActive s k a | none => false)) 59
      + at_ (b2n (lcOf s k).isSome) 58 + at_ (b2n e.grp) 57 + at_ (if e.grp then 0 else e.agents.length) 55 + agents + k / 2 ^ 19)

/-! ### SFQUERY (R301), LINEFLUSH (R154, R302), MELD (R170-R175, R303) -/

def fSfquery : FxForm := { fn := 0x18, form := 0, words := 4, atP2 := true, slot := .none, names := false, rsv := [] }
def fLineflush : FxForm := { fn := 0x19, form := 0, words := 3, atP2 := true, slot := .posts, names := false, rsv := [(2, 63, 1)] }
def fMeld : FxForm :=
  { fn := 0x1A, form := 0, words := 9, atP2 := true, slot := .none, names := false, rsv := [(2, 59, 58), (2, 55, 0)] }

/-- Step 1 of SFQUERY and LINEFLUSH. -/
def lineBad (s : State) (e : FxEnv) : Bool := lineRsv e || decide (lineRef s e = .bad) || !(fld (e.word 1) 5 0 == 0)

/-- SFQUERY. -/
def runSfquery (f : FxForm) (e : FxEnv) (s : State) : FxOut :=
  let r := lineRef s e
  match fxCheck (lineForm f s e) (lineBad s e) (refDom r) e s with
  | some st => fxRefuse st s
  | none => match r with
    | .da d a =>
      let k := keyOf d a
      if !(scohWindow s d a) then .done .ok [(2, 0), (3, 0)] 0 s
      else
        let l := lcOf s k
        .done .ok [(2, sfWord s k), (3, word (at_ (b2n !(keyElse s k)) 63
          + at_ (b2n (match l with | some x => x.dirty | none => false)) 62
          + at_ (b2n (match l with | some x => x.poison | none => false)) 61 + at_ (sliceOf k) 50 + at_ (keyS k / 64) 37))] 0 s
    | _ => .done .ok [(2, 0), (3, 0)] 0 s

/-- LINEFLUSH is accepted: its slot is PENDING; outside SHARED_COHERENT windows the outcome is posted at once. -/
def runLineflush (f : FxForm) (e : FxEnv) (s : State) : FxOut :=
  let r := lineRef s e
  match fxCheck (lineForm f s e) (lineBad s e) (refDom r) e s with
  | some st => fxRefuse st s
  | none => match refDeny s e r [.w] with
    | some v => refRefuse e r v 2 64 s
    | none =>
      let s1 := fxPost f e s
      match r with
      | .da d a =>
        if scohWindow s d a then
          let q := mkReq s1.next (.flush e.slot) (if bit (e.word 2) 0 then .flushInv else .flushKeep) d a .scoh
          fxOk (enterHome q (reqAdd q (takeNext s1)))
        else fxOk (slotPost e.slot .ok 0 s1)
      | _ => fxOk (slotPost e.slot .ok 0 s1)

/-- Operation, width, and operands of a MELD; none where they are reserved or illegal (R303). -/
def meldArgs (e : FxEnv) : Option (MeldOp × MeldW × Nat × Nat) :=
  let w := e.word 2
  let a := (e.word 3).toNat + (e.word 4).toNat * 2 ^ 64
  let b := (e.word 5).toNat + (e.word 6).toNat * 2 ^ 64
  match MeldOp.ofCode (fld w 63 60), MeldW.ofCode (fld w 57 56) with
  | some op, some wd =>
    if meldLegal op wd && (a < 2 ^ (8 * wd.bytes) : Bool) && (b < 2 ^ (8 * wd.bytes) : Bool) && (decide (op = .cas) || b == 0)
    then some (op, wd, a, b) else none
  | _, _ => none

/-- The byte address of a line reference. -/
def refAddr : LineRef → Nat
  | .da _ a => a
  | .shm a => a
  | .bad => 1

/-- A MELD on Falgan shared memory: one access (R170). -/
def meldShm (op : MeldOp) (w : MeldW) (a b addr : Nat) (s : State) : FxOut :=
  let old := memNat s addr w.bytes
  let outs := [(7, word old), (8, word (old / 2 ^ 64))]
  if (List.range w.bytes).any (fun i => badWord s (addr + i)) then .done .poisoned outs 0 (eccHit addr s)
  else
    let s1 := countN 0x4001 none none 1 s
    .done .ok outs 0 (if meldWrites op w old a then memPut addr w.bytes (meldNew op w old a b) s1 else s1)

/-- A MELD on a line of a domain: refused where the domain is not ACTIVE (R175), else an atomic in flight. -/
def meldDa (op : MeldOp) (w : MeldW) (a b d da : Nat) (e : FxEnv) (s : State) : FxOut :=
  if !(decide ((domOf s d).st = .active)) then fxRefuse .denied (raiseD fBindStateRefuse d (countD 0x1003 d s))
  else
    let who := match e.who with | .core n _ _ => Who.coreMeld n | .mgmt q => Who.mgmt q
    let md := (regionOf (domOf s d) (da / unit256)).getD .priv
    .meld s.next (reqAdd (mkReq s.next who (.atomic op w (da % 64) a b) d (da / 64 * 64) md) (takeNext s))

/-- MELD. -/
def runMeld (f : FxForm) (e : FxEnv) (s : State) : FxOut :=
  let r := lineRef s e
  let args := meldArgs e
  let n := match args with | some x => x.2.1.bytes | none => 1
  match fxCheck (lineForm f s e) (lineRsv e || decide (r = .bad) || args.isNone || !(refAddr r % n == 0)) (refDom r) e s, args with
  | some st, _ => fxRefuse st s
  | none, none => fxRefuse .invalid s
  | none, some (op, w, a, b) =>
    match refDeny s e r (match r with | .da _ _ => if e.p2 then [.w] else [.r, .w] | _ => [.r, .w]), r with
    | some v, _ => refRefuse e r v 4 n s
    | none, .da d da => meldDa op w a b d da e s
    | none, .shm x => meldShm op w a b x s
    | none, .bad => fxRefuse .invalid s

def execSfquery (core gd ga : Fin 64) (s : State) : Host.Outcome State Fault Refusal :=
  finish (fxIssue core gd ga 0x18 0 0 [fSfquery] fSfquery runSfquery s)
def execLineflush (core gd ga : Fin 64) (s : State) : Host.Outcome State Fault Refusal :=
  finish (fxIssue core gd ga 0x19 0 0 [fLineflush] fLineflush runLineflush s)
def execMeld (core gd ga : Fin 64) (s : State) : Host.Outcome State Fault Refusal :=
  finish (fxIssue core gd ga 0x1A 0 0 [fMeld] fMeld runMeld s)

/-- The home of a line homed elsewhere completes a forwarded LINEFLUSH: 0 done, 1 poisoned, 2 a snoop timed out (R154). -/
def execLineflushDone (slot outcome : Nat) (s : State) : Host.Outcome State Fault Refusal :=
  finish (
    match s.reqs.find? (fun r => decide (r.who = .flush slot) && decide (r.phase = .remoteWait)) with
    | none => s
    | some r => finishReq r (if outcome = 0 then .done else if outcome = 1 then .status .poisoned else .status .timeout) s)

/-! ### MIRROR (R113, R304) -/

def fMirrorSet : FxForm :=
  { fn := 0x20, form := 1, words := 5, atP2 := false, slot := .none, names := false
    rsv := [(1, 63, 6), (2, 59, 55), (2, 47, 41), (2, 33, 28), (2, 7, 3), (3, 63, 46), (3, 5, 0), (4, 63, 46), (4, 5, 0)] }
def fMirrorClear : FxForm := { fn := 0x20, form := 2, words := 2, atP2 := false, slot := .none, names := false, rsv := [(1, 63, 6)] }
def mirrorForms : List FxForm := [fMirrorSet, fMirrorClear]

/-- A reserved encoding in the image of ERG_MIRROR. -/
def mirrorBad (e : FxEnv) : Bool :=
  let w := e.word 2
  !(bit w 63) || (fld w 61 60 == 0) || (6 ≤ fld w 2 0 : Bool)

/-- DEST is an analysis port, and the source of a port session is a configured port that is none. -/
def mirrorPorts (e : FxEnv) (s : State) : Bool :=
  let w := e.word 2
  (portRole s (fld w 40 34) == 4) && (bit w 62 || (subPortExists s (fld w 54 48) && !(portRole s (fld w 54 48) == 4)))

/-- MIRROR SET. -/
def runMirrorSet (f : FxForm) (e : FxEnv) (s : State) : FxOut :=
  match fxCheck f (mirrorBad e) 0 e s with
  | some st => fxRefuse st s
  | none =>
    let n := fld (e.word 1) 5 0
    let w := e.word 2
    let m := sget {} s.erg.mirrors n
    if !(mirrorPorts e s) then fxRefuse .invalid s
    else if m.en then fxRefuse .busy s
    else fxOk (mirrorPut n {
      en := true, flow := bit w 62, dir := fld w 61 60, src := fld w 54 48, dest := fld w 40 34, dom := fld w 27 16, msgs := fld w 15 8
      snap := fld w 2 0, daStart := fld (e.word 3) 45 6, daLimit := fld (e.word 4) 45 6, seq := 0, drop := m.drop } s)

/-- MIRROR CLEAR. -/
def runMirrorClear (f : FxForm) (e : FxEnv) (s : State) : FxOut :=
  match fxCheck f false 0 e s with
  | some st => fxRefuse st s
  | none =>
    let n := fld (e.word 1) 5 0
    fxOk (mirrorPut n { sget {} s.erg.mirrors n with en := false } s)

def execMirrorSet (core gd ga : Fin 64) (s : State) : Host.Outcome State Fault Refusal :=
  finish (fxIssue core gd ga 0x20 0 0 mirrorForms fMirrorSet runMirrorSet s)
def execMirrorClear (core gd ga : Fin 64) (s : State) : Host.Outcome State Fault Refusal :=
  finish (fxIssue core gd ga 0x20 0 0 mirrorForms fMirrorClear runMirrorClear s)

/-! ### QOSSET (R98, R107, R305) -/

/-- Reserved bits of w1. -/
def qosRsv : List (Nat × Nat × Nat) := [(1, 63, 60), (1, 39, 39), (1, 31, 27), (1, 23, 0)]

def fQosProfile : FxForm := { fn := 0x21, form := 1, words := 3, atP2 := false, slot := .none, names := false, rsv := qosRsv ++ [(2, 63, 18)] }
def fQosDomain : FxForm := { fn := 0x21, form := 2, words := 3, atP2 := false, slot := .none, names := true, rsv := qosRsv ++ [(2, 63, 8)] }
def fQosPortq : FxForm := { fn := 0x21, form := 3, words := 4, atP2 := false, slot := .none, names := false, rsv := qosRsv ++ [(3, 63, 2)] }
def fQosAlpha : FxForm := { fn := 0x21, form := 4, words := 3, atP2 := false, slot := .none, names := false, rsv := qosRsv ++ [(2, 63, 4)] }
def fQosReserve : FxForm := { fn := 0x21, form := 5, words := 3, atP2 := false, slot := .none, names := false, rsv := qosRsv ++ [(2, 63, 13)] }
def qosForms : List FxForm := [fQosProfile, fQosDomain, fQosPortq, fQosAlpha, fQosReserve]

/-- A quantum in its range. -/
def quantumOk (q : Nat) : Bool := (1 ≤ q : Bool) && (q ≤ 4096 : Bool)

/-- QOSSET PROFILE. -/
def runQosProfile (f : FxForm) (e : FxEnv) (s : State) : FxOut :=
  let v := e.word 2
  match fxCheck f (!(quantumOk (fld v 15 0))) 0 e s with
  | some st => fxRefuse st s
  | none => fxOk { s with erg := { s.erg with
      prof := sset {} s.erg.prof (fld (e.word 1) 47 40) { cls := fld v 17 16, quantum := fld v 15 0 } } }

/-- QOSSET DOMAIN. -/
def runQosDomain (f : FxForm) (e : FxEnv) (s : State) : FxOut :=
  let d := fld (e.word 1) 59 48
  match fxCheck f false d e s with
  | some st => fxRefuse st s
  | none => fxOk (domPut d { domOf s d with qos := fld (e.word 2) 7 0 } s)

/-- PORT of a QOSSET. -/
def FxEnv.qport (e : FxEnv) : Nat := fld (e.word 1) 38 32

/-- QOSSET PORTQ. -/
def runQosPortq (f : FxForm) (e : FxEnv) (s : State) : FxOut :=
  let v := e.word 2
  match fxCheck f (!(quantumOk (fld v 63 48)) || !(quantumOk (fld v 47 32)) || !(quantumOk (fld v 31 16)) || !(quantumOk (fld v 15 0))) 0 e s with
  | some st => fxRefuse st s
  | none =>
    if !(subPortExists s e.qport) then fxRefuse .invalid s
    else fxOk { s with erg := { s.erg with pqos := sset {} s.erg.pqos e.qport {
        q6 := fld v 63 48, q5 := fld v 47 32, q4 := fld v 31 16, q3 := fld v 15 0, rxclass := fld (e.word 3) 1 0 } } }

/-- QOSSET ALPHA. -/
def runQosAlpha (f : FxForm) (e : FxEnv) (s : State) : FxOut :=
  match fxCheck f (9 < fld (e.word 2) 3 0) 0 e s with
  | some st => fxRefuse st s
  | none => fxOk { s with erg := { s.erg with alpha := sput s.erg.alpha (fld (e.word 1) 26 24) (fld (e.word 2) 3 0) } }

/-- QOSSET RESERVE: the shared pool keeps at least 65,536 cells (R98). -/
def runQosReserve (f : FxForm) (e : FxEnv) (s : State) : FxOut :=
  let c := fld (e.word 1) 26 24
  let n := fld (e.word 2) 12 0
  match fxCheck f (c == 7 || n < 32 || 4096 < n) 0 e s with
  | some st => fxRefuse st s
  | none =>
    let k := acctKey e.qport c
    let a := acctOf s k
    if !(subPortExists s e.qport) || isTrlPort s e.qport then fxRefuse .invalid s
    else if a.res < n && s.erg.shared + a.res < 65536 + n then fxRefuse .noSpace s
    else fxOk { acctPut k { a with res := n } s with erg := { (acctPut k { a with res := n } s).erg with shared := s.erg.shared + a.res - n } }

def execQossetProfile (core gd ga : Fin 64) (s : State) : Host.Outcome State Fault Refusal :=
  finish (fxIssue core gd ga 0x21 0 0 qosForms fQosProfile runQosProfile s)
def execQossetDomain (core gd ga : Fin 64) (s : State) : Host.Outcome State Fault Refusal :=
  finish (fxIssue core gd ga 0x21 0 0 qosForms fQosDomain runQosDomain s)
def execQossetPortq (core gd ga : Fin 64) (s : State) : Host.Outcome State Fault Refusal :=
  finish (fxIssue core gd ga 0x21 0 0 qosForms fQosPortq runQosPortq s)
def execQossetAlpha (core gd ga : Fin 64) (s : State) : Host.Outcome State Fault Refusal :=
  finish (fxIssue core gd ga 0x21 0 0 qosForms fQosAlpha runQosAlpha s)
def execQossetReserve (core gd ga : Fin 64) (s : State) : Host.Outcome State Fault Refusal :=
  finish (fxIssue core gd ga 0x21 0 0 qosForms fQosReserve runQosReserve s)

/-! ### PORTCTL (R306) -/

def portForm (k words : Nat) (u : SlotUse) (rsv : List (Nat × Nat × Nat)) : FxForm :=
  { fn := 0x22, form := k, words := words, atP2 := false, slot := u, names := false, rsv := (1, 63, 7) :: rsv }
def fPortDisable : FxForm := portForm 1 2 .none []
def fPortEnable : FxForm := portForm 2 2 .none []
def fPortRetrain : FxForm := portForm 3 2 .posts []
def fPortPace : FxForm := portForm 4 3 .none [(2, 63, 15)]
def portForms : List FxForm := [fPortDisable, fPortEnable, fPortRetrain, fPortPace]

/-- PORT of a PORTCTL. -/
def FxEnv.cport (e : FxEnv) : Nat := fld (e.word 1) 6 0

/-- A port is disabled. -/
def portOff (s : State) (p : Nat) : Bool := if isTrlPort s p then (trlOf s (p / 4)).off else (cxpOf s p).off

/-- A port is disabled: its link goes down. -/
def portDisable (p : Nat) (s : State) : State :=
  if isTrlPort s p then
    let s1 := trlDown (p / 4) 0 s
    trlPut (p / 4) { trlOf s1 (p / 4) with off := true } s1
  else
    let s1 := perstLow p (portDown p 0 s)
    cxpPut p { cxpOf s1 p with off := true } s1

/-- A TRL port that is enabled detects once its tile has a clock and the device is ready (R53, R420). -/
def trlMayDetect (s : State) (t : Nat) : Bool :=
  trainLive s && (tileOf s t).clkok && isTrlTile s t && !(trlOf s t).off && ((trlOf s t).st == 0)

/-- A TRL port leaves OFF for DETECT. -/
def trlStart (t : Nat) (s : State) : State :=
  if trlMayDetect s t then trlPut t { trlOf s t with st := 1 } s else s

/-- A port is enabled: its link may train. -/
def portEnable (p : Nat) (s : State) : State :=
  if isTrlPort s p then trlStart (p / 4) (trlPut (p / 4) { trlOf s (p / 4) with off := false } s)
  else
    let x := cxpOf s p
    cxpPut p { x with off := false, link := if x.link = 4 then 0 else x.link } s

/-- PORTCTL DISABLE. -/
def runPortDisable (f : FxForm) (e : FxEnv) (s : State) : FxOut :=
  match fxCheck f false 0 e s with
  | some st => fxRefuse st s
  | none =>
    if !(subPortExists s e.cport) then fxRefuse .invalid s
    else if portOff s e.cport then fxOk s else fxOk (portDisable e.cport s)

/-- PORTCTL ENABLE. -/
def runPortEnable (f : FxForm) (e : FxEnv) (s : State) : FxOut :=
  match fxCheck f false 0 e s with
  | some st => fxRefuse st s
  | none =>
    if !(subPortExists s e.cport) then fxRefuse .invalid s
    else if !(portOff s e.cport) && !((cxpOf s e.cport).link == 4 && !(isTrlPort s e.cport)) then fxOk s else fxOk (portEnable e.cport s)

/-- A RETRAIN of the port waits already. -/
def retrainWaits (s : State) (p : Nat) : Bool :=
  if isTrlPort s p then (trlOf s (p / 4)).slot.isSome else (cxpOf s p).slot.isSome

/-- A port retrains for a slot: a CXL link pauses, a TRL link goes down and trains again; a link that is down trains. -/
def portRetrain (p n : Nat) (s : State) : State :=
  if isTrlPort s p then
    let s1 := trlLinkDown (p / 4) s
    trlPut (p / 4) { trlOf s1 (p / 4) with slot := some n } s1
  else
    let s1 := pauseStart p s
    cxpPut p { cxpOf s1 p with slot := some n } s1

/-- PORTCTL RETRAIN; a second one while one waits is refused as busy (log entry 39, DEDUCED). -/
def runPortRetrain (f : FxForm) (e : FxEnv) (s : State) : FxOut :=
  match fxCheck f false 0 e s with
  | some st => fxRefuse st s
  | none =>
    if !(subPortExists s e.cport) then fxRefuse .invalid s
    else if portOff s e.cport || (!(isTrlPort s e.cport) && (cxpOf s e.cport).link == 4) then fxRefuse .conflict s
    else if retrainWaits s e.cport then fxRefuse .busy s
    else fxOk (portRetrain e.cport e.slot (fxPost f e s))

/-- The greatest STOP of a tile (R102, R306). -/
def stopLimit (s : State) (t : Nat) : Nat :=
  if (trlOf s t).up then 16384 - (2 * trlDelay (trlOf s t) + 6000) else 384

/-- PORTCTL PACE. -/
def runPortPace (f : FxForm) (e : FxEnv) (s : State) : FxOut :=
  match fxCheck f false 0 e s with
  | some st => fxRefuse st s
  | none =>
    let t := e.cport / 4
    let v := fld (e.word 2) 14 0
    if !(subPortExists s e.cport) || !(isTrlPort s e.cport) || stopLimit s t < v then fxRefuse .invalid s
    else fxOk { s with erg := { s.erg with pace := sset (15, 384) s.erg.pace t ((sget (15, 384) s.erg.pace t).1, v) } }

def execPortctlDisable (core gd ga : Fin 64) (s : State) : Host.Outcome State Fault Refusal :=
  finish (fxIssue core gd ga 0x22 0 0 portForms fPortDisable runPortDisable s)
def execPortctlEnable (core gd ga : Fin 64) (s : State) : Host.Outcome State Fault Refusal :=
  finish (fxIssue core gd ga 0x22 0 0 portForms fPortEnable runPortEnable s)
def execPortctlRetrain (core gd ga : Fin 64) (s : State) : Host.Outcome State Fault Refusal :=
  finish (fxIssue core gd ga 0x22 0 0 portForms fPortRetrain runPortRetrain s)
def execPortctlPace (core gd ga : Fin 64) (s : State) : Host.Outcome State Fault Refusal :=
  finish (fxIssue core gd ga 0x22 0 0 portForms fPortPace runPortPace s)

/-! ### Counters and sampling (R308, R499-R506) -/

def fCntcfg : FxForm :=
  { fn := 0x30, form := 0, words := 4, atP2 := false, slot := .none, names := false
    rsv := [(1, 63, 12), (2, 60, 48), (2, 31, 28), (2, 6, 0), (3, 63, 48)] }
def fCntread : FxForm :=
  { fn := 0x31, form := 0, words := 10, atP2 := true, slot := .none, names := false, rsv := [(1, 63, 20), (1, 15, 12)] }
def fSamplecfg : FxForm := { fn := 0x32, form := 0, words := 3, atP2 := false, slot := .none, names := false, rsv := [(1, 25, 0)] }

/-- The event catalogue (R505): first code, last code, domain filter, port filter. -/
def eventRows : List (Nat × Nat × Bool × Bool) := [
  (0x0001, 0x0002, false, true), (0x0003, 0x0003, true, true), (0x0004, 0x0006, false, true), (0x0007, 0x0007, false, false),
  (0x0010, 0x0017, true, true), (0x1001, 0x1001, false, true), (0x1002, 0x1006, true, false), (0x1010, 0x1012, true, true),
  (0x2001, 0x2003, true, false), (0x3001, 0x3002, true, false), (0x3003, 0x3004, true, true), (0x3005, 0x3007, true, false),
  (0x3008, 0x3008, false, false), (0x3009, 0x300A, true, false), (0x4001, 0x4006, true, false), (0x5001, 0x5007, true, false),
  (0x5010, 0x5017, true, false), (0x5020, 0x5025, true, false), (0x5026, 0x5026, false, false), (0x6001, 0x6004, false, false),
  (0x7001, 0x7005, false, true), (0x8001, 0x8003, false, false), (0x8004, 0x8004, false, true), (0x9001, 0x9003, false, true),
  (0xA001, 0xA004, false, true), (0xB001, 0xB004, false, true), (0xC001, 0xC002, false, false)]

/-- The filters of an event; none: the catalogue does not list it. -/
def eventFilters (code : Nat) : Option (Bool × Bool) :=
  (eventRows.find? (fun r => (r.1 ≤ code : Bool) && (code ≤ r.2.1 : Bool))).map (fun r => r.2.2)

/-- An image of counter settings is refused (R308, R504). -/
def cntBad (counter : Nat) (v : Word) : Bool :=
  let ev := fld v 47 32
  if bit v 62 then (counter == 0) || !(ev == 0) || bit v 15 || bit v 7
  else match eventFilters ev with
    | none => true
    | some (d, p) => (bit v 15 && !d) || (bit v 7 && !p) || ((if ev / 4096 = 7 then 63 else 95) < fld v 14 8 : Bool)

/-- CNTCFG: settings and preload in one step. -/
def runCntcfg (f : FxForm) (e : FxEnv) (s : State) : FxOut :=
  let n := fld (e.word 1) 11 0
  match fxCheck f (3072 ≤ n || cntBad n (e.word 2)) 0 e s with
  | some st => fxRefuse st s
  | none => fxOk { s with pmu := { s.pmu with cnts := sset {} s.pmu.cnts n { cfg := e.word 2, value := fld (e.word 3) 47 0 } } }

/-- A counter. -/
def cntOf (s : State) (n : Nat) : Cnt := sget {} s.pmu.cnts n

/-- A counter is readable at P2 (R503). -/
def cntVisible (s : State) (core n : Nat) : Bool :=
  let own := fun k => bit (cntOf s k).cfg 15 && inScope s core (fld (cntOf s k).cfg 27 16)
  own n || (bit (cntOf s n).cfg 62 && (0 < n : Bool) && own (n - 1))

/-- CNTREAD: up to eight counters at one instant. -/
def runCntread (f : FxForm) (e : FxEnv) (s : State) : FxOut :=
  let n := fld (e.word 1) 19 16
  let k := fld (e.word 1) 11 0
  match fxCheck f (n == 0 || 8 < n || 3072 < k + n) 0 e s with
  | some st => fxRefuse st s
  | none =>
    if e.p2 && !((List.range n).all (fun i => cntVisible s e.core (k + i))) then fxRefuse .denied s
    else .done .ok ((List.range 8).map (fun i => (2 + i, word (if i < n then (cntOf s (k + i)).value else 0)))) 0 s

/-- SAMPLECFG; SEQ restarts where the source is enabled (R506). -/
def runSamplecfg (f : FxForm) (e : FxEnv) (s : State) : FxOut :=
  let w := e.word 1
  match fxCheck f (20 < fld w 61 57) 0 e s with
  | some st => fxRefuse st s
  | none =>
    let n := b2n (bit w 62)
    let x := smpSrc s n
    fxOk (smpSrcPut n { x with
      en := bit w 63, rate := fld w 61 57, ring := fld w 56 47, dom := fld w 46 35, domv := bit w 34, port := fld w 33 27
      portv := bit w 26, cores := (e.word 2).toNat, seq := if bit w 63 then 0 else x.seq } s)

def execCntcfg (core gd ga : Fin 64) (s : State) : Host.Outcome State Fault Refusal :=
  finish (fxIssue core gd ga 0x30 0 0 [fCntcfg] fCntcfg runCntcfg s)
def execCntread (core gd ga : Fin 64) (s : State) : Host.Outcome State Fault Refusal :=
  finish (fxIssue core gd ga 0x31 0 0 [fCntread] fCntread runCntread s)
def execSamplecfg (core gd ga : Fin 64) (s : State) : Host.Outcome State Fault Refusal :=
  finish (fxIssue core gd ga 0x32 0 0 [fSamplecfg] fSamplecfg runSamplecfg s)

/-! ### RESULTPUT (R288) -/

def fResultAck : FxForm := { fn := 0x38, form := 1, words := 1, atP2 := true, slot := .names, names := false, rsv := [] }
def fResultPost : FxForm := { fn := 0x38, form := 2, words := 6, atP2 := true, slot := .names, names := false, rsv := [] }
def resultForms : List FxForm := [fResultAck, fResultPost]

/-- RESULTPUT ACK. -/
def runResultAck (f : FxForm) (e : FxEnv) (s : State) : FxOut :=
  match fxCheck f false 0 e s with
  | some st => fxRefuse st s
  | none => let x := slotAck e.slot s; .done x.1 [] 0 x.2

/-- RESULTPUT POST. -/
def runResultPost (f : FxForm) (e : FxEnv) (s : State) : FxOut :=
  match fxCheck f false 0 e s, Status.ofCode (fld (e.word 1) 7 0) with
  | some st, _ => fxRefuse st s
  | none, none => fxRefuse .invalid s
  | none, some st =>
    let x := slotOf s e.slot
    if !(x.st == 0) then fxRefuse .busy s
    else fxOk (slotPut e.slot { x with
      st := 2, core := e.core, op := 0x38, status := st, echo := e.word 1, detail := 0, time := s.time
      data := [e.word 2, e.word 3, e.word 4, e.word 5] } s)

def execResultputAck (core gd ga : Fin 64) (s : State) : Host.Outcome State Fault Refusal :=
  finish (fxIssue core gd ga 0x38 0 0 resultForms fResultAck runResultAck s)
def execResultputPost (core gd ga : Fin 64) (s : State) : Host.Outcome State Fault Refusal :=
  finish (fxIssue core gd ga 0x38 0 0 resultForms fResultPost runResultPost s)

end Sys2Proof.Machine
end

