-- ==== Sys2Proof/Machine/Settings.lean ====
section
/-!
DEFINITION. Machine/Settings.lean: the stored settings (spec 20 R536-R542): their checks (R91, R346, R439), how a boot loads them
(R92, R347, R559), NVSTORE and NVSTAT (R307), COMMIT (R538, R539) with the sealed settings of R460 and R461, and Emmor's
measurement log (R469).
-/
namespace Sys2Proof.Machine

/-! ### Images -/

/-- The 8 bytes at an offset of an image, as a word. -/
def imgWord (m : Memory) (o : Nat) : Word := word (leNat (memRead m o 8))

/-- The number held by n bytes at an offset. -/
def imgNat (m : Memory) (o n : Nat) : Nat := leNat (memRead m o n)

/-- First byte of the trailer (R537). -/
def trailerAt : Nat := 0xFFF80

/-- The contents of an image below its trailer. -/
def below (m : Memory) : Memory := m.filter (fun c => (c.1 < trailerAt : Bool))

/-- Bytes that two images hold differently. -/
def imgDiff (a b : Memory) : List Nat := sortNat (((a.filter (fun c => !(memByte b c.1 == c.2))) ++ (b.filter (fun c => !(memByte a c.1 == c.2)))).map (fun c => c.1))

/-! ### Checks -/

/-- LANE_TILE_CFG of a tile in an image. -/
def imgTile (m : Memory) (t : Nat) : Word := imgWord m (0x1800 + 8 * t)

/-- Every field of a record holds a defined encoding (R346, check 1). -/
def tileDefined (w : Word) : Bool :=
  (fld w 61 60 < 3 : Bool) && (fld w 59 57 < 6 : Bool) && (fld w 56 55 < 3 : Bool) && (fld w 54 52 < 5 : Bool) && (fld w 51 49 < 5 : Bool)
    && (fld w 48 46 < 5 : Bool) && (fld w 45 43 < 5 : Bool) && (fld w 39 36 < 11 : Bool) && (fld w 35 32 < 11 : Bool)

/-- A record of a TRL tile. -/
def recTrl (w : Word) : Bool := bit w 63 && bit w 62

/-- ROLE of a sub-port in a record. -/
def recRole (w : Word) (k : Nat) : Nat := fld w (45 + 3 * k) (43 + 3 * k)

/-- A sub-port that the record's mode creates (R343). -/
def recHas (w : Word) (k : Nat) : Bool := if fld w 61 60 = 0 then k == 0 else if fld w 61 60 = 1 then k % 2 == 0 else true

/-- R346 on 24 records. -/
def tilesOk (ws : List Word) : Bool :=
  let en := ws.filter (fun w => bit w 63)
  ws.all tileDefined
    && (ws.filter recTrl).all (fun w => (fld w 61 60 == 0) && (recRole w 0 == 3) && (recRole w 1 == 0) && (recRole w 2 == 0)
        && (recRole w 3 == 0) && (fld w 56 55 == 1))
    && ((ws.filter recTrl).length ≤ 8 : Bool)
    && en.all (fun w => (List.range 4).all (fun k => recHas w k || (recRole w k == 0)))
    && (((en.map (fun w => ((List.range 4).filter (fun k => recRole w k == 1)).length)).sum : Nat) ≤ 64 : Bool)

/-- The 24 records of an image. -/
def imgTiles (m : Memory) : List Word := (List.range 24).map (imgTile m)

/-- Tiles whose record is a TRL tile's. -/
def trlTilesOf (ws : List Word) : List Nat := (List.range 24).filter (fun t => recTrl (ws.getD t 0))

/-- Ports that enabled CXL tiles have. -/
def cxlPortsOf (ws : List Word) : List Nat :=
  (List.range 96).filter (fun p => let w := ws.getD (p / 4) 0; bit w 63 && !(bit w 62) && recHas w (p % 4))

/-- LC_MIB, REPLAY_MIB and RING_MIB of an ERG_PART image. -/
def partOf (w : Word) : Nat × Nat × Nat := (fld w 39 32, fld w 31 24, fld w 23 16)

/-- Packet pool in MiB, R91 check 3; none where it would be negative. -/
def poolMib (lc rp rg trl : Nat) : Option Nat := if 16 + rg + rp + lc + 4 * trl ≤ 192 then some (192 - 16 - rg - rp - lc - 4 * trl) else none

/-- A receive reserve of an image. -/
def imgReserve (m : Memory) (p c : Nat) : Nat := imgNat m (0x100 + 2 * (7 * p + c)) 2

/-- Fixed reserves of the internal accounts, R98: CARAVAN and CONTROL. -/
def internalCells : Nat := 4096 + 2048

/-- R91 on an image, with the tile records in force. -/
def partOk (m : Memory) (ws : List Word) : Bool :=
  let p := partOf (imgWord m 0)
  let ts := trlTilesOf ws
  let codes := ts.map (fun t => imgNat m (8 + t) 1)
  let ports := cxlPortsOf ws
  let res := ports.flatMap (fun q => (List.range 7).map (fun c => imgReserve m q c))
  (1 ≤ p.2.2 : Bool) && (p.2.2 ≤ 8 : Bool) && (4 ≤ p.2.1 : Bool) && (p.2.1 ≤ 16 : Bool) && (p.1 ≤ 96 : Bool) && (ts.length ≤ 8 : Bool)
    && codes.all (fun c => (1 ≤ c : Bool) && (c ≤ 4 : Bool)) && ((codes.sum : Nat) ≤ 2 * p.2.1 : Bool)
    && (match poolMib p.1 p.2.1 p.2.2 ts.length with
        | none => false
        | some n => (64 ≤ n : Bool) && res.all (fun r => (32 ≤ r : Bool) && (r ≤ 4096 : Bool))
            && (65536 + internalCells + (res.sum : Nat) ≤ n * 4096 : Bool))

/-- An image passes R346 and R91. -/
def imageOk (m : Memory) : Bool := tilesOk (imgTiles m) && partOk m (imgTiles m)

/-- FM_PATHS and FM_PORT of an image. -/
def imgPaths (m : Memory) : Nat := imgNat m 0x2D02 1
def imgFmPort (m : Memory) : Nat := imgNat m 0x2D03 1

/-- A port has the host role under tile records (R439). -/
def hostRole (ws : List Word) (p : Nat) : Bool :=
  let w := ws.getD (p / 4) 0
  (p < 96 : Bool) && bit w 63 && recHas w (p % 4) && (recRole w (p % 4) == 1)

/-- R439 on an image: some path is named, and a fabric-manager port is a host port. -/
def pathsOk (m : Memory) : Bool :=
  !(imgPaths m == 0) && (imgPaths m < 4 : Bool) && (!(imgPaths m / 2 == 1) || hostRole (imgTiles m) (imgFmPort m))

/-! ### Loading at boot (R92, R347, R542, R559) -/

/-- A settings copy: 0 A, 1 B. -/
def setCopy (s : State) (b : Bool) : SetCopy := if b then s.pwr.copyB else s.pwr.copyA

/-- The active copy's image; an empty one when no copy is valid. -/
def activeImg (s : State) : Memory := if (setCopy s s.pwr.activeB).ok then (setCopy s s.pwr.activeB).bytes else []

/-- The active copy: the valid copy with the higher GEN (R537); A when none is valid. -/
def activeIsB (a b : SetCopy) : Bool := b.ok && (!a.ok || (a.gen < b.gen : Bool))

/-- The boot copy (R559). -/
def bootCopyOf (a b : SetCopy) : Option Nat :=
  let act := activeIsB a b
  let x := if act then b else a
  let y := if act then a else b
  if !x.ok then none
  else if imageOk x.bytes then some (b2n act)
  else if y.ok && imageOk y.bytes then some (b2n !act)
  else some (b2n act)

/-- The value that an image gives a register at boot: its configuration fields, where they lie in their ranges. -/
def loadVal (d : RegD) (a : Nat) (v : Word) : Word :=
  if isSpcCfg a then spcImage d (a / 8 % 2) d.reset v
  else d.fields.foldl (fun o f => storeField false o v f) d.reset

/-- Loads a register from an image. -/
def loadReg (m : Memory) (o a : Nat) (s : State) : State :=
  match regDesc a with
  | some d => regPut s a (loadVal d a (imgWord m o))
  | none => s

/-- Loads registers that stand in a row. -/
def loadRegs (m : Memory) (o a n : Nat) (s : State) : State :=
  (List.range n).foldl (fun s' i => loadReg m (o + 8 * i) (a + 8 * i) s') s

/-- DLR_HEAT_THR of an image (R220). -/
def loadThr (m : Memory) (o : Nat) (s : State) : State := regPut s aDlrHeatThr (storeHeatThr (regPut s aDlrHeatThr (regReset aDlrHeatThr)) (imgWord m o))

/-- ERG_PACE_CFG is no stored setting; the register images of the settings map, in its order. -/
def loadImages (m : Memory) (s : State) : State :=
  let s1 := loadRegs m 0x18C0 aLaneChk 1 s
  let s2 := loadRegs m 0x1A00 (aCxpPortCfg 0) 96 (loadRegs m 0x1900 aCxpCfg 2 s1)
  let s3 := loadReg m 0x1D10 aMeldPredCfg (loadReg m 0x1D08 aMeldCfg (loadReg m 0x1D00 aCohCfg s2))
  let s4 := loadReg m 0x1D38 aOasCfg (loadThr m 0x1D30 (loadReg m 0x1D28 aDlrHeatCfg (loadReg m 0x1D20 aDlrCfg s3)))
  let s5 := loadRegs m 0x1E80 0x24E00100 16 (loadReg m 0x1E00 aTrlCfg s4)
  let s6 := regPut (loadReg m 0x1F00 aFltCfg s5) aFltCfg (setFld (regGet (loadReg m 0x1F00 aFltCfg s5) aFltCfg) 63 63 0)
  let s7 := (List.range 32).foldl (fun s' n => loadRegs m (0x2800 + 16 * n) (aSpcCfg n 0) 2 s') s6
  loadRegs m 0x8000 0x24E10000 4096 (loadReg m 0x2A08 aDbgCfg (loadReg m 0x2A00 aAlarmCfg s7))

/-- A write of SEV that R483 takes. -/
def sevOk (n v : Nat) : Bool :=
  match fltInfo n with
  | none => false
  | some (sc, _, fl) => (fl ≤ v : Bool) && (v ≤ 4 : Bool) && !(v == 2 && decide (sc = .none)) && !(n == fEmrSigfail) && !(n == fEmrAlarm)

/-- SEV of every source, from an image (R483). -/
def loadSev (m : Memory) (s : State) : State :=
  (List.range 2048).foldl (fun s' n =>
    let v := imgNat m (0x2000 + n) 1
    if sevOk n v then fltPut n { fltOf s' n with sev := some v } s' else s') s

/-- Scheduling settings: α codes, class quanta, service-share profiles. -/
def loadSched (m : Memory) (s : State) : State :=
  let qos := fun (p : Nat) =>
    let v := imgWord m (0x800 + 16 * p)
    let q := fun (hi lo d : Nat) => if quantumOk (fld v hi lo) then fld v hi lo else d
    ({ q6 := q 63 48 64, q5 := q 47 32 64, q4 := q 31 16 64, q3 := q 15 0 64, rxclass := fld (imgWord m (0x808 + 16 * p)) 1 0 } : PortQos)
  let pr := fun (i : Nat) =>
    let v := imgWord m (0x1000 + 8 * i)
    ({ cls := fld v 17 16, quantum := if quantumOk (fld v 15 0) then fld v 15 0 else 16 } : Profile)
  { s with erg := { s.erg with
      alpha := (List.range 8).foldl (fun a c =>
        let v := fld (imgWord m (0x20 + 8 * c)) 3 0
        if v ≤ 9 then sput a c v else a) s.erg.alpha
      pqos := (List.range 96).foldl (fun a p => sset {} a p (qos p)) s.erg.pqos
      prof := (List.range 256).foldl (fun a i => sset {} a i (pr i)) s.erg.prof } }

/-- Default reserve of a CXL receive account, R98. -/
def defReserve (c : Nat) : Nat := if c = 0 then 32 else if c ≤ 2 then 64 else 96

/-- The Erg's partitions and accounts for a boot (R91, R92, R98): with tile records, and an image whose settings pass, or the
defaults. `src` is ERG_PART.SOURCE. -/
def ergLoad (ws : List Word) (m : Option Memory) (src : Nat) (s : State) : State :=
  let ts := trlTilesOf ws
  let p := match m with | some i => partOf (imgWord i 0) | none => (64, 8, 4)
  let pool := (poolMib p.1 p.2.1 p.2.2 ts.length).getD 0
  let ports := cxlPortsOf ws
  let res := fun (q c : Nat) => match m with | some i => imgReserve i q c | none => defReserve c
  let accts := ports.foldl (fun a q => (List.range 7).foldl (fun a' c => sset {} a' (acctKey q c) { res := res q c }) a) []
  let accts := ts.foldl (fun a t => sset {} a (1000 + 4 * t) { res := 16384 }) accts
  let accts := sset {} (sset {} accts acctCaravan { res := 4096 }) acctControl { res := 2048 }
  let sum : Nat := (ports.flatMap (fun q => (List.range 7).map (fun c => res q c))).sum
  { s with
    erg := { s.erg with
      part := { poolMib := pool, trlTiles := ts.length, lcMib := p.1, replayMib := p.2.1, ringMib := p.2.2, source := src }
      shared := pool * 4096 - (internalCells + sum), accts := accts }
    trl := { s.trl with code := ts.foldl (fun a t => sset 2 a t (match m with | some i => imgNat i (8 + t) 1 | none => 2)) [] } }

/-- Locked regions of a sealed or decommissioned device (R73). -/
def locksLoad (m : Memory) (s : State) : State :=
  match s.emr.life with
  | .sealed | .decommissioned =>
    { s with gate := { s.gate with locks := (List.range 8).foldl (fun a n =>
        let v := imgWord m (0x2A40 + 16 * n)
        sset {} a n { en := bit v 63, base := fld v 47 6 * 64, limit := fld (imgWord m (0x2A48 + 16 * n)) 47 6 * 64 + 63 }) [] } }
  | _ => { s with gate := { s.gate with locks := [] } }

/-- The retired near-tier parcels of an image (R240, R542). -/
def imgRetired (m : Memory) : List Nat := ((List.range 4096).map (fun i => imgNat m (0x10000 + 4 * i) 4)).filter (fun p => !(p == 0xFFFFFFFF))

/-- I3C_SADDR of an image, or the default where it is not valid (R558). -/
def imgSaddr (m : Memory) : Nat :=
  let a := imgNat m 0x2D00 1
  if a < 8 || 0x77 < a || a = 0x3E || a = 0x5E || a = 0x6E || a = 0x76 then 0x62 else a

/-- Management settings of a boot (R438, R439, R558), with the tile records in force. An image without a valid copy gives the I3C
path alone. Where no path would be open the I3C path is. -/
def mgmtLoad (m : Option Memory) (ws : List Word) (s : State) : State :=
  let fp := match m with | some i => imgPaths i % 4 | none => 1
  let port := match m with | some i => imgFmPort i | none => 0
  let usable := hostRole ws port
  let closed := fp / 2 == 1 && !usable
  let s1 := { s with mgt := { s.mgt with
    fmPaths := if closed || fp == 0 then (if fp % 2 = 0 then fp + 1 else fp) else fp
    fmPortN := port, inBand := fp / 2 == 1 && usable
    saddr := match m with | some i => imgSaddr i | none => 0x62
    inst := match m with | some i => imgNat i 0x2D01 1 % 16 | none => 0 } }
  if closed || fp == 0 then raiseN fMgmtFmPath s1 else s1

/-- Step 4 of a boot: the stored settings of the boot copy go into force; groups that fail their checks take their defaults. -/
def settingsLoad (s : State) : State :=
  let bc := bootCopyOf s.pwr.copyA s.pwr.copyB
  let img : Option Memory := match bc with | some n => some (setCopy s (n == 1)).bytes | none => none
  let tOk := match img with | some m => tilesOk (imgTiles m) | none => false
  let ws := match img with | some m => if tOk then imgTiles m else [] | none => []
  let pOk : Bool := match img with | some m => partOk m ws | none => false
  let src := if !pOk then 2 else if bc == some (b2n (activeIsB s.pwr.copyA s.pwr.copyB)) then 0 else 1
  let s1 := { s with
    pwr := { s.pwr with activeB := activeIsB s.pwr.copyA s.pwr.copyB, bootCopy := bc, bootImg := img.getD [] }
    lane := { s.lane with
      tile := (List.range 24).foldl (fun a t => sset 0 a t (ws.getD t 0)) [], tilesrc := !tOk
      tsrc := match img with | some m => bit (imgWord m 0x18C8) 0 | none => false } }
  let s2 := ergLoad ws (if pOk = true then img else none) src s1
  let s3 := match img with
    | some m =>
      let s' := loadSched m (loadSev m (loadImages m (locksLoad m s2)))
      { s' with
        trl := { s'.trl with selfId := fld (imgWord m 0x1E00) 3 0, fabric := imgWord m 0x1E08 }
        oas := { s'.oas with retired := (s'.oas.retired ++ imgRetired m).eraseDups } }
    | none => s2
  let s4 := mgmtLoad img ws s3
  let s5 := if tOk then s4 else raiseN fLaneCfgCheck s4
  let s6 := if pOk then s5 else raiseN fErgPartCheck s5
  { s6 with pwr := { s6.pwr with staging := activeImg s6 } }

/-! ### The measurement log (R469) -/

/-- Appends an entry to Emmor's log; none when it is full. -/
def emrLog (typ core keyslot arg svn : Nat) (msg : List Byte) (s : State) : Option State :=
  if 1024 ≤ s.emr.log.length then none
  else some { s with emr := { s.emr with log := s.emr.log ++ [{
      typ := typ, core := core, keyslot := keyslot, arg := arg, time := s.time, svn := svn, msg := msg }] } }

/-! ### NVSTORE and NVSTAT (R307) -/

def fStage : FxForm :=
  { fn := 0x28, form := 1, words := 3, atP2 := false, slot := .none, names := false, rsv := [(1, 63, 48), (2, 63, 52), (2, 31, 17)] }
def fCommit : FxForm := { fn := 0x28, form := 2, words := 1, atP2 := false, slot := .posts, names := false, rsv := [] }
def fDiscard : FxForm := { fn := 0x28, form := 3, words := 1, atP2 := false, slot := .none, names := false, rsv := [] }
def nvstoreForms : List FxForm := [fStage, fCommit, fDiscard]
def fNvstat : FxForm := { fn := 0x29, form := 0, words := 3, atP2 := false, slot := .none, names := false, rsv := [] }

/-- Step 1 of STAGE: alignment, lengths, and where SRC lies. -/
def stageBad (e : FxEnv) : Bool :=
  let src := fld (e.word 1) 47 0
  let off := fld (e.word 2) 51 32
  let n := fld (e.word 2) 16 0
  !(src % 8 == 0) || !(off % 8 == 0) || !(n % 8 == 0) || n < 8 || 65536 < n || 0x100000 < off + n
    || !(inLocalData src n || ((0x10000000 ≤ src : Bool) && (src + n ≤ 0x11000000 : Bool)))

/-- NVSTORE STAGE. -/
def runStage (f : FxForm) (e : FxEnv) (s : State) : FxOut :=
  match fxCheck f (stageBad e) 0 e s with
  | some st => fxRefuse st s
  | none =>
    let src := fld (e.word 1) 47 0
    let n := fld (e.word 2) 16 0
    if s.pwr.commit.isSome then fxRefuse .busy s
    else match if inLocalData src n then none else dasCheck s src n e.lv .r with
      | some (l, v) => fxRefuse (if decide (v = .locked) then .locked else .denied) (gateRefuse l 0xFFFF e.lv false (v.kind 1) v.slot e.source n s)
      | none => fxOk { s with pwr := { s.pwr with
          staging := memWrite s.pwr.staging (fld (e.word 2) 51 32) (memRead s.flg.mem ((memAddr e.core src).getD 0) n) } }

/-- The staging image differs from the active copy. -/
def staged (s : State) : Bool := !((imgDiff (below s.pwr.staging) (below (activeImg s))).isEmpty)

/-- Live bytes of the settings map (R542): first offset, length. -/
def liveRanges : List (Nat × Nat) := [
  (0x20, 64), (0x100, 1344), (0x800, 1536), (0x1000, 2048), (0x18C0, 8), (0x1900, 8), (0x1A00, 768), (0x1D00, 24), (0x1D20, 32),
  (0x1F00, 8), (0x2000, 2048), (0x2800, 512)]

/-- A byte of the settings map is live. -/
def isLive (o : Nat) : Bool := liveRanges.any (fun r => (r.1 ≤ o : Bool) && (o < r.1 + r.2 : Bool))

/-- Sealed settings of R460: first offset, length. EMR_ALARM_CFG without GRAVE is compared by field. -/
def sealedRanges : List (Nat × Nat) := [(0x2A08, 8), (0x2A40, 128), (0x2B00, 512), (0x2D02, 2)]

/-- R460 and R461 refuse a staging image. -/
def sealedHit (s : State) : Bool :=
  let a := activeImg s
  let b := s.pwr.staging
  let v := imgWord a 0x2A00
  let w := imgWord b 0x2A00
  let hit := (imgDiff (below a) (below b)).any (fun o => sealedRanges.any (fun r => (r.1 ≤ o : Bool) && (o < r.1 + r.2 : Bool)))
    || !(fld v 55 48 == fld w 55 48) || !(fld v 2 0 == fld w 2 0)
  (decide (s.emr.lifeBoot = .sealed) && hit) || (bit v 63 && !(bit w 63))

/-- Blocks of the alternate copy to write before the trailer block. -/
def commitBlocks (s : State) : List Nat :=
  let alt := (setCopy s !s.pwr.activeB).bytes
  (((imgDiff (below s.pwr.staging) (below alt)).map (fun o => o / 4096)).eraseDups).filter (fun b => !(b == 255))

/-- Index of a block of a copy among the NVM's blocks. -/
def blockIdx (b : Bool) (k : Nat) : Nat := (if b then 256 else 0) + k

/-- Erase cycles of a block. -/
def wearOf (s : State) (k : Nat) : Nat := sget 0 s.pwr.wear k

/-- The most-written block of a copy. -/
def wearMax (s : State) (b : Bool) : Nat := ((List.range 256).map (fun k => wearOf s (blockIdx b k))).foldl max 0

/-- The outcome of a COMMIT is posted. -/
def commitPost (n : Nat) (st : Status) (s : State) : State :=
  slotPost n st (word (at_ (b2n s.pwr.activeB) 63 + wearMax s s.pwr.activeB % 2 ^ 32)) s

/-- A COMMIT accepted: the checks of R538, then the first block (R538, R539). -/
def commitStart (n : Nat) (s : State) : State :=
  let m := s.pwr.staging
  let bs := commitBlocks s
  let diff := imgDiff (below m) (below (activeImg s))
  let live := diff.any isLive
  if !(imageOk m) || !(pathsOk m) then slotPost n .invalid 0 s
  else if sealedHit s then slotPost n .locked 0 s
  else if (255 :: bs).any (fun b => (100000 ≤ wearOf s (blockIdx (!s.pwr.activeB) b) : Bool)) then slotPost n .noSpace 0 s
  else match if live then emrLog 3 0 0 0 0 (diff.map (fun o => memByte m o)) s else some s with
    | none => slotPost n .noSpace 0 s
    | some s1 => { s1 with pwr := { s1.pwr with
        commit := some { slot := n, blocks := bs, trailer := false, changed := bs.length, live := live }, writing := true } }

/-- NVSTORE COMMIT. -/
def runCommit (f : FxForm) (e : FxEnv) (s : State) : FxOut :=
  match fxCheck f false 0 e s with
  | some st => fxRefuse st s
  | none =>
    if s.pwr.commit.isSome then fxRefuse .busy s
    else if !(staged s) then fxRefuse .conflict s
    else fxOk (commitStart e.slot (fxPost f e s))

/-- NVSTORE DISCARD. -/
def runDiscard (f : FxForm) (e : FxEnv) (s : State) : FxOut :=
  match fxCheck f false 0 e s with
  | some st => fxRefuse st s
  | none => if s.pwr.commit.isSome then fxRefuse .busy s else fxOk { s with pwr := { s.pwr with staging := activeImg s } }

/-- NVSTAT. -/
def runNvstat (f : FxForm) (e : FxEnv) (s : State) : FxOut :=
  match fxCheck f false 0 e s with
  | some st => fxRefuse st s
  | none =>
    let g := if s.pwr.commit.isSome then 2 else b2n (staged s)
    .done .ok [(1, word (at_ g 62 + at_ (b2n s.pwr.activeB) 61 + s.pwr.commits % 2 ^ 32)), (2, word (at_ (wearMax s true % 2 ^ 32) 32 + wearMax s false % 2 ^ 32))] 0 s

def execNvstoreStage (core gd ga : Fin 64) (s : State) : Host.Outcome State Fault Refusal :=
  finish (fxIssue core gd ga 0x28 0 0 nvstoreForms fStage runStage s)
def execNvstoreCommit (core gd ga : Fin 64) (s : State) : Host.Outcome State Fault Refusal :=
  finish (fxIssue core gd ga 0x28 0 0 nvstoreForms fCommit runCommit s)
def execNvstoreDiscard (core gd ga : Fin 64) (s : State) : Host.Outcome State Fault Refusal :=
  finish (fxIssue core gd ga 0x28 0 0 nvstoreForms fDiscard runDiscard s)
def execNvstat (core gd ga : Fin 64) (s : State) : Host.Outcome State Fault Refusal :=
  finish (fxIssue core gd ga 0x29 0 0 [fNvstat] fNvstat runNvstat s)

/-! ### A settings block is written (R538, R539) -/

/-- Replaces a settings copy. -/
def setCopyPut (b : Bool) (c : SetCopy) (s : State) : State :=
  { s with pwr := if b then { s.pwr with copyB := c } else { s.pwr with copyA := c } }

/-- A live register: the fields that the commit changed are stored as a write would store them (R539). -/
def liveReg (old new : Memory) (o a : Nat) (s : State) : State :=
  if imgWord old o = imgWord new o then s
  else match regDesc a with
    | none => s
    | some d =>
      if isSpcCfg a || a = aDlrHeatThr then storeReg s a (imgWord new o)
      else
        let fs := d.fields.filter (fun f => !(fld (imgWord old o) f.hi f.lo == fld (imgWord new o) f.hi f.lo) && !(a == aFltCfg && f.hi == 63))
        regPut s a (fs.foldl (fun x f => storeField (rwlLocked s) x (imgWord new o) f) (regGet s a))

/-- Live registers that stand in a row. -/
def liveRegs (old new : Memory) (o a n : Nat) (s : State) : State :=
  (List.range n).foldl (fun s' i => liveReg old new (o + 8 * i) (a + 8 * i) s') s

/-- A live receive reserve, under R98: one that the shared pool cannot cover is left. -/
def liveReserve (old new : Memory) (p c : Nat) (s : State) : State :=
  let n := imgReserve new p c
  let a := acctOf s (acctKey p c)
  if imgReserve old p c = n || !(subPortExists s p) || isTrlPort s p || n < 32 || 4096 < n || (a.res < n && s.erg.shared + a.res < 65536 + n) then s
  else
    let s1 := acctPut (acctKey p c) { a with res := n } s
    { s1 with erg := { s1.erg with shared := s.erg.shared + a.res - n } }

/-- Live scheduling settings. -/
def liveSched (old new : Memory) (s : State) : State :=
  let x := loadSched new s
  { s with erg := { s.erg with
      alpha := (List.range 8).foldl (fun a c =>
        if imgWord old (0x20 + 8 * c) = imgWord new (0x20 + 8 * c) then a
        else match sfind? x.erg.alpha c with | some v => sput a c v | none => a) s.erg.alpha
      pqos := (List.range 96).foldl (fun a p =>
        if memRead old (0x800 + 16 * p) 16 = memRead new (0x800 + 16 * p) 16 then a else sset {} a p (sget {} x.erg.pqos p)) s.erg.pqos
      prof := (List.range 256).foldl (fun a i =>
        if imgWord old (0x1000 + 8 * i) = imgWord new (0x1000 + 8 * i) then a else sset {} a i (sget {} x.erg.prof i)) s.erg.prof } }

/-- Live severities. -/
def liveSev (old new : Memory) (s : State) : State :=
  (List.range 2048).foldl (fun s' n =>
    let v := imgNat new (0x2000 + n) 1
    if !(imgNat old (0x2000 + n) 1 == v) && sevOk n v then fltPut n { fltOf s' n with sev := some v } s' else s') s

/-- Step 3 of R538. -/
def liveApply (old new : Memory) (s : State) : State :=
  let s1 := liveRegs old new 0x1A00 (aCxpPortCfg 0) 96 (liveReg old new 0x1900 aCxpCfg (liveReg old new 0x18C0 aLaneChk s))
  let s2 := liveReg old new 0x1D10 aMeldPredCfg (liveReg old new 0x1D08 aMeldCfg (liveReg old new 0x1D00 aCohCfg s1))
  let s3 := liveReg old new 0x1D38 aOasCfg (liveReg old new 0x1D30 aDlrHeatThr (liveReg old new 0x1D28 aDlrHeatCfg (liveReg old new 0x1D20 aDlrCfg s2)))
  let s4 := (List.range 32).foldl (fun s' n => liveRegs old new (0x2800 + 16 * n) (aSpcCfg n 0) 2 s') (liveReg old new 0x1F00 aFltCfg s3)
  let s5 := (List.range 96).foldl (fun s' p => (List.range 7).foldl (fun s'' c => liveReserve old new p c s'') s') s4
  liveSev old new (liveSched old new s5)

/-- The commit ends. -/
def commitEnd (s : State) : State := { s with pwr := { s.pwr with commit := none, writing := false } }

/-- A block of an image. -/
def blockOf (m : Memory) (k : Nat) : Memory := (below m).filter (fun c => c.1 / 4096 == k)

/-- The running settings block is written and read back (R538): the wear counter rises; a mismatch ends the commit; after the
trailer, the live settings apply and the outcome is posted. -/
def blockDone (ok : Bool) (s : State) : State :=
  match s.pwr.commit with
  | none => s
  | some c =>
    let b := !s.pwr.activeB
    let k := c.blocks.headD 255
    let w := blockIdx b k
    let s1 := { s with pwr := { s.pwr with wear := sset 0 s.pwr.wear w (wearOf s w + 1) } }
    let old := setCopy s1 b
    if !ok then raiseN fNvmWriteFail (slotPost c.slot .faulted 0 (commitEnd (setCopyPut b { old with ok := false } s1)))
    else
      let m := (blockOf s.pwr.staging k).foldl (fun a x => memSet a x.1 x.2) (memClear old.bytes (4096 * k) 4096)
      match c.blocks with
      | _ :: t => { setCopyPut b { old with ok := false, bytes := m } s1 with pwr := {
          (setCopyPut b { old with ok := false, bytes := m } s1).pwr with commit := some { c with blocks := t } } }
      | [] =>
        let was := activeImg s
        let s2 := setCopyPut b { ok := true, gen := (setCopy s s.pwr.activeB).gen + 1, bytes := m } s1
        let s3 := commitEnd { s2 with pwr := { s2.pwr with activeB := b, commits := s2.pwr.commits + 1, staging := m } }
        commitPost c.slot .ok (if c.live then liveApply was m s3 else s3)

end Sys2Proof.Machine
end

