-- ==== Sys2Proof/Machine/Rings.lean ====
section
/-!
DEFINITION. Machine/Rings.lean: the message rings and the interrupt controller (spec 11): ring instructions (R318-R324), ring
configuration (R325), INTCLAIM and INTDONE (R332, R333), WAIT and SLEEP (R335-R338), the core control register (spec 09 R245-R248).
-/
namespace Sys2Proof.Machine

/-! ### Ring instructions (R318-R324) -/

/-- What a ring instruction needs of gb. -/
inductive RingArg where
  | block
  | zero
  | pos
  | stat
  deriving DecidableEq, Repr

/-- The ring number, or none (R319, first row). -/
def ringArg (c : Core) (ga gb : Nat) (k : RingArg) : Option Nat :=
  let n := (gReg c ga).toNat
  let b := (gReg c gb).toNat
  let ok := match k with
    | .block => b % 64 == 0 && inLocalData b 128
    | .zero => gb == 0
    | .pos => true
    | .stat => b % 8 == 0 && inLocalData b 32
  if n < 1024 && ok then some n else none

/-- Code at P2 may use a ring (R319). -/
def ringAllowed (c : Core) (core : Nat) (r : Ring) : Bool := !c.p2 || (r.p2en && (r.p2core == core))

/-- Statuses that every ring instruction shares, or the ring (R319). -/
def ringGate (s : State) (core ga gb : Nat) (k : RingArg) (portals : List Nat) : Status × Option (Nat × Ring) :=
  let c := coreOf s core
  match ringArg c ga gb k with
  | none => (.invalid, none)
  | some n =>
    let r := ringOf s n
    if !r.en then (.invalid, none)
    else if !(ringAllowed c core r) || portals.contains r.portal then (.denied, none)
    else (.ok, some (n, r))

/-- A ring instruction on a core: gd receives its status. -/
def ringIssue (core gd ga gb fn : Nat) (k : RingArg) (portals : List Nat) (run : Nat → Ring → Nat → State → Status × State) (s : State) :
    State :=
  start core (encRR 0x1C gd ga gb fn)
    (fun c => match k with | .block => (gReg c gb).toNat % 2 ^ 48 | .stat => (gReg c gb).toNat % 2 ^ 48 | _ => 0)
    (fun s => match ringGate s core ga gb k portals with
      | (st, none) => retireStatus core gd st s
      | (_, some (n, r)) =>
        let x := run n r (gReg (coreOf s core) gb).toNat s
        retireStatus core gd x.1 x.2) s

/-- 64 bytes of an entry block. -/
def blockLine (s : State) (core a : Nat) : Line := BitVec.ofNat 512 (memNat s (coreWin core + 0x40000 + (a - 0x100000)) 64)

/-- Writes an entry and its position into an entry block. -/
def blockPut (core a : Nat) (e : Line) (p : Nat) (s : State) : State :=
  stWords core a ((List.range 8).map (fun i => word (e.toNat / 2 ^ (64 * i))) ++ [word p]) s

/-- QPUSH: the ring is full, or the entry takes position W (R317, R318). -/
def qpush (core n : Nat) (r : Ring) (b : Nat) (s : State) : Status × State :=
  if posDiff r.w r.rel = ringCap r then (.noSpace, countN 0x8002 none none 1 s)
  else
    let s1 := countN 0x8001 none none 1 (ringCommit n (ringPushE s.time (blockLine s core b) r) s)
    let s2 := if posDiff r.w r.rel < ringDepth r then s1 else countN 0x8003 none none 1 s1
    (.ok, stWord core (b + 64) (word r.w) s2)

/-- An entry with an uncorrectable error is read (R321). -/
def ringPoison (n : Nat) (r : Ring) (s : State) : State :=
  let p := r.rd
  raiseN (if r.spilled.contains p then fQringSpill else fQringUncorr) (ringPut n { r with poisonN := satAdd 65535 r.poisonN 1 } s)

/-- The entry at RD is copied into the block (R318, R321). -/
def qread (core n : Nat) (r : Ring) (b : Nat) (s : State) : Status × State :=
  if r.bad.contains r.rd then (.poisoned, blockPut core b 0 r.rd (ringPoison n r s))
  else (.ok, blockPut core b (sget 0 r.ents r.rd) r.rd s)

/-- RD moves on: the idle timer restarts, or stops where RD reaches W (R322). -/
def ringAdvance (now : Nat) (r : Ring) : Ring :=
  let r1 := { r with rd := (r.rd + 1) % 2 ^ 32, fired := false }
  if ringUnread r1 = 0 then { r1 with timer := 0 } else timerStart now r1

/-- QPOP. -/
def qpop (core n : Nat) (r : Ring) (b : Nat) (s : State) : Status × State :=
  if r.rd = r.w then (.notReady, s)
  else
    let x := qread core n r b s
    (x.1, ringCommit n (ringAdvance s.time (ringOf x.2 n)) x.2)

/-- QPEEK. -/
def qpeek (core n : Nat) (r : Ring) (b : Nat) (s : State) : Status × State :=
  if r.rd = r.w then (.notReady, s) else qread core n r b s

/-- QMARK. -/
def qmark (n : Nat) (r : Ring) (s : State) : Status × State := (.ok, ringPut n { r with mark := r.rd } s)

/-- QREWIND (R322). -/
def qrewind (n : Nat) (r : Ring) (s : State) : Status × State :=
  let r1 := { r with rd := r.mark }
  (.ok, ringCommit n (if ringUnread r1 = 0 then r1 else { timerStart s.time r1 with fired := false }) s)

/-- REL moves to p: positions before it are freed, spilled entries come back on die (R318, R324). -/
def ringRelease (p : Nat) (r : Ring) : Ring :=
  let gone := fun (k : Nat) => (posDiff k r.rel < posDiff p r.rel : Bool)
  let r1 := { r with
    rel := p, mark := if posDiff r.mark r.rel < posDiff p r.rel then p else r.mark
    ents := r.ents.filter (fun e => !(gone e.1)), bad := r.bad.filter (fun k => !(gone k)) }
  { r1 with spilled := r1.spilled.filter (fun k => !(gone k) && (ringDepth r1 ≤ posDiff k p : Bool)) }

/-- QREL. -/
def qrel (n : Nat) (r : Ring) (b : Nat) (s : State) : Status × State :=
  let p := b % 2 ^ 32
  if posDiff r.rd r.rel < posDiff p r.rel then (.invalid, s) else (.ok, ringPut n (ringRelease p r) s)

/-- The QSTAT block. -/
def qstatWords (r : Ring) : List Word :=
  [word (at_ r.w 32 + r.rd), word (at_ r.rel 32 + r.mark), word (at_ (ringCap r) 32 + r.spilled.length),
    word (at_ (b2n !(r.timer == 0)) 2 + at_ (b2n (r.wmark ≤ ringUnread r : Bool)) 1 + b2n r.en)]

def execQpush (core gd ga gb : Fin 64) (s : State) : Host.Outcome State Fault Refusal :=
  finish (ringIssue core gd ga gb 1 .block [1, 3] (fun n r b s => qpush core n r b s) s)
def execQpop (core gd ga gb : Fin 64) (s : State) : Host.Outcome State Fault Refusal :=
  finish (ringIssue core gd ga gb 2 .block [2, 4] (fun n r b s => qpop core n r b s) s)
def execQpeek (core gd ga gb : Fin 64) (s : State) : Host.Outcome State Fault Refusal :=
  finish (ringIssue core gd ga gb 3 .block [2, 4] (fun n r b s => qpeek core n r b s) s)
def execQmark (core gd ga gb : Fin 64) (s : State) : Host.Outcome State Fault Refusal :=
  finish (ringIssue core gd ga gb 4 .zero [2, 4] (fun n r _ s => qmark n r s) s)
def execQrewind (core gd ga gb : Fin 64) (s : State) : Host.Outcome State Fault Refusal :=
  finish (ringIssue core gd ga gb 5 .zero [2, 4] (fun n r _ s => qrewind n r s) s)
def execQrel (core gd ga gb : Fin 64) (s : State) : Host.Outcome State Fault Refusal :=
  finish (ringIssue core gd ga gb 6 .pos [2, 4] (fun n r b s => qrel n r b s) s)
def execQstat (core gd ga gb : Fin 64) (s : State) : Host.Outcome State Fault Refusal :=
  finish (ringIssue core gd ga gb 7 .stat [] (fun _ r b s => (.ok, stWords core b (qstatWords r) s)) s)

/-! ### Ring configuration (R325, R339) -/

/-- On-die entries of the ring-storage partition. -/
def ringStore (s : State) : Nat := s.erg.part.ringMib * 16384

/-- Entries of a ring's spill segment. -/
def spillLen (r : Ring) : Nat := 1024 * 2 ^ r.spDepth

/-- Other enabled rings. -/
def otherRings (s : State) (n : Nat) : List Ring := (s.ring.rings.filter (fun p => !(p.1 == n) && p.2.en)).map (fun p => p.2)

/-- The first check of R325 that a configuration fails; 0 none. -/
def ringCheck (s : State) (n : Nat) (r : Ring) : Nat :=
  if 12 < r.depth || (r.spill && 12 < r.spDepth) then 1
  else if ringStore s < r.base * 16 + ringDepth r then 2
  else if (otherRings s n).any (fun x => rangesMeet (r.base * 16) (ringDepth r) (x.base * 16) (ringDepth x)) then 3
  else if r.spill && (4194304 < r.spBase * 1024 + spillLen r ||
      (otherRings s n).any (fun x => x.spill && rangesMeet (r.spBase * 1024) (spillLen r) (x.spBase * 1024) (spillLen x))) then 4
  else if 4 < r.portal || (1 ≤ r.portal && (otherRings s n).any (fun x => (x.portal == r.portal) && (x.dom == r.dom))) then 5
  else 0

/-- A ring's configuration alone: every entry is discarded, every position 0. -/
def Ring.cleared (r : Ring) : Ring :=
  { spill := r.spill, portal := r.portal, depth := r.depth, p2en := r.p2en, p2core := r.p2core, dom := r.dom, base := r.base
    idle := r.idle, wmark := r.wmark, spDepth := r.spDepth, spBase := r.spBase, poisonN := r.poisonN, cfgErr := r.cfgErr }

/-- A store of word 0 with EN = 1 to a disabled ring: the checks, then the ring is enabled with every position 0. -/
def ringEnable (n : Nat) (v : Word) (s : State) : State :=
  let r := { (ringOf s n).cleared with
    spill := bit v 62, portal := fld v 61 59, depth := fld v 58 55, p2en := bit v 54, p2core := fld v 53 48, dom := fld v 47 36, base := fld v 12 0 }
  let e := ringCheck s n r
  ringCommit n (if e = 0 then { r with en := true, cfgErr := 0 } else { r with cfgErr := e }) s

/-- A store of word 0 with EN = 0: every entry is discarded; the other fields take their values. -/
def ringDisable (n : Nat) (v : Word) (s : State) : State :=
  let r := ringOf s n
  if r.en then ringCommit n { r.cleared with p2en := bit v 54, p2core := fld v 53 48 } s
  else
    let d := fld v 58 55
    ringCommit n { r with
      spill := bit v 62, portal := fld v 61 59, depth := d, p2en := bit v 54, p2core := fld v 53 48, dom := fld v 47 36
      base := fld v 12 0 } s

/-- A store of QRING_CFG word 0. -/
def ringCfg0 (n : Nat) (v : Word) (s : State) : State :=
  let r := ringOf s n
  if !(bit v 63) then ringDisable n v s
  else if r.en then ringPut n { r with p2en := bit v 54, p2core := fld v 53 48 } s
  else ringEnable n v s

/-- A store of QRING_CFG word 1: values beyond a field's range leave it; while the ring is enabled the segment stays. -/
def ringCfg1 (n : Nat) (v : Word) (s : State) : State :=
  let r := ringOf s n
  let r1 := { r with
    idle := if fld v 63 44 ≤ 1000000 then fld v 63 44 else r.idle
    wmark := if fld v 43 27 ≤ 65536 then fld v 43 27 else r.wmark }
  let r2 := if r1.idle = 0 then { r1 with timer := 0 } else r1
  ringCommit n (if r.en then r2 else { r2 with spDepth := fld v 26 22, spBase := fld v 11 0 }) s

/-- A store enables a ring. -/
def execQringEnable (ring : Nat) (value : Word) (s : State) : Host.Outcome State Fault Refusal :=
  finish (if 1024 ≤ ring then s else ringCfg0 ring (setFld value 63 63 1) s)

/-- A store disables a ring. -/
def execQringDisable (ring : Nat) (value : Word) (s : State) : Host.Outcome State Fault Refusal :=
  finish (if 1024 ≤ ring then s else ringCfg0 ring (setFld value 63 63 0) s)

/-- A ring's idle timer has run IDLE µs (R322): the idle source fires and the timer stops. -/
def execRingIdleExpire (ring : Nat) (s : State) : Host.Outcome State Fault Refusal :=
  finish (
    let r := ringOf s ring
    if r.timer = 0 || !r.en then s
    else
      let s1 := advanceTo (r.timer - 1 + r.idle * 1000) s
      icuEdge (1024 + ring) (ringPut ring { r with timer := 0, fired := true } s1))

/-! ### Interrupt sources (R329-R334, R340) -/

/-- A watched or claimed edge source, and what PENDCLR does. -/
def pendClear (n : Nat) (s : State) : State :=
  let x := srcOf s n
  (markStranded n (srcPut n { x with st := x.st.pendClr } s)).2

/-- A store of ICU_SRC; PENDCLR acts with the fields of the same store (R340). A target changed is looked at again (R334). -/
def icuStore (n : Nat) (v : Word) (s : State) : State :=
  let x := srcOf s n
  let s1 := srcPut n { x with
    edge := if bit v 18 = icuEdgeReset n then none else some (bit v 18), wake := bit v 17, en := bit v 16, prio := fld v 15 12
    target := fld v 5 0 } s
  strandScan (if bit v 19 then pendClear n s1 else s1)

/-- A write of PENDCLR. -/
def execPendclr (source : Nat) (s : State) : Host.Outcome State Fault Refusal :=
  finish (if 8192 ≤ source then s else pendClear source s)

/-- A store to ICU_SWSET fires a software source. -/
def icuSwset (n : Nat) (s : State) : State := icuEdge (7264 + n % 64) s

/-- A store to ICU_SWSET. -/
def execIcuSwset (n : Nat) (s : State) : Host.Outcome State Fault Refusal := finish (icuSwset n s)

/-- The priority stack of a core, newest first. -/
def stackIcu (s : State) (n : Nat) : List (Nat × Nat) := sget [] s.icu.claims n

/-- Replaces a priority stack. -/
def stackPut (n : Nat) (l : List (Nat × Nat)) (s : State) : State := { s with icu := { s.icu with claims := sset [] s.icu.claims n l } }

/-- INTCLAIM (R332). -/
def intclaim (core gd ga : Nat) (s : State) : State :=
  let c := coreOf s core
  let a := (gReg c ga).toNat
  if !(a % 8 == 0) || !(inLocalData a 8) then retireStatus core gd .invalid s
  else if 15 ≤ (stackIcu s core).length then retireStatus core gd .noSpace (stWord core a 0 s)
  else match deliverable s core with
    | none => retireStatus core gd .notReady (stWord core a 0 s)
    | some (n, p) =>
      let s1 := countP 0x8004 core (stackPut core ((n, c.runpri) :: stackIcu s core)
        (srcPut n { srcOf s n with st := .active, claimer := core } s))
      retireStatus core gd .ok (stWord core a (word (at_ 1 63 + at_ p 16 + n)) (corePut core { coreOf s1 core with runpri := p } s1))

/-- Where a completed source goes (R329): a level input still asserted is PENDING again. -/
def IcuSrc.complete (x : IcuSrc) : IState :=
  match x.st with
  | .activePending => .pending
  | _ => if x.levelIn then .pending else .idle

/-- A source of the stack is still claimed by the core. -/
def stillClaimed (s : State) (core n : Nat) : Bool :=
  let x := srcOf s n
  (x.claimer == core) && (match x.st with | .active => true | .activePending => true | _ => false)

/-- INTDONE (R333). -/
def intdone (core gd ga : Nat) (s : State) : State :=
  let n := (gReg (coreOf s core) ga).toNat % 8192
  match (stackIcu s core).filter (fun p => stillClaimed s core p.1) with
  | (m, saved) :: t =>
    if m = n then
      let x := srcOf s n
      let s1 := stackPut core t (srcPut n { x with st := x.complete } s)
      let s2 := corePut core { coreOf s1 core with runpri := saved } s1
      let r := markStranded n s2
      retireStatus core gd .ok (if r.1 then raiseStranded 2 r.2 else r.2)
    else retireStatus core gd .conflict s
  | [] => retireStatus core gd .conflict s

/-- An event instruction that P2 may not use. -/
def p1Only (core insn : Nat) (f : State → State) (s : State) : State := if (coreOf s core).p2 then privFault core insn s else f s

def execIntclaim (core gd ga gb : Fin 64) (s : State) : Host.Outcome State Fault Refusal :=
  finish (start core (encRR 0x1D gd ga gb 3) (fun c => (gReg c ga).toNat % 2 ^ 48) (fun s =>
    if gb ≠ 0 then illegal core (encRR 0x1D gd ga gb 3) s else p1Only core (encRR 0x1D gd ga gb 3) (intclaim core gd ga) s) s)
def execIntdone (core gd ga gb : Fin 64) (s : State) : Host.Outcome State Fault Refusal :=
  finish (start core (encRR 0x1D gd ga gb 4) (fun _ => 0) (fun s =>
    if gb ≠ 0 then illegal core (encRR 0x1D gd ga gb 4) s else p1Only core (encRR 0x1D gd ga gb 4) (intdone core gd ga) s) s)

/-! ### WAIT and SLEEP (R335-R338, spec 20 R534) -/

/-- A source is PENDING with a core as its effective target. -/
def pendingFor (s : State) (core n : Nat) : Bool := decide ((srcOf s n).st = .pending) && (effTarget s (srcOf s n) == some core)

/-- A watch holds. -/
def watchHolds (s : State) (core : Nat) (w : Option Nat) : Bool := match w with | some n => pendingFor s core n | none => false

/-- A watched edge source that holds returns to IDLE (R338). -/
def watchTake (core : Nat) (w : Option Nat) (s : State) : State :=
  match w with
  | some n => if pendingFor s core n && srcEdge n (srcOf s n) then srcPut n { srcOf s n with st := .idle } s else s
  | none => s

/-- An ending condition of WAIT holds (R335). -/
def waitEnds (s : State) (core : Nat) (w0 w1 : Option Nat) : Bool :=
  (deliverable s core).isSome || watchHolds s core w0 || watchHolds s core w1

/-- A wake source is PENDING for a core (R335). -/
def wakeSource (s : State) (core : Nat) : Option Nat :=
  (s.icu.srcs.find? (fun p => decide (p.2.st = .pending) && p.2.en && p.2.wake && (effTarget s p.2 == some core))).map (fun p => p.1)

/-- A core stops executing: FLG_CORE_STAT samples its PC. -/
def coreStop (core : Nat) (st : CState) (b : Busy) (s : State) : State :=
  let c := coreOf s core
  corePut core { c with st := st, busy := b, statPc := c.pc } s

/-- A core that waited or slept runs again and retires with a status (R335). -/
def coreWake (core gd : Nat) (st : Status) (s : State) : State :=
  retireStatus core gd st (corePut core { coreOf s core with st := .run } s)

/-- WAIT ends with ST_OK: both watches that hold take their edge sources back to IDLE. -/
def waitOk (core gd : Nat) (w0 w1 : Option Nat) (s : State) : State :=
  coreWake core gd .ok (if watchHolds s core w0 then
    (if watchHolds s core w1 then watchTake core w1 (watchTake core w0 s) else watchTake core w0 s) else watchTake core w1 s)

/-- A watch of ga. -/
def watchOf (v : Word) (k : Nat) : Option Nat := if bit v (16 * k + 15) then some (fld v (16 * k + 12) (16 * k)) else none

/-- Bits of ga that WAIT reserves. -/
def waitRsv (v : Word) : Bool := !(fld v 63 32 == 0) || !(fld v 30 29 == 0) || !(fld v 14 13 == 0)

/-- WAIT. -/
def waitRun (core gd ga gb : Nat) (s : State) : State :=
  let c := coreOf s core
  let v := gReg c ga
  let d := (gReg c gb).toNat
  if waitRsv v then retireStatus core gd .invalid s
  else if waitEnds s core (watchOf v 0) (watchOf v 1) then waitOk core gd (watchOf v 0) (watchOf v 1) s
  else if d ≠ 0 && d ≤ s.time then retireStatus core gd .timeout s
  else coreStop core .wait (.wait (watchOf v 0) (watchOf v 1) d gd) s

/-- No link carries traffic (R534): CXL links down or in L1, TRL links down, OFF or IDLE. -/
def linksQuiet (s : State) : Bool :=
  s.cxp.ports.all (fun p => !(p.2.link == 2 || p.2.link == 3) || p.2.low == 1) && s.trl.ports.all (fun p => !(p.2.st == 5))

/-- Nothing is under way that keeps the device active (R534). -/
def workQuiet (s : State) : Bool :=
  s.dlr.moves.isEmpty && s.dlr.cars.all (fun p => decide (p.2.st = .none)) && s.dlr.fills.isEmpty && s.dom.walks.isEmpty
    && s.dlr.nearToScrub.isEmpty && (s.dlr.nearTotal ≤ s.dlr.nearScrub : Bool)
    && s.dom.devs.all (fun p => p.2.toScrub.isEmpty && !(decide (p.2.st = .scrubbing)))
    && s.oas.active.isNone && !s.pwr.writing && s.gate.gsyncs.isEmpty && s.dlr.msyncs.isEmpty

/-- The conditions of R534 at core 0's commit point. -/
def idleOk (s : State) : Bool :=
  (regFld s 0x24901000 63 63 == 1) && (List.range 64).all (fun n => (n == 0) || (match (coreOf s n).st with | .run => false | .wait => false | _ => true))
    && linksQuiet s && workQuiet s

/-- SLEEP. -/
def sleepRun (core gd ga gb : Nat) (s : State) : State :=
  let c := coreOf s core
  let d := (gReg c gb).toNat
  if !((gReg c ga).toNat == 0) then retireStatus core gd .invalid s
  else if (wakeSource s core).isSome then retireStatus core gd .abortedByWake s
  else if d ≠ 0 && d ≤ s.time then retireStatus core gd .timeout s
  else
    let s1 := coreStop core .sleep (.sleep d gd) s
    if core = 0 && idleOk s then
      { s1 with pwr := { s1.pwr with idle := true, entries := satAdd (2 ^ 32 - 1) s1.pwr.entries 1 } }
    else s1

def execWait (core gd ga gb : Fin 64) (s : State) : Host.Outcome State Fault Refusal :=
  finish (start core (encRR 0x1D gd ga gb 1) (fun _ => 0) (waitRun core gd ga gb) s)
def execSleep (core gd ga gb : Fin 64) (s : State) : Host.Outcome State Fault Refusal :=
  finish (start core (encRR 0x1D gd ga gb 2) (fun _ => 0) (sleepRun core gd ga gb) s)

/-- An ending condition reaches the wake arbiter of a core in WAIT. -/
def execWaitEnd (core : Nat) (s : State) : Host.Outcome State Fault Refusal :=
  finish (
    match (coreOf s core).busy with
    | .wait w0 w1 _ gd => if waitEnds s core w0 w1 then waitOk core gd w0 w1 s else s
    | _ => s)

/-- A wake source becomes PENDING for a core in SLEEP; device idle ends with it (R535). -/
def execSleepWake (core : Nat) (s : State) : Host.Outcome State Fault Refusal :=
  finish (
    match (coreOf s core).busy, wakeSource s core with
    | .sleep _ gd, some n => coreWake core gd .ok (idleExit n s)
    | _, _ => s)

/-- The deadline of a WAIT or SLEEP (R336); SLEEP's deadline ends device idle. -/
def execWaitSleepDeadline (core : Nat) (s : State) : Host.Outcome State Fault Refusal :=
  finish (
    match (coreOf s core).busy with
    | .wait w0 w1 d gd =>
      if d = 0 then s else if waitEnds s core w0 w1 then waitOk core gd w0 w1 s else coreWake core gd .timeout (advanceTo d s)
    | .sleep d gd =>
      if d = 0 then s
      else match wakeSource s core with
        | some n => coreWake core gd .ok (idleExit n s)
        | none =>
          let s1 := advanceTo d s
          coreWake core gd .timeout (if core = 0 then idleExit 0x1FFF s1 else s1)
    | _ => s)

/-! ### Core control (R245-R248, R280) -/

/-- RESET: control registers and general registers take their reset values; the local memories stay (R246, R248). -/
def coreReset (n : Nat) (start : Bool) (s : State) : State :=
  match (coreOf s n).st with
  | .reset => if start then corePut n { st := .run } s else s
  | .run => askLeave n .reset start s
  | _ => left n .reset start s

/-- START: a core in RESET begins at PC 0. -/
def coreStart (n : Nat) (s : State) : State :=
  if (coreOf s n).st = .reset then corePut n { st := .run } s else s

/-- HALTREQ. -/
def coreHalt (n : Nat) (s : State) : State :=
  match (coreOf s n).st with
  | .run => askLeave n .halted false s
  | .wait | .sleep => leaveService n .halted s
  | _ => s

/-- A store to FLG_CORE_CTL: RESET acts first, then START, and HALTREQ is then ignored (R280); a core's own register is left
(R248). -/
def coreCtl (by_ : Option Nat) (n : Nat) (v : Word) (s : State) : State :=
  if by_ == some n then s
  else if bit v 2 then coreReset n (bit v 1) s
  else if bit v 1 then coreStart n s
  else if bit v 3 then coreHalt n s else s

def execCoreReset (core : Fin 64) (s : State) : Host.Outcome State Fault Refusal := finish (coreReset core false s)
def execCoreStart (core : Fin 64) (s : State) : Host.Outcome State Fault Refusal := finish (coreStart core s)
def execCoreHaltreq (core : Fin 64) (s : State) : Host.Outcome State Fault Refusal := finish (coreHalt core s)

end Sys2Proof.Machine
end

