-- ==== Sys2Proof/Machine/FaultOps.lean ====
section
/-!
DEFINITION. Machine/FaultOps.lean: the stores to FLT_SRC (spec 17): severity, forced raise, latch clear.
-/
namespace Sys2Proof.Machine

/-- The interrupt input of a fault source follows its LATCH (R480). -/
def fltUnlatch (n : Nat) (s : State) : State := icuInput (5120 + n) false (fltPut n { fltOf s n with latch := false } s)

/-- A forced raise names the objects of FLT_INJECT (R494); sources 193 and 194 and a device without INJECT ignore it. -/
def fltForce (n : Nat) (s : State) : State :=
  if !(bit (regGet s aFltCfg) 63) || n = fEmrSigfail || n = fEmrAlarm then s
  else match fltInfo n with
    | none => s
    | some (.none, _, _) => raiseX n 0xFFFF 0xFF true [] s
    | some (.domain, _, _) => raiseX n (regFld s aFltInject 59 48) 0xFF true [] s
    | some (.port, _, _) => raiseX n 0xFFFF (regFld s aFltInject 40 34) true [] s

/-- The SEV field of a store to FLT_SRC (R483): a refused value leaves the field as it is. -/
def fltSevStore (n sev : Nat) (s : State) : State :=
  if sevOk n sev then fltPut n { fltOf s n with sev := some sev } s else s

/-- One store to FLT_SRCn (R484, R490, R498): SEV is presented first, a clear of LATCH never beats a raise of the same store. A
number that the tables do not list ignores writes (R480). -/
def fltStore (n sev : Nat) (force clear : Bool) (s : State) : State :=
  if (fltInfo n).isNone then s
  else
    let s1 := fltSevStore n sev s
    let s2 := if clear then fltUnlatch n s1 else s1
    if force then fltForce n s2 else s2

/-- FLT_FORCE (R494): a store with FORCE = 1, the value of its SEV field, and whether it clears LATCH. -/
def execFltForce (src : Fin 2048) (sev : Fin 8) (clear : Bool) (s : State) : Host.Outcome State Fault Refusal :=
  finish (fltStore src.val sev.val true clear s)

/-- FLT_SEV_WRITE (R483): a store that only writes SEV. -/
def execFltSevWrite (src : Fin 2048) (sev : Fin 8) (s : State) : Host.Outcome State Fault Refusal :=
  finish (fltStore src.val sev.val false false s)

/-- FLT_LATCH_CLEAR (R490): a store with LATCH = 1 and FORCE = 0; its SEV field is written as R483 has it. -/
def execFltLatchClear (src : Fin 2048) (sev : Fin 8) (s : State) : Host.Outcome State Fault Refusal :=
  finish (fltStore src.val sev.val false true s)

end Sys2Proof.Machine
end

