-- ==== Sys2Proof/Machine/Pmu.lean ====
section
/-!
DEFINITION. Machine/Pmu.lean: the credit of TIME events and the bandwidth windows (spec 18).
-/
namespace Sys2Proof.Machine

/-- PMU_TIME_CREDIT (R500): device time reaches the next microsecond, and TIME events are credited with what has passed. -/
def execPmuTimeCredit (s : State) : Host.Outcome State Fault Refusal :=
  finish (advanceTo ((s.time / 1000 + 1) * 1000) s)

/-- Bandwidth state of a port. -/
def bwOf (s : State) (p : Nat) : BwP := sget {} s.pmu.bw p

/-- Replaces it. -/
def bwPut (p : Nat) (b : BwP) (s : State) : State := { s with pmu := { s.pmu with bw := sset {} s.pmu.bw p b } }

/-- The end of a window (R511): the totals go to the next of 16 entries. The boundary that follows a clear only starts the first
window. -/
def bwClose (b : BwP) : BwP :=
  if b.armed then { b with armed := false, rx := 0, tx := 0 }
  else
    let n := (b.newest + 1) % 16
    { b with hist := sset (0, 0) b.hist n (b.rx, b.tx), newest := n, seq := (b.seq + 1) % 2 ^ 32, rx := 0, tx := 0 }

/-- BW_WINDOW_END (R510, R511): device time reaches the next multiple of WINDOW × 1,000 ns. -/
def execBwWindowEnd (port : Fin 96) (s : State) : Host.Outcome State Fault Refusal :=
  let b := bwOf s port.val
  finish (if !b.en then s
    else
      let w := b.window * 1000
      let s1 := advanceTo ((s.time / w + 1) * w) s
      bwPut port.val (bwClose (bwOf s1 port.val)) s1)

/-- A store to word 0 of PMU_BW (R511, R512): history and SEQ are cleared; WINDOW outside 1 to 1,000,000 is not written.
NEWEST is 0 as after reset, so that the first window is written to entry 1 (log entry 40, DEDUCED). -/
def bwStore (p : Nat) (en : Bool) (window : Nat) (s : State) : State :=
  let b := bwOf s p
  bwPut p { en := en, window := if 1 ≤ window && window ≤ 1000000 then window else b.window, armed := en } s

/-- PMU_BW_CLEAR (R511). -/
def execPmuBwClear (port : Fin 96) (en : Bool) (window : Fin 1048576) (s : State) : Host.Outcome State Fault Refusal :=
  finish (bwStore port.val en window.val s)

end Sys2Proof.Machine
end

