-- ==== Sys2Proof/Machine/Spc.lean ====
section
/-!
DEFINITION. Machine/Spc.lean: the slot power controllers (spec 19). Levels are operands of the commands in the units of SPC_STAT:
a sense voltage in 0.025 mV, a rail or feed in 10 mV.
-/
namespace Sys2Proof.Machine

/-- Controller n. -/
def spcOf (s : State) (n : Nat) : Spc := sget {} s.spc n

/-- Replaces controller n; its interrupt source follows EVENTS (R524). -/
def spcPut (n : Nat) (c : Spc) (s : State) : State :=
  icuInput (7328 + n) (!(c.events == 0)) { s with spc := sset {} s.spc n c }

/-- Fields of SPC_CFG (R525). -/
def spcCfg (s : State) (n k hi lo : Nat) : Nat := regFld s (aSpcCfg n k) hi lo

/-- An EVENTS bit is set. -/
def Spc.event (c : Spc) (b : Nat) : Spc := { c with events := c.events ||| 2 ^ b }

/-- PG takes a level; a change is an event (R521, R524). -/
def Spc.pgTo (c : Spc) (v : Bool) : Spc := if c.pg == v then c else ({ c with pg := v } : Spc).event 0

/-- EW takes a level; a rise is an event (R522, R524). -/
def Spc.ewTo (c : Spc) (v : Bool) : Spc :=
  if v && !c.ew then ({ c with ew := true } : Spc).event 1 else { c with ew := v }

/-- A feed may be used: it is valid, and feed B is fitted (R514, R517). -/
def feedOk (s : State) (n : Nat) (c : Spc) (b : Bool) : Bool :=
  if b then c.validB && spcCfg s n 0 60 60 == 1 else c.validA

/-- The preferred feed: true for B. -/
def spcPri (s : State) (n : Nat) : Bool := spcCfg s n 0 61 61 == 1

/-- Ports whose slot a controller feeds (R397, R405). -/
def spcPorts (s : State) (n : Nat) : List Nat :=
  allPorts.filter (fun p => !(portRole s p == 0) && !(portRole s p == 1) && portSpc s p == some n)

/-- A fall of PG drives PERST_N low (R397, R521). -/
def pgFell (n : Nat) (s : State) : State :=
  (spcPorts s n).foldl (fun s' p => perstLow p (portDrop p s')) s

/-- The pool devices of a slot are lost (R58, R520). -/
def slotGone (n : Nat) (s : State) : State := (spcPorts s n).foldl (fun s' p => portDevsGone p s') s

/-- A controller in WAIT ramps once its card has been seated for 100 ms and a feed is valid (R515). -/
def spcGo (n : Nat) (s : State) : State :=
  let c := spcOf s n
  let pri := spcPri s n
  let a := feedOk s n c pri
  if c.st = 1 && c.prsnt && c.seated && (a || feedOk s n c (!pri)) && s.pwr.pwrOk then
    spcPut n { c with st := 2, feed := if a then pri else !pri, gate := true, full := false, armed := true } s
  else s

/-- The state that follows a cause (R520). -/
def causeNext (s : State) (n : Nat) (c : Spc) (cause : Nat) : Nat :=
  if cause = 3 || cause = 4 then 6
  else if cause = 6 || cause = 8 then 0
  else if cause = 7 then 1
  else if spcCfg s n 0 62 62 = 1 && c.retries < 7 then 5 else 6

/-- A turn-off (R520-R522, R524): both gates off, PG and EW low, the cause recorded; a protection cause counts and raises
SPC_FAULT, and its pool device is lost. -/
def turnOff (n cause : Nat) (s : State) : State :=
  let c := spcOf s n
  let nx := causeNext s n c cause
  let c1 := (({ c with
    st := nx, last := cause, gate := false, full := false, armed := false, timer := false, warn := false
    retries := if nx = 5 then c.retries + 1 else c.retries
    trips := if cause ≤ 5 then satAdd (2 ^ 32 - 1) c.trips 1 else c.trips
    coolAt := if nx = 5 then s.time else c.coolAt } : Spc).pgTo false).ewTo false
  let s1 := spcPut n (c1.event 2) s
  let s2 := if cause ≤ 5 then raiseN (fSpc n) s1 else s1
  let s3 := if cause ≤ 6 then slotGone n s2 else s2
  spcGo n (if c.pg then pgFell n s3 else s3)

/-- A gate is driven, or was until a switchover began: RAMP, ON, SWITCH. -/
def Spc.active (c : Spc) : Bool := c.st == 2 || c.st == 3 || c.st == 4

/-- A switchover starts (R517 steps 1 and 2): the active gate is pulled down, and EW rises. -/
def switchStart (n : Nat) (s : State) : State :=
  let c := spcOf s n
  spcPut n (({ c with st := 4, gate := false, full := false, armed := false } : Spc).ewTo true) s

/-- What a controller in ON, RAMP or SWITCH does as its feeds stand (R517): FEED_LOST, or a switchover. -/
def feedCheck (n : Nat) (s : State) : State :=
  let c := spcOf s n
  if c.active && !(feedOk s n c c.feed) && !(feedOk s n c (!c.feed)) then turnOff n 7 s
  else if c.st = 3 && !(feedOk s n c c.feed) then switchStart n s
  else s

/-- PRSNT_CHANGE (R515, R520): PRSNT_N falls (a card is in) or rises. Removal turns the slot off, and its device is lost. -/
def execPrsntChange (slot : Fin 32) (low : Bool) (s : State) : Host.Outcome State Fault Refusal :=
  let n := slot.val
  let c := spcOf s n
  finish (if c.prsnt == low then s
    else
      let s1 := spcPut n (({ c with prsnt := low, seated := false, prsntAt := s.time } : Spc).event 3) s
      if low then s1 else if c.active then turnOff n 6 s1 else slotGone n s1)

/-- SPC_PRESENCE_WAIT_EXPIRE (R515): PRSNT_N has been low for 100 ms. -/
def execSpcPresenceWaitExpire (slot : Fin 32) (s : State) : Host.Outcome State Fault Refusal :=
  let n := slot.val
  let c := spcOf s n
  finish (if !c.prsnt || c.seated then s
    else
      let s1 := advanceTo (c.prsntAt + 100000000) s
      spcGo n (spcPut n { spcOf s1 n with seated := true } s1))

/-- A feed's measured level. -/
def Spc.feedAt (c : Spc) (b : Bool) (v : Nat) : Spc :=
  { c with meas := if b then (c.meas.1, c.meas.2.1, c.meas.2.2.1, v) else (c.meas.1, c.meas.2.1, v, c.meas.2.2.2) }

/-- Feed levels: A, B. -/
def Spc.feedV (c : Spc) (b : Bool) : Nat := if b then c.meas.2.2.2 else c.meas.2.2.1

/-- VOUT's measured level, and the shunt's. -/
def Spc.voutAt (c : Spc) (v : Nat) : Spc := { c with meas := (c.meas.1, v, c.meas.2.2.1, c.meas.2.2.2) }
def Spc.senseAt (c : Spc) (v : Nat) : Spc := { c with meas := (v, c.meas.2.1, c.meas.2.2.1, c.meas.2.2.2) }

/-- FEED_UV of a controller, in 10 mV. -/
def feedUv (s : State) (n : Nat) : Nat := spcCfg s n 1 63 53

/-- FEED_VALID (R514): a feed has stayed above FEED_UV for 10 ms. -/
def execFeedValid (slot : Fin 32) (b : Bool) (level : Fin 2048) (s : State) : Host.Outcome State Fault Refusal :=
  let n := slot.val
  let c := (spcOf s n).feedAt b level.val
  finish (if level.val ≤ feedUv s n then s
    else feedCheck n (spcGo n (spcPut n (if b then { c with validB := true } else { c with validA := true }) s)))

/-- FEED_INVALID (R514, R517): a feed falls below FEED_UV. -/
def execFeedInvalid (slot : Fin 32) (b : Bool) (level : Fin 2048) (s : State) : Host.Outcome State Fault Refusal :=
  let n := slot.val
  let c := (spcOf s n).feedAt b level.val
  finish (if feedUv s n ≤ level.val then s
    else feedCheck n (spcPut n (if b then { c with validB := false } else { c with validA := false }) s))

/-- GATE_ENHANCED (R514, R515, R521): the driven gate is fully enhanced with VOUT at 95 % of its feed or more. `over`: the sense
voltage reaches CB_MV in the same decision step, so that PG is withheld. -/
def execGateEnhanced (slot : Fin 32) (vout : Fin 2048) (early : Bool) (s : State) : Host.Outcome State Fault Refusal :=
  let n := slot.val
  let c := (spcOf s n).voutAt vout.val
  finish (if !(c.st == 2 || c.st == 4) || !c.gate || 100 * vout.val < 95 * c.feedV c.feed then s
    else
      let c1 : Spc := { c with st := 3, full := true, armed := false, onAt := s.time, timer := early }
      let c2 := if early then c1.ewTo true else c1.pgTo true
      feedCheck n (spcPut n c2 s))

/-- BBM_EXPIRE (R517 step 3): the other gate is driven, and the ramp trip is armed. -/
def execBbmExpire (slot : Fin 32) (s : State) : Host.Outcome State Fault Refusal :=
  let n := slot.val
  let c := spcOf s n
  finish (if !(c.st == 4) || c.gate then s
    else spcPut n { c with feed := !c.feed, gate := true, armed := true, timer := false } s)

/-- PREFERRED_FEED_RETURN (R517 step 1): the preferred feed has been valid for 1 s while the other is active. -/
def execPreferredFeedReturn (slot : Fin 32) (s : State) : Host.Outcome State Fault Refusal :=
  let n := slot.val
  let c := spcOf s n
  finish (if c.st = 3 && !(c.feed == spcPri s n) && feedOk s n c (spcPri s n) then switchStart n s else s)

/-- FAST_TRIP (R518, R520): the sense voltage reaches FAST_MV. While the ramp trip is armed it has reached RAMP_MV as well, and
LAST takes the first cause of the table (log entry 42, DEDUCED). -/
def execFastTrip (slot : Fin 32) (sense : Fin 4096) (s : State) : Host.Outcome State Fault Refusal :=
  let n := slot.val
  let c := spcOf s n
  finish (if !c.active || sense.val < 10 * spcCfg s n 0 53 46 then s
    else turnOff n (if c.armed then 1 else 2) (spcPut n (c.senseAt sense.val) s))

/-- SHORT_IN_RAMP (R518): the sense voltage reaches RAMP_MV while the ramp trip is armed. -/
def execShortInRamp (slot : Fin 32) (sense : Fin 4096) (s : State) : Host.Outcome State Fault Refusal :=
  let n := slot.val
  let c := spcOf s n
  finish (if !c.armed || sense.val < 10 * spcCfg s n 0 37 30 then s
    else turnOff n 1 (spcPut n (c.senseAt sense.val) s))

/-- BREAKER_TIMER_START (R518, R522): the sense voltage reaches CB_MV in ON or SWITCH, with the ramp trip not armed. -/
def execBreakerTimerStart (slot : Fin 32) (sense : Fin 4096) (s : State) : Host.Outcome State Fault Refusal :=
  let n := slot.val
  let c := spcOf s n
  finish (if !(c.st == 3 || c.st == 4) || c.armed || c.timer || sense.val < 10 * spcCfg s n 0 45 38 then s
    else spcPut n (({ c.senseAt sense.val with timer := true } : Spc).ewTo true) s)

/-- BREAKER_TIMER_STOP (R518, R521): the sense voltage falls below CB_MV; a PG withheld is asserted. -/
def execBreakerTimerStop (slot : Fin 32) (sense : Fin 4096) (s : State) : Host.Outcome State Fault Refusal :=
  let n := slot.val
  let c := spcOf s n
  finish (if !c.timer || 10 * spcCfg s n 0 45 38 ≤ sense.val then s
    else
      let c1 : Spc := { c.senseAt sense.val with timer := false }
      spcPut n (if c1.st = 3 && c1.full then c1.pgTo true else c1) s)

/-- BREAKER (R518): the timer expires. -/
def execBreaker (slot : Fin 32) (s : State) : Host.Outcome State Fault Refusal :=
  finish (if (spcOf s slot.val).timer then turnOff slot.val 5 s else s)

/-- GATE_STUCK (R519): a driven gate fails to enhance in time, or sags in ON. -/
def execGateStuck (slot : Fin 32) (s : State) : Host.Outcome State Fault Refusal :=
  let c := spcOf s slot.val
  finish (if c.active && c.gate then turnOff slot.val 4 s else s)

/-- FET_SHORT (R519): with both gates off, VOUT has stayed above 10 % of the higher feed for 200 ms. -/
def execFetShort (slot : Fin 32) (vout : Fin 2048) (s : State) : Host.Outcome State Fault Refusal :=
  let n := slot.val
  let c := (spcOf s n).voutAt vout.val
  finish (if c.active || !s.pwr.pwrOk || 10 * vout.val ≤ max (c.feedV false) (c.feedV true) then s
    else turnOff n 3 (spcPut n c s))

/-- COOL_EXPIRE (R515): 1 s in COOL passes. -/
def execCoolExpire (slot : Fin 32) (s : State) : Host.Outcome State Fault Refusal :=
  let n := slot.val
  let c := spcOf s n
  finish (if c.st = 5 then
      let s1 := advanceTo (c.coolAt + 1000000000) s
      spcGo n (spcPut n { spcOf s1 n with st := 1 } s1)
    else s)

/-- RETRIES_RESET (R520): 10 s in ON pass. -/
def execRetriesReset (slot : Fin 32) (s : State) : Host.Outcome State Fault Refusal :=
  let n := slot.val
  let c := spcOf s n
  finish (if c.st = 3 then
      let s1 := advanceTo (c.onAt + 10000000000) s
      spcPut n { spcOf s1 n with retries := 0 } s1
    else s)

/-- EW_FALL (R522): 1 ms has passed with none of its conditions. -/
def execEwFall (slot : Fin 32) (s : State) : Host.Outcome State Fault Refusal :=
  let n := slot.val
  let c := spcOf s n
  finish (if c.ew && !c.timer then spcPut n { c with ew := false, warn := false } s else s)

/-- The bits of one store to SPC_CTL (R523, R525): CLEAR acts first, then OFF; ON is ignored beside another bit. -/
def spcCtl (n : Nat) (clear off on : Bool) (s : State) : State :=
  let c := spcOf s n
  let s1 := if clear && c.st == 6 then spcPut n { c with st := 0, retries := 0 } s else s
  let c1 := spcOf s1 n
  if off then
    (if c1.active then turnOff n 8 s1
     else if c1.st = 1 || c1.st = 5 then spcPut n { c1 with st := 0, last := 8 } s1 else s1)
  else if on && !clear && c1.st = 0 then spcGo n (spcPut n { c1 with st := 1 } s1)
  else s1

/-- SPC_ON: a store with only ON. -/
def execSpcOn (slot : Fin 32) (s : State) : Host.Outcome State Fault Refusal := finish (spcCtl slot.val false false true s)

/-- SPC_OFF: a store with OFF, and perhaps ON. -/
def execSpcOff (slot : Fin 32) (on : Bool) (s : State) : Host.Outcome State Fault Refusal :=
  finish (spcCtl slot.val false true on s)

/-- SPC_CLEAR: a store with CLEAR, and perhaps OFF and ON. -/
def execSpcClear (slot : Fin 32) (off on : Bool) (s : State) : Host.Outcome State Fault Refusal :=
  finish (spcCtl slot.val true off on s)

/-- A store to word 0 of SPC_STAT clears EVENTS bits written 1 (R524, R525). -/
def spcStatStore (n bits : Nat) (s : State) : State :=
  let c := spcOf s n
  spcPut n { c with events := (c.events &&& (15 - bits % 16)) } s

/-- SPC_EVENTS_CLEAR (R524). -/
def execSpcEventsClear (slot : Fin 32) (bits : Fin 16) (s : State) : Host.Outcome State Fault Refusal :=
  finish (spcStatStore slot.val bits.val s)

/-- FEED_WARN (R522): the active feed falls below FEED_WARN in ON or SWITCH. -/
def execFeedWarn (slot : Fin 32) (level : Fin 2048) (s : State) : Host.Outcome State Fault Refusal :=
  let n := slot.val
  let c := spcOf s n
  finish (if !(c.st == 3 || c.st == 4) || spcCfg s n 1 52 42 ≤ level.val then s
    else spcPut n (({ c.feedAt c.feed level.val with warn := true } : Spc).ewTo true) s)

/-- VOUT_BELOW_FEED_UV (R521): PG falls in SWITCH. -/
def execVoutBelowFeedUv (slot : Fin 32) (vout : Fin 2048) (s : State) : Host.Outcome State Fault Refusal :=
  let n := slot.val
  let c := (spcOf s n).voutAt vout.val
  finish (if !(c.st == 4) || feedUv s n ≤ vout.val then s
    else if c.pg then pgFell n (spcPut n (c.pgTo false) s) else spcPut n c s)

/-- Controllers with AUTO = 1 enter WAIT at boot step 7 (R516). -/
def spcAuto (s : State) : State :=
  (List.range 32).foldl (fun s' n =>
    if (spcOf s' n).st = 0 && spcCfg s' n 0 63 63 = 1 then spcGo n (spcPut n { spcOf s' n with st := 1 } s') else s') s

/-- PWR_OK has fallen: every gate is off (R516); the cold reset that follows leaves every controller in OFF, and keeps what the
pins say. -/
def Spc.coldReset (c : Spc) : Spc :=
  { validA := c.validA, validB := c.validB, prsnt := c.prsnt, seated := c.seated, prsntAt := 0, meas := c.meas }

end Sys2Proof.Machine
end

