-- ==== Sys2Proof/Machine/Resets.lean ====
section
/-!
DEFINITION. Machine/Resets.lean: what a cold and a warm reset leave (R532), and the reset requests that meet (R533).
-/
namespace Sys2Proof.Machine

/-- The image of the boot copy, which gives the I3C address before the management paths answer (R558, R559). -/
def bootImg? (s : State) : Option Memory :=
  match bootCopyOf s.pwr.copyA s.pwr.copyB with | some n => some (setCopy s (n == 1)).bytes | none => none

/-- What both resets leave: the reset state with the contents of NVM and of the boot flash, the pins, and the model's own counters
and queue. Boot starts at step 1. -/
def baseReset (s : State) : State := { State.reset with
  next := s.next, out := s.out, free := s.free + 1, pending := s.pending
  trl := { TrlSt.reset with incarn := (Config.freeWord s.free).toNat % 2 ^ 32 }
  flt := { FltSt.reset with main := s.flt.main, prot := s.flt.prot, recno := s.flt.recno }
  mgt := { MgtSt.reset with
    flash := s.mgt.flash, flashLen := s.mgt.flashLen
    saddr := match bootImg? s with | some m => imgSaddr m | none => 0x62
    inst := match bootImg? s with | some m => imgNat m 0x2D01 1 % 16 | none => 0 }
  emr := { EmrSt.reset with
    life := s.emr.life, lifeBoot := s.emr.life, copies := s.emr.copies, secret := s.emr.secret, wrapped := s.emr.wrapped, modulus := s.emr.modulus
    chains := s.emr.chains, keys := s.emr.keys, fwMin := s.emr.fwMin, fwRev := s.emr.fwRev, recs := s.emr.recs
    sense := s.emr.sense, alarmN := s.emr.alarmN && (decide (s.emr.life = .decommissioned) || !(s.emr.sense == 0)) }
  cxp := { CxpSt.reset with ports := s.cxp.ports.foldl (fun (a : SMap CxpPort) (e : Nat × CxpPort) =>
    let host := portRole s e.1 == 1
    sset {} a e.1 { present := e.2.present, perst := host && e.2.perst, perstAt := if host then e.2.perstAt else 0 }) [] }
  pwr := { PwrSt.reset with
    pwrOk := s.pwr.pwrOk, vid := s.pwr.vid, resetN := s.pwr.resetN, warmN := s.pwr.warmN, copyA := s.pwr.copyA
    copyB := s.pwr.copyB, wear := s.pwr.wear, step := if s.pwr.pwrOk then 1 else 0 }
  tap := s.tap }

/-- A cold reset (R532): device time restarts at 0, and every slot controller enters OFF (R516). -/
def coldReset (s : State) : State :=
  let s1 := { baseReset s with spc := s.spc.foldl (fun (a : SMap Spc) (e : Nat × Spc) => sset {} a e.1 e.2.coldReset) [] }
  if s.pwr.pwrOk then s1
  else { s1 with tap := State.reset.tap, emr := { s1.emr with alarmN := false }, pwr := { s1.pwr with vid := false } }

/-- A warm reset (R532): device time runs on; ROS fields, counts since cold reset (log entry 44, DEDUCED), the I3C address, the slot
controllers and the Oasis retired list stay. -/
def warmReset (s : State) : State :=
  let b := baseReset s
  let s1 := { b with
    time := s.time, spc := s.spc
    dom := { b.dom with incident := s.dom.incident }
    erg := { b.erg with cyc := (s.erg.cyc.1, 0, 0, false) }
    coh := { b.coh with peak := s.coh.peak }
    oas := { b.oas with
      retired := s.oas.retired
      subs := s.oas.subs.foldl (fun (a : SMap SubCh) (e : Nat × SubCh) => sset {} a e.1 { count := e.2.count }) [] }
    lane := { b.lane with tiles := s.lane.tiles.foldl (fun (a : SMap TileS) (e : Nat × TileS) => sset {} a e.1 { steps := e.2.steps }) [] }
    cxp := { b.cxp with ports := s.cxp.ports.foldl (fun (a : SMap CxpPort) (e : Nat × CxpPort) =>
      sset {} a e.1 { (sget {} b.cxp.ports e.1 : CxpPort) with pauses := e.2.pauses }) b.cxp.ports }
    mgt := { b.mgt with i3c := s.mgt.i3c, dynAddr := s.mgt.dynAddr }
    emr := { b.emr with alarms := s.emr.alarms }
    flt := { b.flt with srcs := s.flt.srcs.foldl (fun (a : SMap FltSrc) (e : Nat × FltSrc) => sset {} a e.1 { count := e.2.count }) [] }
    pwr := { b.pwr with boots := s.pwr.boots, entries := s.pwr.entries, commits := s.pwr.commits } }
  s1.spc.foldl (fun s' e => icuInput (7328 + e.1) (!(e.2.events == 0)) s') s1

/-- A reset is held by a ball, or ends at once (R532). -/
def resetBalls (s : State) : Bool := s.pwr.resetN && s.pwr.warmN

/-- A reset that waits for a block write, or starts (R533). TERMINAL ignores it (R489); loss of power does not come here. -/
def resetAsk (cold : Bool) (s : State) : State :=
  if s.flt.terminal then s
  else if s.pwr.writing then
    { s with pwr := { s.pwr with devReady := false, resetReq := if cold then 2 else max s.pwr.resetReq 1 } }
  else if cold then coldReset s else warmReset s

/-- A reset that waited runs once the block is written. -/
def resetGo (s : State) : State :=
  if s.pwr.writing || s.pwr.resetReq = 0 then s
  else if s.pwr.resetReq = 2 then coldReset s else warmReset s

/-- DEVICE_RESET_START (R487): the warm reset of a DEVICE reaction, after its records; a TERMINAL raise has replaced it. -/
def execDeviceResetStart (s : State) : Host.Outcome State Fault Refusal :=
  finish (if s.flt.devpend && !s.flt.terminal then resetAsk false s else s)

end Sys2Proof.Machine
end

