-- ==== Sys2Proof/Machine/Emmor.lean ====
section
/-!
DEFINITION. Machine/Emmor.lean: Emmor (spec 16): the lifecycle, the boot record and the measurement log, erasure and alarms, the
Emmor commands, and the debug-unlock token.
-/
namespace Sys2Proof.Machine

/-- R452. -/
def Life.code : Life → Nat
  | .manufacture => 0 | .provisioned => 1 | .sealed => 2 | .debugUnlocked => 3 | .decommissioned => 4

/-- R452. -/
def Life.ofCode : Nat → Life
  | 0 => .manufacture | 1 => .provisioned | 2 => .sealed | 3 => .debugUnlocked | _ => .decommissioned

/-- A lifecycle transition (R454): the copy that is not valid, or has the lower count, takes the higher count plus one. -/
def lifeWrite (l : Life) (s : State) : State :=
  let c := s.emr.copies
  let n := max (if c.1.ok then c.1.count else 0) (if c.2.ok then c.2.count else 0) + 1
  let w : LifeCopy := { count := n, code := l.code, ok := true }
  let first := !c.1.ok || (c.2.ok && (c.1.count < c.2.count : Bool))
  { s with emr := { s.emr with life := l, copies := if first then (w, c.2) else (c.1, w) } }

/-- The lifecycle that step 1 reads (R454): the valid copy with the higher count; none where neither is valid. -/
def lifeRead (s : State) : Option Life :=
  let c := s.emr.copies
  if c.1.ok && (!c.2.ok || (c.2.count ≤ c.1.count : Bool)) then some (Life.ofCode c.1.code)
  else if c.2.ok then some (Life.ofCode c.2.code) else none

/-- The device has an identity it can sign with (R452, R456, R470). -/
def hasId (s : State) : Bool :=
  s.emr.idok && (match s.emr.life with | .provisioned => true | .sealed => true | _ => false)

/-- The serial number as 8 bytes, little-endian. -/
def serialBytes : List Byte := leBytes 8 Config.serial.toNat

/-! ### The boot record and the measurement log (R465, R469) -/

/-- A key slot. -/
def keyOf_ (s : State) (n : Nat) : KeySlot := sget {} s.emr.keys n

/-- Bytes of a digest. -/
def digBytes (n : Nat) : List Byte := leBytes 64 n

/-- SHA-512 as a number whose little-endian bytes are the output. -/
def shaNat (m : List Byte) : Nat := (Config.sha512 m).toNat

/-- POLICY bytes of a record. -/
def polBytes (r : BootRec) : List Byte :=
  r.policy.flatMap (fun p => digBytes (shaNat p.image) ++ leBytes 8 p.cores ++ leBytes 4 p.svn ++ leBytes 1 p.keyslot ++ leBytes 3 0)

/-- The record below its signature. -/
def recBody (r : BootRec) : List Byte :=
  leBytes 4 0x52425A4B ++ leBytes 2 1 ++ leBytes 2 (0x250 + 80 * r.policy.length + 512) ++ leBytes 4 r.boots ++ leBytes 1 r.life
    ++ leBytes 1 r.outcome ++ leBytes 2 r.fcode ++ serialBytes ++ leBytes 8 r.time ++ leBytes 2 r.flags ++ leBytes 1 r.sloterr
    ++ leBytes 1 r.policy.length ++ leBytes 4 r.fwSvn ++ leBytes 8 r.fwVer ++ digBytes Config.romDigest.toNat ++ digBytes r.digFw
    ++ digBytes r.digSet ++ digBytes r.digFh ++ leBytes 16 r.oasis ++ leBytes 4 r.keystate ++ leBytes 12 0
    ++ (r.keydig.flatMap digBytes) ++ polBytes r

/-- The record with its signature; UNSIGNED records carry zeros. -/
def recBytes (s : State) (r : BootRec) : List Byte :=
  recBody r ++ leBytes 512 (if r.flags % 2 = 1 then 0 else (Config.sign s.emr.modulus r.salt (recBody r)).toNat)

/-- The readable records, newest first. -/
def readRecs (s : State) : List BootRec := s.emr.recs.filterMap (fun r => r)

/-- The record of the current boot, once it is stored. -/
def curRec (s : State) : Option BootRec := (readRecs s).head?

/-- Bytes 0x00 to 0x5F of entry i of the log (from 1). -/
def logBytes (i : Nat) (e : LogEnt) : List Byte :=
  leBytes 4 i ++ leBytes 1 e.typ ++ leBytes 1 e.core ++ leBytes 1 e.keyslot ++ leBytes 1 e.arg ++ leBytes 8 e.time ++ leBytes 4 e.svn
    ++ leBytes 12 0 ++ digBytes (if e.typ = 2 then 0 else shaNat e.msg)

/-- The chain value over entries numbered from i (R469). -/
def chainFrom_ (i c : Nat) : List LogEnt → Nat
  | [] => c
  | e :: t => chainFrom_ (i + 1) (shaNat (digBytes c ++ logBytes i e)) t

/-- The current chain value Cn. -/
def chainC (s : State) : Nat :=
  chainFrom_ 1 (match curRec s with | some r => shaNat (recBytes s r) | none => shaNat []) s.emr.log

/-! ### Erasure and alarms (R472-R476) -/

/-- The IDE keys of every port are erased (R392): streams in use become Insecure. -/
def ideErase (s : State) : State :=
  { s with cxp := { s.cxp with ports := s.cxp.ports.map (fun e => (e.1, { e.2 with
      keys := [], keySet := [], keyCnt := [], ideIo := if e.2.ideIo = 0 then 0 else 3, ideCm := if e.2.ideCm = 0 then 0 else 3 })) } }

/-- IDE keys and every SPDM session. -/
def keysErase (s : State) : State :=
  let s1 := ideErase s
  { s1 with emr := { s1.emr with sessions := [] } }

/-- DEVSECRET and the wrapped identity. -/
def secretErase (s : State) : State := { s with emr := { s.emr with secret := none, wrapped := none, idok := false } }

/-- Emmor's count of signature failures (R475). -/
def sigCount (s : State) : Nat :=
  (s.flt.prot.filter (fun r => (r.source == fEmrSigfail) && (s.pwr.boots < r.boots + 16 : Bool))).length

/-- EMR_ALARM_STAT (R479). -/
def alarmStat (s : State) : Word := word (at_ s.emr.alarms 48 + at_ (min 255 (sigCount s)) 40 + s.emr.latch % 32)

/-- A device leaves for DECOMMISSIONED: the warm reset follows by 1 ms (R459, R474). -/
def decommission (s : State) : State :=
  let s1 := lifeWrite .decommissioned (secretErase (keysErase s))
  { s1 with emr := { s1.emr with resetDue := some (s.time + 1000000) } }

/-- Sensors fire in one step (R474, R476): latched and counted, one erasure, ALARM_N, a history record; with GRAVE the running
Emmor command is abandoned and the device is decommissioned. -/
def alarm (bits : Nat) (s : State) : State :=
  if bits % 32 = 0 then s
  else
    let s1 := keysErase { s with emr := { s.emr with
      latch := s.emr.latch ||| (bits % 32), alarms := satAdd 65535 s.emr.alarms (popCount 5 bits), alarmN := true } }
    let s2 := raiseX fEmrAlarm 0xFFFF 0xFF false [alarmStat s1] s1
    if !(regFld s2 aAlarmCfg 63 63 == 1) || decide (s2.emr.life = .decommissioned) then s2
    else
      let s3 := decommission s2
      if s3.emr.busy then { s3 with emr := { s3.emr with busy := false, status := Status.faulted.code } } else s3

/-- ALARM_N falls when every latch is clear and no condition holds; in DECOMMISSIONED it stays (R474). -/
def alarmFall (s : State) : State :=
  if s.emr.latch = 0 && s.emr.sense = 0 && !(decide (s.emr.life = .decommissioned)) then
    { s with emr := { s.emr with alarmN := false } }
  else s

/-- A signature failure (R475) of a kind: 1 bundle slot, 2 policy image, 3 debug token. -/
def sigFail (kind : Nat) (s : State) : State :=
  let s1 := raiseX fEmrSigfail 0xFFFF 0xFF false [word kind] s
  if regFld s1 aAlarmCfg 55 48 ≤ sigCount s1 then alarm 16 s1 else s1

/-- A sensor's condition begins or ends (R473). -/
def sensor (b : Nat) (holds : Bool) (s : State) : State :=
  let on := bit (regGet s aAlarmCfg) b
  if holds then
    if on && !(bit (word s.emr.sense) b) then alarm (2 ^ b) { s with emr := { s.emr with sense := s.emr.sense + 2 ^ b } } else s
  else if bit (word s.emr.sense) b then alarmFall { s with emr := { s.emr with sense := s.emr.sense - 2 ^ b } } else s

/-- TAMPER_SUPPLY (R473): a watched rail has left its band for 5 ns, or is back in it. -/
def execTamperSupply (holds : Bool) (s : State) : Host.Outcome State Fault Refusal := finish (sensor 0 holds s)

/-- TAMPER_TEMP (R473): the junction has been beyond −25 or 125 °C for 1 ms, or is back. -/
def execTamperTemp (holds : Bool) (s : State) : Host.Outcome State Fault Refusal := finish (sensor 1 holds s)

/-- TAMPER_MESH (R473): the lid mesh reads open or shorted, or no longer. -/
def execTamperMesh (holds : Bool) (s : State) : Host.Outcome State Fault Refusal := finish (sensor 2 holds s)

/-- A store to EMR_ALARM_STAT clears LATCH bits written 1. -/
def alarmStatStore (bits : Nat) (s : State) : State :=
  alarmFall { s with emr := { s.emr with latch := s.emr.latch &&& (31 - bits % 32) } }

/-- ALARM_LATCH_CLEAR (R474). -/
def execAlarmLatchClear (bits : Fin 32) (s : State) : Host.Outcome State Fault Refusal := finish (alarmStatStore bits.val s)

/-- LIFECYCLE_WARM_RESET (R459, R474): 1 ms after DECOMMISSIONED was written. -/
def execLifecycleWarmReset (s : State) : Host.Outcome State Fault Refusal :=
  finish (match s.emr.resetDue with
    | some t => resetAsk false (advanceTo t { s with emr := { s.emr with resetDue := none } })
    | none => s)

/-! ### Emmor commands (R456-R460) -/

/-- A store to EMR_CMD (R459): ignored while BUSY; GO starts command OP. -/
def emrCmdStore (go : Bool) (op : Nat) (s : State) : State :=
  if s.emr.busy then s else { s with emr := { s.emr with op := op % 256, busy := go } }

def execGenIdentity (s : State) : Host.Outcome State Fault Refusal := finish (emrCmdStore true 1 s)
def execInstallChain (s : State) : Host.Outcome State Fault Refusal := finish (emrCmdStore true 2 s)
def execEnrollKey (s : State) : Host.Outcome State Fault Refusal := finish (emrCmdStore true 3 s)
def execRevokeKey (s : State) : Host.Outcome State Fault Refusal := finish (emrCmdStore true 4 s)
def execRaiseSvn (s : State) : Host.Outcome State Fault Refusal := finish (emrCmdStore true 5 s)
def execSeal (s : State) : Host.Outcome State Fault Refusal := finish (emrCmdStore true 6 s)
def execDecommission (s : State) : Host.Outcome State Fault Refusal := finish (emrCmdStore true 7 s)

/-- A number of EMR_CMDBUF. -/
def cbNat (s : State) (o n : Nat) : Nat := leNat (memRead s.emr.cmdbuf o n)

/-- The lifecycle states that a command's row lists (R459). -/
def emrState (s : State) (op : Nat) : Bool :=
  match op, s.emr.life with
  | 1, .manufacture => true
  | 1, .debugUnlocked => true
  | 2, .manufacture => cbNat s 0 1 == 0
  | 2, .debugUnlocked => cbNat s 0 1 == 0
  | 2, .provisioned => !(cbNat s 0 1 == 0)
  | 3, .provisioned => true
  | 4, .provisioned => true
  | 4, .sealed => true
  | 5, .provisioned => true
  | 5, .sealed => true
  | 6, .provisioned => true
  | 7, .decommissioned => false
  | 7, _ => true
  | _, _ => false

/-- The argument checks of a command beyond its states (R457-R460). -/
def emrCheck (s : State) (op : Nat) : Status :=
  match op with
  | 1 => .ok
  | 2 =>
    let n := cbNat s 4 4
    if 4 ≤ cbNat s 0 1 || 12288 < n || s.emr.wrapped.isNone || !(Config.chainOk (cbNat s 0 1) (memRead s.emr.cmdbuf 8 n) s.emr.modulus)
    then .invalid else .ok
  | 3 =>
    let n := cbNat s 0 1
    if n = 0 || 6 ≤ n then .invalid else if (keyOf_ s n).st = 0 then .ok else .conflict
  | 4 =>
    let n := cbNat s 0 1
    if 1 ≤ n && n ≤ 5 then .ok
    else if n = 0x10 || n = 0x11 then (if bit (word s.emr.fwRev) (1 - (n - 0x10)) then .conflict else .ok)
    else .invalid
  | 5 =>
    let n := cbNat s 0 1
    if 5 ≤ n then .invalid
    else if cbNat s 4 4 < (if n = 0 then s.emr.fwMin else (keyOf_ s n).minSvn) then .invalid else .ok
  | 6 =>
    if !(memRead s.emr.cmdbuf 0 8 == serialBytes) then .invalid
    else if (sfind? s.emr.chains 0).isSome && imageOk (activeImg s) && pathsOk (activeImg s) then .ok
    else .conflict
  | 7 => if memRead s.emr.cmdbuf 0 8 == serialBytes then .ok else .invalid
  | _ => .denied

/-- EMR_CMDBUF bytes that a command uses. -/
def emrUsed (s : State) (op : Nat) : Nat :=
  match op with
  | 2 => 8 + cbNat s 4 4 | 3 => 0x208 | 4 => 1 | 5 => 8 | 6 => 8 | 7 => 8 | _ => 0

/-- GEN_IDENTITY (R456). The output lies at offset 0, SERIAL after the modulus (log entry 48, DESIGN CHOICE). -/
def genIdentity (s : State) : State :=
  let m := leBytes 512 (Config.freeBig s.free).toNat
  drawFree (drawFree (drawFree { s with emr := { s.emr with
    secret := some ((Config.freeBig (s.free + 1)).toNat % 2 ^ 256), wrapped := some (Config.freeBig (s.free + 2)).toNat, modulus := m
    idok := true, cmdbuf := memWrite s.emr.cmdbuf 0 (m ++ serialBytes) } }))

/-- The effect of a command that passed every check. -/
def emrEffect (op : Nat) (s : State) : State :=
  let n := cbNat s 0 1
  match op with
  | 1 => genIdentity s
  | 2 =>
    let s1 := { s with emr := { s.emr with chains := sput s.emr.chains n (memRead s.emr.cmdbuf 8 (cbNat s 4 4)) } }
    if n = 0 then lifeWrite .provisioned s1 else s1
  | 3 => { s with emr := { s.emr with
      keys := sset {} s.emr.keys n { st := 1, minSvn := cbNat s 4 4, mod := memRead s.emr.cmdbuf 8 512 } } }
  | 4 =>
    if n ≤ 5 then { s with emr := { s.emr with keys := sset {} s.emr.keys n { keyOf_ s n with st := 2 } } }
    else { s with emr := { s.emr with fwRev := s.emr.fwRev ||| 2 ^ (n - 0x10) } }
  | 5 =>
    if n = 0 then { s with emr := { s.emr with fwMin := cbNat s 4 4 } }
    else { s with emr := { s.emr with keys := sset {} s.emr.keys n { keyOf_ s n with minSvn := cbNat s 4 4 } } }
  | 6 => lifeWrite .sealed s
  | 7 => decommission s
  | _ => s

/-- A command's status and effect (R459): its states, its checks, then its log entry. -/
def emrDo (s : State) : Status × State :=
  let op := s.emr.op
  if !(emrState s op) then (.denied, s)
  else match emrCheck s op with
    | .ok => match emrLog 4 0 0 op 0 (memRead s.emr.cmdbuf 0 (emrUsed s op)) s with
      | some s1 => (.ok, emrEffect op s1)
      | none => (.noSpace, s)
    | st => (st, s)

/-- EMR_COMMAND_DONE (R459): the running command ends (log entry 45, DEDUCED). -/
def execEmrCommandDone (s : State) : Host.Outcome State Fault Refusal :=
  finish (if !s.emr.busy then s
    else
      let r := emrDo s
      { r.2 with emr := { r.2.emr with busy := false, status := r.1.code } })

/-! ### Debug unlock (R477, R478) -/

/-- JTAG instructions that a lifecycle state accepts (R455); another is decoded as BYPASS. -/
def jtagOk (s : State) (code : Nat) : Bool :=
  if code = 0x02 || code = 0xFF then true
  else match s.emr.life with
    | .decommissioned => false
    | .sealed => code == 0x20 || code == 0x21 || (code == 0x22 && regFld s aDbgCfg 0 0 == 1)
    | _ => (code ≤ 6 : Bool) || code == 0x20 || code == 0x21 || code == 0x22

/-- The test access port runs while PWR_OK is high (R550), and takes a code. -/
def tapTakes (s : State) (code : Nat) : Bool := s.pwr.pwrOk && jtagOk s code

/-- The instruction register takes a code (R549); with PWR_OK low the port stays in reset. -/
def tapIr (code : Nat) (s : State) : State :=
  if s.pwr.pwrOk then { s with tap := { s.tap with ir := if jtagOk s code then code else 0xFF } } else s

/-- EMR_CHALLENGE (R477): a new nonce is drawn, and the last one is invalid. -/
def execEmrChallenge (s : State) : Host.Outcome State Fault Refusal :=
  let s1 := tapIr 0x20 s
  finish (if !(tapTakes s 0x20) then s1
    else
      let n := (Config.freeBig s.free).toNat % 2 ^ 256
      respond .jtag 0 [n, Config.serial.toNat, s.pwr.boots % 2 ^ 32, 0, 0, 0] (drawFree { s1 with emr := { s1.emr with nonce := some n } }))

/-- A field of a token: byte offset, bytes. -/
def tokFld (t : BitVec 8192) (o n : Nat) : Nat := t.toNat / 2 ^ (8 * o) % 2 ^ (8 * n)

/-- The fields of a token that must hold fixed values (R477, R478). -/
def tokenForm (s : State) (t : BitVec 8192) : Bool :=
  let au := regFld s aDbgCfg 3 2
  tokFld t 0 4 == 0x54445A4B && tokFld t 4 2 == 1 && (tokFld t 6 1 ≤ 1 : Bool) && bit (word au) (tokFld t 6 1) && tokFld t 7 1 == 0
    && tokFld t 8 8 == Config.serial.toNat && tokFld t 0x10 4 == s.pwr.boots % 2 ^ 32 && tokFld t 0x14 12 == 0
    && tokFld t 0x40 448 == 0 && s.emr.nonce == some (tokFld t 0x20 32)

/-- The token's signature verifies with the authority it names. -/
def tokenSig (s : State) (t : BitVec 8192) : Bool :=
  let m := leBytes 512 t.toNat
  let g := leBytes 512 (tokFld t 0x200 512)
  if tokFld t 6 1 = 0 then Config.romSigOk 1 m g
  else (keyOf_ s 5).st == 1 && Config.sigOk (keyOf_ s 5).mod m g

/-- Zeros are written to every enabled locked region (R478 step 2): local and shared memories of the Falgan cores. -/
def lockZero (s : State) : State :=
  s.gate.locks.foldl (fun s' p => if p.2.en then
      { s' with flg := { s'.flg with mem := memClear s'.flg.mem p.2.base (p.2.limit + 1 - p.2.base) } } else s') s

/-- An accepted token, R478. -/
def tokenAccept (s : State) : State :=
  let s1 := lockZero (secretErase (keysErase s))
  resetAsk false (lifeWrite .debugUnlocked { s1 with gate := { s1.gate with locks := [] } })

/-- EMR_TOKEN (R477, R478): a token is shifted in. Its log entry comes first; where the log is full it is refused. A refused
token spends its nonce, and a signature that does not verify counts under R475 (log entry 46, DEDUCED). -/
def execEmrToken (token : BitVec 8192) (s : State) : Host.Outcome State Fault Refusal :=
  let s1 := tapIr 0x21 s
  finish (if !(tapTakes s 0x21) then s1
    else
      let form := decide (s.emr.life = .sealed) && tokenForm s token
      let ok := form && tokenSig s token
      let spent := { s1 with emr := { s1.emr with nonce := none } }
      match emrLog 5 0 (b2n ok) 0 0 (leBytes 1024 token.toNat) spent with
      | none => spent
      | some s2 => if ok then tokenAccept s2 else if form then sigFail 3 s2 else s2)

end Sys2Proof.Machine
end

