-- ==== Sys2Proof/Machine/Spdm.lean ====
section
/-!
DEFINITION. Machine/Spdm.lean: the SPDM responder of the DOE mailboxes (R470, R471) and IDE_KM (R391). A request is in its mailbox
when DOE_REQUEST has made the mailbox busy. Response and error codes are those of DSP0274 and the object codes those of IDE_KM
(log entry 49, PRESUMED); a response is its code and its fields as words.
-/
namespace Sys2Proof.Machine

/-- A request is served only in a busy mailbox (log entry 31, DESIGN CHOICE). -/
def spdm (fn : Nat) (f : State → State) (s : State) : Host.Outcome State Fault Refusal :=
  finish (if (doeOf s fn).busy then f s else s)

/-- An ERROR response. -/
def spdmErr (fn code : Nat) (s : State) : State := doeReply fn [0x7F, code] s

/-- The connection state of a mailbox: 1 version, 2 capabilities, 3 algorithms. -/
def spdmSt (fn n v : Nat) (s : State) : State := doePut fn { doeOf s fn with spdm := n, ver := v } s

/-- A request that needs a connection state. -/
def spdmIn (fn n : Nat) (f : State → State) (s : State) : State :=
  if (doeOf s fn).spdm < n then spdmErr fn 4 s else f s

/-- GET_VERSION: SPDM 1.3 and 1.2. -/
def execGetVersion (fn : Nat) (s : State) : Host.Outcome State Fault Refusal :=
  spdm fn (fun s => doeReply fn [0x04, 0x13, 0x12] (spdmSt fn 1 0 s)) s

/-- GET_CAPABILITIES: CTExponent 18, and the capabilities CERT, CHAL, MEAS with signature, MEAS_FRESH, ENCRYPT, MAC, KEY_EX,
HBEAT, KEY_UPD. -/
def execGetCapabilities (fn ver : Nat) (s : State) : Host.Outcome State Fault Refusal :=
  spdm fn (spdmIn fn 1 (fun s =>
    if ver = 0x12 || ver = 0x13 then doeReply fn [0x61, 18, 0x62F6] (spdmSt fn 2 ver s) else spdmErr fn 0x41 s)) s

/-- NEGOTIATE_ALGORITHMS: whether each choice of the table is among those offered. -/
def execNegotiateAlgorithms (fn : Nat) (rsapss sha512 ffdhe aead meas : Bool) (s : State) : Host.Outcome State Fault Refusal :=
  spdm fn (spdmIn fn 2 (fun s =>
    if rsapss && sha512 && ffdhe && aead && meas then doeReply fn [0x63] (spdmSt fn 3 (doeOf s fn).ver s) else spdmErr fn 7 s)) s

/-- Certificate slots that are shown: none without identity. -/
def chainsOf (s : State) : List (Nat × List Byte) := if hasId s then s.emr.chains else []

/-- GET_DIGESTS: the slot mask and the digests of the chains. -/
def execGetDigests (fn : Nat) (s : State) : Host.Outcome State Fault Refusal :=
  spdm fn (spdmIn fn 3 (fun s =>
    let cs := chainsOf s
    doeReply fn ([0x01, (cs.map (fun c => 2 ^ c.1)).foldl (· + ·) 0] ++ cs.map (fun c => shaNat c.2)) s)) s

/-- GET_CERTIFICATE: a portion of a chain, and the length that remains. -/
def execGetCertificate (fn slot offset len : Nat) (s : State) : Host.Outcome State Fault Refusal :=
  spdm fn (spdmIn fn 3 (fun s =>
    match (chainsOf s).find? (fun c => c.1 == slot) with
    | none => spdmErr fn 1 s
    | some c =>
      if c.2.length ≤ offset then spdmErr fn 1 s
      else
        let p := (c.2.drop offset).take len
        doeReply fn [0x02, slot, p.length, c.2.length - offset - p.length, leNat p] s)) s

/-- A signature of the identity key over a response: its fields and the requester's nonce (log entry 50, PRESUMED). -/
def spdmSign (words : List Nat) (s : State) : Nat := (Config.sign s.emr.modulus s.free (words.flatMap (leBytes 64))).toNat

/-- The value of a measurement index, R471. -/
def measure (s : State) (i : Nat) : Option Nat :=
  let r := (curRec s).getD {}
  match i with
  | 1 => some Config.romDigest.toNat
  | 2 => some r.digFw
  | 3 => some r.digSet
  | 4 => some (shaNat (polBytes r))
  | 5 => some r.fwSvn
  | 6 => some (r.life + 256 * r.flags)
  | 7 => some r.digFh
  | 8 => some (chainC s)
  | 9 => some r.oasis
  | 0x10 => some (leNat (recBytes s r))
  | _ => none

/-- The DMTF type of an index. -/
def measType (i : Nat) : Nat :=
  match i with
  | 1 => 0 | 2 => 1 | 3 => 3 | 4 => 1 | 5 => 0x87 | 6 => 0x85 | 7 => 4 | 8 => 1 | 9 => 0x84 | _ => 0x84

/-- The indices of the table. -/
def measIdx : List Nat := [1, 2, 3, 4, 5, 6, 7, 8, 9, 0x10]

/-- Index, type and value of a measurement. -/
def measBlock (s : State) (i : Nat) : List Nat := match measure s i with | some v => [i, measType i, v] | none => []

/-- CHALLENGE: signed by the identity key; refused without identity. -/
def execChallenge (fn slot nonce : Nat) (s : State) : Host.Outcome State Fault Refusal :=
  spdm fn (spdmIn fn 3 (fun s =>
    match (chainsOf s).find? (fun c => c.1 == slot) with
    | none => spdmErr fn (if hasId s then 1 else 7) s
    | some c =>
      let w := [0x03, slot, shaNat c.2, (Config.freeBig (s.free + 1)).toNat % 2 ^ 256]
      doeReply fn (w ++ [spdmSign (nonce :: w) s]) (drawFree (drawFree s)))) s

/-- GET_MEASUREMENTS: index 0 asks for the number of indices, 0xFF for all of them; with a signature where one is asked for. -/
def execGetMeasurements (fn index : Nat) (sign : Bool) (nonce : Nat) (s : State) : Host.Outcome State Fault Refusal :=
  spdm fn (spdmIn fn 3 (fun s =>
    if sign && !(hasId s) then spdmErr fn 7 s
    else if !(index == 0) && !(index == 0xFF) && (measure s index).isNone then spdmErr fn 1 s
    else
      let w := 0x60 :: (if index = 0 then [measIdx.length] else if index = 0xFF then measIdx.flatMap (measBlock s) else measBlock s index)
      if sign then doeReply fn (w ++ [spdmSign (nonce :: w) s]) (drawFree s) else doeReply fn w s)) s

/-- Sessions of a mailbox. -/
def sessOf (s : State) (fn : Nat) : List Session := s.emr.sessions.filter (fun x => x.mb == fn)

/-- KEY_EXCHANGE (R470): at most 4 sessions in a mailbox and 64 in all. -/
def execKeyExchange (fn slot nonce : Nat) (s : State) : Host.Outcome State Fault Refusal :=
  spdm fn (spdmIn fn 3 (fun s =>
    if !(hasId s) then spdmErr fn 7 s
    else if ((chainsOf s).find? (fun c => c.1 == slot)).isNone then spdmErr fn 1 s
    else if 4 ≤ (sessOf s fn).length || 64 ≤ s.emr.sessions.length then spdmErr fn 0x0A s
    else
      let id := s.emr.nextSess
      let w := [0x64, id, (Config.freeBig (s.free + 1)).toNat, (Config.freeBig (s.free + 2)).toNat % 2 ^ 256]
      doeReply fn (w ++ [spdmSign (nonce :: w) s]) (drawFree (drawFree (drawFree { s with emr := { s.emr with
        nextSess := (id + 1) % 65536, sessions := s.emr.sessions ++ [{ mb := fn, id := id, est := false, time := s.time }] } }))))) s

/-- A session of a mailbox, established or not. -/
def sessHas (s : State) (fn id : Nat) (est : Bool) : Bool := s.emr.sessions.any (fun x => x.mb == fn && x.id == id && x.est == est)

/-- Changes a session. -/
def sessMap (fn id : Nat) (f : Session → Session) (s : State) : State :=
  { s with emr := { s.emr with sessions := s.emr.sessions.map (fun x => if x.mb = fn && x.id = id then f x else x) } }

/-- A session ends. -/
def sessEnd (fn id : Nat) (s : State) : State :=
  { s with emr := { s.emr with sessions := s.emr.sessions.filter (fun x => !(x.mb == fn && x.id == id)) } }

/-- FINISH: with a good MAC the session is secured; with a bad one it ends. -/
def execFinish (fn sess : Nat) (macOk : Bool) (s : State) : Host.Outcome State Fault Refusal :=
  spdm fn (fun s =>
    if !(sessHas s fn sess false) then spdmErr fn 1 s
    else if macOk then doeReply fn [0x65] (sessMap fn sess (fun x => { x with est := true, time := s.time }) s)
    else spdmErr fn 6 (sessEnd fn sess s)) s

/-- A request inside an established session. -/
def inSess (fn sess : Nat) (f : State → State) (s : State) : State :=
  if sessHas s fn sess true then f (sessMap fn sess (fun x => { x with time := s.time }) s) else spdmErr fn 1 s

/-- KEY_UPDATE: operation 1 one key, 2 all keys, 3 verify. -/
def execKeyUpdate (fn sess op : Nat) (s : State) : Host.Outcome State Fault Refusal :=
  spdm fn (inSess fn sess (fun s => if 1 ≤ op && op ≤ 3 then doeReply fn [0x69, op] s else spdmErr fn 1 s)) s

/-- HEARTBEAT. -/
def execSpdmHeartbeat (fn sess : Nat) (s : State) : Host.Outcome State Fault Refusal :=
  spdm fn (inSess fn sess (fun s => doeReply fn [0x68] s)) s

/-- END_SESSION. -/
def execEndSession (fn sess : Nat) (s : State) : Host.Outcome State Fault Refusal :=
  spdm fn (inSess fn sess (fun s => doeReply fn [0x6C] (sessEnd fn sess s))) s

/-! ### IDE_KM (R390-R392) -/

/-- State of a stream: 0 off, 1 keys set, 2 Secure, 3 Insecure (R405). -/
def ideSt (x : CxpPort) (stream : Nat) : Nat := if stream = 0 then x.ideIo else x.ideCm

/-- Sets it. -/
def ideStPut (x : CxpPort) (stream v : Nat) : CxpPort := if stream = 0 then { x with ideIo := v } else { x with ideCm := v }

/-- A key is programmed: both directions of the set make the stream's keys set. -/
def ideProg (x : CxpPort) (stream dir set key : Nat) : CxpPort :=
  let x1 := { x with keys := sput x.keys (stream * 4 + dir * 2 + set) key }
  if (sfind? x1.keys (stream * 4 + set)).isSome && (sfind? x1.keys (stream * 4 + 2 + set)).isSome && !(ideSt x stream == 2)
  then ideStPut x1 stream 1 else x1

/-- A key set goes into use in one direction: keys 2 + 2 × stream + direction of `keySet` hold the set plus one. Both directions
in use with one set make the stream Secure. -/
def ideGo (x : CxpPort) (stream dir set : Nat) : CxpPort :=
  if (sfind? x.keys (stream * 4 + dir * 2 + set)).isNone then x
  else
    let x1 := { x with
      keySet := sset 0 (sset 0 x.keySet (2 + stream * 2 + dir) (set + 1)) stream set
      keyCnt := sset 0 x.keyCnt (stream * 2 + dir) 0 }
    if sget 0 x1.keySet (2 + stream * 2) = set + 1 && sget 0 x1.keySet (3 + stream * 2) = set + 1 then ideStPut x1 stream 2 else x1

/-- A key set is stopped in one direction: its key is erased, and the stream is Insecure. -/
def ideStop (x : CxpPort) (stream dir set : Nat) : CxpPort :=
  let x1 := { x with keys := sdel x.keys (stream * 4 + dir * 2 + set), keySet := sset 0 x.keySet (2 + stream * 2 + dir) 0 }
  if ideSt x stream = 0 then x1 else ideStPut x1 stream 3

/-- VENDOR_DEFINED_REQUEST of IDE_KM (R391): object 0 QUERY, 2 KEY_PROG, 4 K_SET_GO, 5 K_SET_STOP, in an established session of
a mailbox on a host port (or a fabric port where the device responds). Any other vendor request is unsupported. -/
def execVendorDefinedRequest (fn sess obj : Nat) (stream dir set : Fin 2) (key : BitVec 256) (s : State) :
    Host.Outcome State Fault Refusal :=
  spdm fn (inSess fn sess (fun s =>
    match portOfVcs? s (mbVcs fn) with
    | none => spdmErr fn 1 s
    | some p =>
      let x := cxpOf s p
      if ideRequester s p then spdmErr fn 7 s
      else match obj with
        | 0 => doeReply fn [0x7E, 1, p, x.ideIo, x.ideCm] s
        | 2 => doeReply fn [0x7E, 3, p, 0] (cxpPut p (ideProg x stream.val dir.val set.val key.toNat) s)
        | 4 => doeReply fn [0x7E, 6, p] (cxpPut p (ideGo x stream.val dir.val set.val) s)
        | 5 => doeReply fn [0x7E, 6, p] (cxpPut p (ideStop x stream.val dir.val set.val) s)
        | _ => spdmErr fn 7 s)) s

end Sys2Proof.Machine
end

