-- ==== Sys2Proof/Machine/View.lean ====
section
/-!
DEFINITION. Machine/View.lean: device control space as loads and stores see it (R249, R253): what every register address reads
as, and what a store to it does, by the field maps of the chapters.
-/
namespace Sys2Proof.Machine

/-- The index of an address in an array of `n` items of `stride` bytes from `base`: the item and the word within it. -/
def arrIdx (a base stride n : Nat) : Option (Nat × Nat) :=
  if base ≤ a ∧ a < base + stride * n then some ((a - base) / stride, (a - base) % stride / 8) else none

/-! ### Tables of chapters 02 and 03 -/

/-- A domain entry, R29. -/
def domWord (d : Domain) (k : Nat) : Word :=
  match k with
  | 0 => word (at_ (b2n d.valid) 63 + at_ d.st.code 60 + at_ d.mapBase 42 + d.wall)
  | 1 => word (at_ d.qos 40 + at_ d.hosts 33 + at_ d.winCount 16 + b2n d.kmd)
  | 2 => word (at_ d.privSize 38 + at_ d.scohSize 19 + d.sncoSize)
  | _ => 0

/-- A window entry, R39. -/
def winWord (w : Window) (k : Nat) : Word :=
  if k = 0 then word (at_ (b2n w.valid) 63 + at_ w.mode.code 61 + at_ (b2n w.drain) 60 + at_ (b2n w.wp) 59 + at_ w.dom 46 + at_ w.vcs 40
      + at_ w.dec 37 + w.hpa)
  else word (at_ w.gen 56 + at_ w.size 37 + w.da)

/-- A rule slot, R66: addresses are held in place. -/
def ruleWord (r : Rule) (k : Nat) : Word :=
  match k with
  | 0 => word (at_ (b2n r.valid) 63 + at_ (b2n r.das) 62 + at_ (b2n r.last) 61 + at_ (b2n r.staged) 60 + at_ r.dom 45
      + at_ (if r.last then 0 else r.next) 16 + at_ r.p3 12 + at_ r.p2 8 + at_ r.p1 4 + r.p0)
  | 1 => word (r.start / 64 * 64)
  | 2 => word (r.limit / 64 * 64)
  | _ => word (at_ r.gen 56)

/-- A list head, R68. -/
def headWord (h : GHead) : Word := word (at_ (b2n h.pin) 63 + at_ h.count 32 + h.head)

/-- Gate registers, R85, by offset. -/
def gateWord (s : State) (o : Nat) : Word :=
  if o = 8 then word s.gate.violDrop
  else if o = 0x10 then word (at_ (pinnedRules s) 32 + s.gate.gen % 2 ^ 32)
  else match arrIdx o 0x100 16 8 with
    | some (n, 0) => let l := sget {} s.gate.locks n; word (at_ (b2n l.en) 63 + l.base / 64 * 64 % 2 ^ 48)
    | some (n, _) => let l := sget {} s.gate.locks n; word (l.limit / 64 * 64)
    | none => 0

/-! ### Chapter 04 -/

/-- A mirror session, R125. -/
def mirrorWord (m : Mirror) (k : Nat) : Word :=
  match k with
  | 0 => word (at_ (b2n m.en) 63 + at_ (b2n m.flow) 62 + at_ m.dir 60 + at_ m.src 48 + at_ m.dest 34 + at_ m.dom 16 + at_ m.msgs 8 + m.snap)
  | 1 => word (m.daStart / 64 * 64)
  | 2 => word (m.daLimit / 64 * 64)
  | _ => word (m.seq % 2 ^ 32)

/-- Erg registers, R125, by offset. -/
def ergWord (s : State) (o : Nat) : Word :=
  let p := s.erg.part
  if o = 0 then word (at_ p.poolMib 48 + at_ p.trlTiles 44 + at_ p.lcMib 32 + at_ p.replayMib 24 + at_ p.ringMib 16 + at_ 16 8 + p.source)
  else if o = 8 then word (at_ s.erg.shared 32 + sharedFree s)
  else if 0x100 ≤ o ∧ o < 0x140 then word (alphaCode s ((o - 0x100) / 8))
  else if o = 0x60008 then
    word (at_ s.erg.cyc.1 32 + at_ s.erg.cyc.2.1 16 + at_ s.erg.cyc.2.2.1 1 + b2n s.erg.cyc.2.2.2)
  else if o = 0x60010 then word (at_ s.erg.ecc.1 32 + s.erg.ecc.2)
  else if o = 0x60018 then (fltDetail s 3).headD 0
  else match arrIdx o 0x10000 8 768 with
    | some (k, _) =>
      let a := acctOf s k
      if k % 8 = 7 then 0 else word (at_ a.s 34 + at_ a.r 19 + (if isTrlPort s (k / 8) then 0 else a.res))
    | none => match arrIdx o 0x20000 16 96 with
      | some (n, 0) => let q := sget {} s.erg.pqos n; word (at_ q.q6 48 + at_ q.q5 32 + at_ q.q4 16 + q.q3)
      | some (n, _) => word (sget {} s.erg.pqos n).rxclass
      | none => match arrIdx o 0x30000 8 256 with
        | some (n, _) => let x := sget {} s.erg.prof n; word (at_ x.cls 16 + x.quantum)
        | none => match arrIdx o 0x40000 8 24 with
          | some (t, _) => word (at_ (sget (15, 384) s.erg.pace t).1 58 + at_ (acctOf s (1000 + 4 * t)).r 43 + (sget (15, 384) s.erg.pace t).2)
          | none => match arrIdx o 0x50000 32 64 with
            | some (n, k) => mirrorWord (sget {} s.erg.mirrors n) k
            | none => match arrIdx o 0x51000 8 64 with
              | some (n, _) => word (sget {} s.erg.mirrors n).drop
              | none => 0

/-! ### Chapters 05 and 06 -/

/-- Coherence registers, R161, by offset. -/
def cohWord (s : State) (o : Nat) : Word :=
  if o = 8 then word s.coh.peak
  else if o = 0x10 then (fltDetail s fCohBisnpTimeout).headD 0
  else if o = 0x18 then (fltDetail s fCohBisnpTimeout).getD 1 0
  else if o = 0x20 then let e := s.coh.ecc; word (at_ e.1 48 + at_ e.2.1 32 + at_ e.2.2.1 16 + e.2.2.2)
  else if o = 0x28 then word s.coh.late
  else match arrIdx o 0x100 8 64 with
    | some (n, _) => word (at_ (sget 0 s.coh.rr n) 32 + at_ (trackers s n) 14 + at_ (s.coh.victims.filter (fun k => sliceOf k == n)).length 7)
    | none => 0

/-- Atomics at a Meld unit that hold a tracker (R164). -/
def meldReqs (s : State) (n : Nat) : List Req :=
  s.reqs.filter (fun r => (match r.op with | .atomic _ _ _ _ _ => true | _ => false) && sliceOf (keyOf r.dom r.da) == n
    && !(decide (r.phase = .meldTracker)) && (match r.phase with | .gateFill => false | .ready => false | .remoteWait => false | _ => true))

/-- Meld registers, R183, by offset. -/
def meldWord (s : State) (o : Nat) : Word :=
  if o = 0x10 then word (at_ s.meld.acc.1 16 + s.meld.acc.2)
  else if o = 0x18 then word s.meld.farTo
  else if o = 0x20 then word s.meld.late
  else match arrIdx o 0x100 8 64 with
    | some (n, _) => word (at_ (meldReqs s n).length 32 + at_ ((meldReqs s n).map (fun r => keyOf r.dom r.da)).eraseDups.length 16)
    | none => 0

/-- A store to MELD_PRED_ACC (R181, R183): WR = 1 writes COUNTER into entry INDEX, WR = 0 loads it. -/
def predAcc (wr : Bool) (counter index : Nat) (s : State) : State :=
  if wr then predPut index counter { s with meld := { s.meld with acc := (counter, index) } }
  else { s with meld := { s.meld with acc := (predOf s index, index) } }

/-! ### Chapters 07 and 08 -/

/-- A constraint record, R216. -/
def dconWord (s : State) (d k : Nat) : Word :=
  let c := conOf s d
  match k with
  | 0 => word (at_ c.pinTier 60 + at_ c.fill 56 + at_ (b2n c.duplex) 55 + at_ (b2n c.heatOff) 54 + at_ c.migCap 40 + c.quota)
  | 1 => word (at_ (oasisUsed s d) 28 + rdupCount s d)
  | 6 => 0
  | 7 => 0
  | k => word (c.devset / 2 ^ (64 * (k - 2)) % 2 ^ 64)

/-- Dealer registers, R220, by offset. -/
def dlrWord (s : State) (o : Nat) : Word :=
  if o = 0x18 then word (at_ s.dlr.epochs 32 + s.dlr.lastMs)
  else if o = 0x20 then word s.dlr.repDrop
  else if o = 0x28 then word (poolFree s)
  else if o = 0x30 then word s.dlr.promises
  else if o = 0x38 then word (at_ (s.dlr.nearTotal - s.oas.retired.length) 32 + rcount s.dlr.near)
  else match arrIdx o 0x1000 16 255 with
    | some (n, 0) => let d := devOf s n; word (at_ d.st.code 61 + at_ (b2n d.bound) 60 + at_ d.rank 56 + at_ d.port 48 + d.cap)
    | some (n, _) => word (rcount (devOf s n).free)
    | none => match arrIdx o 0x2000 16 32 with
      | some (n, 0) => let c := carOf s n; word (at_ c.st.code 61 + at_ c.cursor 48 + at_ c.dom 28 + c.idx)
      | some (n, _) => let c := carOf s n; word (at_ c.done 32 + c.aborted)
      | none => 0

/-- STATE of a subchannel: 1 queued, 2 retraining. -/
def subState (s : State) (n : Nat) : Nat :=
  match s.oas.active with
  | some (k, _) => if k = n then 2 else b2n (s.oas.queue.contains n)
  | none => b2n (s.oas.queue.contains n)

/-- Oasis registers, R241, by offset. -/
def oasWord (s : State) (o : Nat) : Word :=
  if o = 0 then word ((regGet s aOasCfg).toNat + s.oas.rate)
  else if o = 8 then
    word (at_ (b2n s.oas.active.isSome) 62 + at_ (match s.oas.active with | some (k, _) => k | none => 0) 8 + regFld s aOasRetrain 5 0)
  else if o = 0x10 then word (at_ s.oas.retired.length 48 + at_ s.oas.ecc.1 32 + s.oas.ecc.2)
  else if o = 0x18 then (fltDetail s 98).headD 0
  else match arrIdx o 0x40 8 8 with
    | some (k, _) => let t := sget (0, 0) s.oas.therm k; word (at_ t.1 14 + t.2)
    | none => match arrIdx o 0x100 8 64 with
      | some (n, _) =>
        let x := subOf s n
        word (at_ (subState s n) 62 + at_ (b2n x.light) 61 + at_ x.temp 48 + at_ x.margin 40 + at_ x.fullMs 26 + x.count)
      | none => 0

/-! ### Chapters 09 to 11 -/

/-- Falgan registers, R280, R310, R543, by offset. -/
def flgWord (s : State) (o : Nat) : Word :=
  if o = 0x600 then let e := s.flg.ecc; word (at_ e.1 48 + at_ e.2.1 32 + at_ e.2.2.1 16 + e.2.2.2)
  else if o = 0x1000 then word (at_ (regFld s 0x24901000 63 63) 63 + at_ (b2n s.pwr.idle) 62 + at_ s.pwr.lastWake 32 + s.pwr.entries)
  else match arrIdx o 0x200 16 64 with
    | some (n, 0) => (coreStat (coreOf s n)).1
    | some (n, _) => (coreStat (coreOf s n)).2
    | none => 0

/-- Ring registers, R339, by offset. -/
def qringWord (s : State) (o : Nat) : Word :=
  match arrIdx o 0 16 1024 with
  | some (n, 0) =>
    let r := ringOf s n
    word (at_ (b2n r.en) 63 + at_ (b2n r.spill) 62 + at_ r.portal 59 + at_ r.depth 55 + at_ (b2n r.p2en) 54 + at_ r.p2core 48 + at_ r.dom 36 + r.base)
  | some (n, _) => let r := ringOf s n; word (at_ r.idle 44 + at_ r.wmark 27 + at_ r.spDepth 22 + r.spBase)
  | none => match arrIdx o 0x8000 32 1024 with
    | some (n, 0) => let r := ringOf s n; word (at_ r.w 32 + r.rd)
    | some (n, 1) => let r := ringOf s n; word (at_ r.rel 32 + r.mark)
    | some (n, 2) => let r := ringOf s n; word (at_ r.spilled.length 32 + at_ r.poisonN 16 + r.cfgErr)
    | _ => 0

/-- R329. -/
def IState.code : IState → Nat
  | .idle => 0 | .pending => 1 | .active => 2 | .activePending => 3

/-- Interrupt registers, R340, by offset. -/
def icuWord (s : State) (o : Nat) : Word :=
  if o = 0x10010 then word s.icu.strandedN
  else match arrIdx o 0 8 8192 with
    | some (n, _) =>
      let x := srcOf s n
      word (at_ x.st.code 62 + at_ x.claimer 56 + at_ (b2n (x.levelIn && !(srcEdge n x))) 55 + at_ (b2n (srcEdge n x)) 18 + at_ (b2n x.wake) 17
        + at_ (b2n x.en) 16 + at_ x.prio 12 + x.target)
    | none => match arrIdx o 0x10100 8 64 with
      | some (n, _) =>
        let l := stackIcu s n
        word (at_ l.length 32 + (match l with | e :: _ => at_ 1 15 + e.1 | [] => 0))
      | none => 0

/-! ### Chapters 12 to 14 -/

/-- Lane registers, R372, by offset. -/
def laneWord (s : State) (o : Nat) : Word :=
  if o = 8 then word (at_ (b2n s.lane.tilesrc) 3 + at_ (b2n s.lane.tsrc) 2 + at_ (b2n s.lane.holdover) 1 + b2n s.lane.slewing)
  else match arrIdx o 0x100 8 24 with
    | some (t, _) => tileCfg s t
    | none => match arrIdx o 0x200 8 24 with
      | some (t, _) => let x := tileOf s t; word (at_ (b2n x.clkok) 63 + at_ (b2n x.check) 62 + at_ x.util 48 + x.steps)
      | none => match arrIdx o 0x10000 8 432 with
        | some (l, _) =>
          let x := laneOf s l
          word (at_ x.st 61 + at_ x.logical 56 + at_ x.sub 54 + at_ (b2n x.polinv) 53 + at_ (b2n x.light) 52 + at_ (b2n x.fullchk) 51
            + at_ x.eyeH 40 + at_ x.eyeW 32 + x.errs)
        | none => match arrIdx o 0x20000 8 432 with
          | some (l, _) => let x := laneOf s l; word (at_ x.preset 32 + at_ x.cm2 24 + at_ x.cm1 16 + at_ x.c0 8 + x.cp1)
          | none => 0

/-- CXL port registers, R405, by offset. -/
def cxpWord (s : State) (o : Nat) : Word :=
  if o = 0x10 then word s.cxp.noroute
  else match arrIdx o 0x800 16 96 with
    | some (p, 0) =>
      let x := cxpOf s p
      word (at_ x.link 61 + at_ x.flit 59 + at_ x.rate 56 + at_ x.width 51 + at_ (b2n x.io) 50 + at_ (b2n x.mem) 49 + at_ (b2n x.cache) 48
        + at_ (b2n x.degraded) 47 + at_ x.ideIo 45 + at_ x.ideCm 43 + at_ (b2n x.pbr) 42 + at_ x.viral 32 + x.pauses)
    | some (p, _) => let x := cxpOf s p; word (at_ x.cto 42 + at_ x.late 21 + x.dup)
    | none => 0

/-- TRL registers, R431, by offset. -/
def trlWord (s : State) (o : Nat) : Word :=
  if o = 0 then word ((regGet s aTrlCfg).toNat + s.trl.selfId)
  else if o = 8 then s.trl.fabric
  else match arrIdx o 0x400 32 24 with
    | some (t, k) =>
      let x := trlOf s t
      (match k with
       | 0 => word (at_ x.st 61 + at_ x.peer 57 + at_ x.peerPort 50 + at_ x.delay 40 + x.session)
       | 1 => word (at_ x.txSeq 48 + at_ (match x.held with | f :: _ => f.seq | [] => x.txSeq) 32 + at_ x.rxe 16
           + (x.held.filter (fun f => f.spill)).length)
       | 2 => word (at_ x.replays 32 + x.badN)
       | _ => word (at_ x.dups 32 + x.stalls))
    | none => 0

/-! ### Chapters 16 to 20 -/

/-- Emmor registers, R479, by offset. -/
def emrWord (s : State) (o : Nat) : Word :=
  if o = 0 then word (at_ (s.pwr.boots % 2 ^ 32) 32 + at_ (b2n s.emr.idok) 10 + at_ (b2n s.emr.alarmN) 9 + at_ (regFld s aAlarmCfg 63 63) 8
      + s.emr.life.code)
  else if o = 0x10 then alarmStat s
  else if o = 0x20 then word (at_ s.emr.fwRev 32 + s.emr.fwMin)
  else if o = 0x28 then word s.emr.log.length
  else if o = 0x100 then word (at_ (b2n s.emr.busy) 62 + at_ s.emr.status 40 + s.emr.op)
  else if 0x4000 ≤ o ∧ o < 0x8000 then word (cbNat s (o - 0x4000) 8)
  else match arrIdx o 0x40 8 5 with
    | some (n, _) => let k := keyOf_ s (n + 1); word (at_ k.st 62 + k.minSvn)
    | none => 0

/-- Fault registers, R498, by offset. -/
def fltWord (s : State) (o : Nat) : Word :=
  if o = 8 then word (at_ (b2n s.flt.terminal) 63 + at_ (b2n s.flt.devpend) 62 + at_ (s.flt.last.getD 0) 32 + s.flt.supp)
  else if o = 0x18 then
    word (at_ (s.flt.recno % 2 ^ 32) 32 + ((s.flt.main ++ s.flt.prot).foldl (fun m r => min m r.recno) s.flt.recno) % 2 ^ 32)
  else match arrIdx o 0x1000 8 2048 with
    | some (n, _) =>
      (match fltInfo n with
       | none => 0
       | some (sc, _, fl) =>
         let x := fltOf s n
         word (at_ (b2n x.latch) 63 + at_ (sevOf s n) 59 + at_ fl 56 + at_ x.lastSev 53 + at_ sc.code 51 + x.count))
    | none => 0

/-- Monitoring registers, R512, by offset. -/
def pmuWord (s : State) (o : Nat) : Word :=
  match arrIdx o 0 16 3072 with
  | some (n, 0) => (sget {} s.pmu.cnts n).cfg
  | some (n, _) => word (sget {} s.pmu.cnts n).value
  | none => match arrIdx o 0x10000 8 2 with
    | some (n, _) => let x := smpSrc s n; word (at_ x.dropped 32 + x.missed)
    | none => match arrIdx o 0x20000 512 96 with
      | some (p, k) =>
        let b := bwOf s p
        if k = 0 then word (at_ (b2n b.en) 63 + b.window)
        else if k = 1 then word (at_ b.seq 32 + b.newest)
        else if k < 34 then word (if k % 2 = 0 then (sget (0, 0) b.hist (k / 2 - 1)).1 else (sget (0, 0) b.hist (k / 2 - 1)).2)
        else 0
      | none => 0

/-- Slot power registers, R525, by offset. -/
def spcWord (s : State) (o : Nat) : Word :=
  match arrIdx o 0x400 16 32 with
  | some (n, 0) =>
    let c := spcOf s n
    word (at_ c.st 60 + at_ (b2n c.feed) 59 + at_ (b2n c.pg) 58 + at_ (b2n c.ew) 57 + at_ (b2n c.prsnt) 56 + at_ (b2n c.timer) 55 + at_ c.last 51
      + at_ c.retries 48 + at_ c.events 32 + c.trips)
  | some (n, _) => let m := (spcOf s n).meas; word (at_ m.1 52 + at_ m.2.1 41 + at_ m.2.2.1 30 + at_ m.2.2.2 19)
  | none => 0

/-- NVM registers, R543, by offset. -/
def nvmWord (s : State) (o : Nat) : Word :=
  if o = 0 then word (at_ (b2n s.pwr.writing) 63 + at_ (b2n s.pwr.activeB) 62 + at_ (b2n s.pwr.copyB.ok) 61 + at_ (b2n s.pwr.copyA.ok) 60
      + (if (setCopy s s.pwr.activeB).ok then (setCopy s s.pwr.activeB).gen else 0) % 2 ^ 32)
  else match arrIdx o 0x1000 8 2048 with
    | some (n, _) => word (wearOf s n)
    | none => 0

/-! ### The whole of device control space -/

/-- What the 8-byte word at an aligned address of device control space reads as; an unassigned one reads 0 (R249). Core windows
are memory (R251). -/
def devWord (s : State) (a : Nat) : Word :=
  if 0x2C000000 ≤ a then (match memAddr 0 a with | some x => word (memNat s x 8) | none => 0)
  else if 0x26000000 ≤ a ∧ a < 0x26040000 then (slotWords (slotOf s ((a - 0x26000000) / 64))).getD (a % 64 / 8) 0
  else match arrIdx a 0x24000000 32 4096 with
    | some (d, k) => domWord (domOf s d) k
    | none => match arrIdx a 0x24020000 16 65536 with
      | some (n, k) => winWord (sget {} s.dom.wins n) k
      | none => match arrIdx a 0x24200000 32 16384 with
        | some (n, k) => ruleWord (ruleOf s n) k
        | none => match arrIdx a 0x24280000 8 4097 with
          | some (l, _) => headWord (headOf s l)
          | none => match arrIdx a 0x24800000 64 4096 with
            | some (d, k) => dconWord s d k
            | none =>
              if a = 0x24740000 || a = 0x24740008 then oasWord s (a - 0x24740000)
              else if a = aTrlCfg then trlWord s 0
              else if a = 0x24901000 then flgWord s 0x1000
              else if a = aTrlNoRoute || (regDesc a).isSome then regGet s a
              else if a < 0x24290000 then 0
              else if a < 0x24300000 then gateWord s (a - 0x24290000)
              else if a < 0x24400000 then 0
              else if a < 0x24500000 then ergWord s (a - 0x24400000)
              else if a < 0x24600000 then cohWord s (a - 0x24500000)
              else if a < 0x24700000 then meldWord s (a - 0x24600000)
              else if a < 0x24740000 then dlrWord s (a - 0x24700000)
              else if a < 0x24800000 then oasWord s (a - 0x24740000)
              else if a < 0x24900000 then 0
              else if a < 0x24A00000 then flgWord s (a - 0x24900000)
              else if a < 0x24B00000 then qringWord s (a - 0x24A00000)
              else if a < 0x24C00000 then icuWord s (a - 0x24B00000)
              else if a < 0x24D00000 then laneWord s (a - 0x24C00000)
              else if a < 0x24E00000 then cxpWord s (a - 0x24D00000)
              else if a < 0x24F00000 then trlWord s (a - 0x24E00000)
              else if a < 0x25000000 then emrWord s (a - 0x24F00000)
              else if a < 0x25100000 then fltWord s (a - 0x25000000)
              else if a < 0x25200000 then pmuWord s (a - 0x25100000)
              else if a < 0x25300000 then spcWord s (a - 0x25200000)
              else if a < 0x25400000 then nvmWord s (a - 0x25300000)
              else 0

/-- CXP_PBR_RT (R405): PORT must be a CXL fabric port. -/
def rtStore (a : Nat) (v : Word) (s : State) : State :=
  if portRole s (fld v 6 0) = 3 && !(isTrlPort s (fld v 6 0)) then storeReg s a v else storeReg s a (setFld v 6 0 (regFld s a 6 0))

/-- A store of a whole word to device control space, at P1 or above, by a core or by another master; the field maps' access
codes (R6) and the effects of the chapters. -/
def devStore (by_ : Option Nat) (a : Nat) (v : Word) (s : State) : State :=
  if a = 0x24460018 then
    (if bit v 63 then { s with erg := { s.erg with eccLast := (false, s.erg.eccLast.2) } } else s)
  else if a = 0x24500010 then (if bit v 63 then { s with coh := { s.coh with toLast := (false, s.coh.toLast.2) } } else s)
  else if a = aMeldPredAcc then predAcc (bit v 63) (fld v 17 16) (fld v 14 0) s
  else if a = aOasRetrain then
    (if bit v 63 then retrainReq (fld v 5 0) s else storeReg s a v)
  else if a = 0x24740018 then (if bit v 63 then { s with oas := { s.oas with eccLast := (false, s.oas.eccLast.2) } } else s)
  else if a = aIcuFallback then strandScan (storeReg s a v)
  else if a = 0x24B10008 then icuSwset (fld v 5 0) s
  else if a = 0x24F00010 then alarmStatStore (fld v 4 0) s
  else if a = 0x24F00100 then emrCmdStore (bit v 63) (fld v 7 0) s
  else if 0x24F04000 ≤ a ∧ a < 0x24F08000 then
    { s with emr := { s.emr with cmdbuf := memWrite s.emr.cmdbuf (a - 0x24F04000) (leBytes 8 v.toNat) } }
  else match arrIdx a 0x24900000 8 64 with
    | some (n, _) => coreCtl by_ n v s
    | none => match arrIdx a 0x24A00000 16 1024 with
      | some (n, 0) => ringCfg0 n v s
      | some (n, _) => ringCfg1 n v s
      | none => match arrIdx a 0x24B00000 8 8192 with
        | some (n, _) => icuStore n v s
        | none => match arrIdx a (aCxpRt 0) 8 4096 with
          | some _ => rtStore a v s
          | none => match arrIdx a 0x25001000 8 2048 with
            | some (n, _) => fltStore n (fld v 61 59) (bit v 62) (bit v 63) s
            | none => match arrIdx a 0x25120000 512 96 with
              | some (p, 0) => bwStore p (bit v 63) (fld v 19 0) s
              | some _ => s
              | none => match arrIdx a 0x25200200 8 32 with
                | some (n, _) => spcCtl n (bit v 3) (bit v 2) (bit v 1) s
                | none => match arrIdx a 0x25200400 16 32 with
                  | some (n, 0) => spcStatStore n (fld v 35 32) s
                  | some _ => s
                  | none => storeReg s a v

/-- REGISTER_WRITE (R6): a store of a word to a register of device control space, below the core windows. -/
def execRegisterWrite (addr : BitVec 48) (value : Word) (s : State) : Host.Outcome State Fault Refusal :=
  let a := addr.toNat
  finish (if 0x20000000 ≤ a && a < 0x2C000000 && a % 8 == 0 then devStore none a value s else s)

/-- MELD_PRED_WRITE (R181). -/
def execMeldPredWrite (counter : Fin 4) (index : Fin 32768) (s : State) : Host.Outcome State Fault Refusal :=
  finish (predAcc true counter.val index.val s)

/-- MELD_PRED_LOAD (R181). -/
def execMeldPredLoad (index : Fin 32768) (s : State) : Host.Outcome State Fault Refusal :=
  finish (predAcc false 0 index.val s)

end Sys2Proof.Machine
end

