-- ==== Sys2Proof/Machine/Falgan.lean ====
section
/-!
DEFINITION. Machine/Falgan.lean: the base instruction set of a Falgan core (spec 09 R249-R280): arithmetic, loads and stores, local
atomics, branches and jumps, control registers, system instructions, and taking an interrupt. A command names a core and the
fields of the instruction at its PC; fields that the instruction does not use are operands too, and raise ILLEGAL (R260).
-/
namespace Sys2Proof.Machine

/-- gd receives a value computed from the registers. -/
def aluRun (n insn gd : Nat) (legal : Bool) (v : Core → Word) (s : State) : State :=
  start n insn (fun _ => 0) (fun s => if legal then retireWith n gd (v (coreOf s n)) s else illegal n insn s) s

/-- A register-register instruction: ga and gb. -/
def rrRun (n cls gd ga gb fn : Nat) (v : Word → Word → Word) (s : State) : State :=
  aluRun n (encRR cls gd ga gb fn) gd true (fun c => v (gReg c ga) (gReg c gb)) s

/-- CLZ, CTZ, POPC: gb must be 0. -/
def rrOne (n gd ga gb fn : Nat) (v : Word → Nat) (s : State) : State :=
  aluRun n (encRR 0 gd ga gb fn) gd (gb == 0) (fun c => word (v (gReg c ga))) s

/-- Zero bits above the highest set bit of an m-bit number. -/
def clzOf : Nat → Nat → Nat
  | 0, _ => 0
  | m + 1, v => if v / 2 ^ m % 2 = 1 then 0 else 1 + clzOf m v

/-- Zero bits below the lowest set bit of an m-bit number. -/
def ctzOf : Nat → Nat → Nat
  | 0, _ => 0
  | m + 1, v => if v % 2 = 1 then 0 else 1 + ctzOf m (v / 2)

/-- An integer as a word. -/
def intWord (i : Int) : Word := BitVec.ofInt 64 i

/-- A truth value as a word. -/
def boolWord (b : Bool) : Word := word (b2n b)

/-! ### ALU-RR (R261) -/

def execAdd (core gd ga gb : Fin 64) (s : State) : Host.Outcome State Fault Refusal := finish (rrRun core 0 gd ga gb 1 (fun a b => a + b) s)
def execSub (core gd ga gb : Fin 64) (s : State) : Host.Outcome State Fault Refusal := finish (rrRun core 0 gd ga gb 2 (fun a b => a - b) s)
def execAnd (core gd ga gb : Fin 64) (s : State) : Host.Outcome State Fault Refusal := finish (rrRun core 0 gd ga gb 3 (fun a b => a &&& b) s)
def execOr (core gd ga gb : Fin 64) (s : State) : Host.Outcome State Fault Refusal := finish (rrRun core 0 gd ga gb 4 (fun a b => a ||| b) s)
def execXor (core gd ga gb : Fin 64) (s : State) : Host.Outcome State Fault Refusal := finish (rrRun core 0 gd ga gb 5 (fun a b => a ^^^ b) s)
def execSll (core gd ga gb : Fin 64) (s : State) : Host.Outcome State Fault Refusal :=
  finish (rrRun core 0 gd ga gb 6 (fun a b => a <<< (fld b 5 0)) s)
def execSrl (core gd ga gb : Fin 64) (s : State) : Host.Outcome State Fault Refusal :=
  finish (rrRun core 0 gd ga gb 7 (fun a b => a >>> (fld b 5 0)) s)
def execSra (core gd ga gb : Fin 64) (s : State) : Host.Outcome State Fault Refusal :=
  finish (rrRun core 0 gd ga gb 8 (fun a b => a.sshiftRight (fld b 5 0)) s)
def execSlt (core gd ga gb : Fin 64) (s : State) : Host.Outcome State Fault Refusal :=
  finish (rrRun core 0 gd ga gb 9 (fun a b => boolWord (a.slt b)) s)
def execSltu (core gd ga gb : Fin 64) (s : State) : Host.Outcome State Fault Refusal :=
  finish (rrRun core 0 gd ga gb 0xA (fun a b => boolWord (a.ult b)) s)
def execClz (core gd ga gb : Fin 64) (s : State) : Host.Outcome State Fault Refusal :=
  finish (rrOne core gd ga gb 0xB (fun a => clzOf 64 a.toNat) s)
def execCtz (core gd ga gb : Fin 64) (s : State) : Host.Outcome State Fault Refusal :=
  finish (rrOne core gd ga gb 0xC (fun a => ctzOf 64 a.toNat) s)
def execPopc (core gd ga gb : Fin 64) (s : State) : Host.Outcome State Fault Refusal :=
  finish (rrOne core gd ga gb 0xD (fun a => popCount 64 a.toNat) s)

/-! ### Immediates (R262) -/

/-- An instruction of ga and a sign-extended imm15. -/
def riRun (n cls gd ga : Nat) (imm : BitVec 15) (v : Word → Word → Word) (s : State) : State :=
  aluRun n (encRI cls gd ga imm.toNat) gd true (fun c => v (gReg c ga) (imm.signExtend 64)) s

/-- SHFI: imm15[14:13] selects the shift, imm15[12:6] must be 0. -/
def shfRun (n gd ga sel : Nat) (imm : BitVec 13) (v : Word → Nat → Word) (s : State) : State :=
  aluRun n (encRI 5 gd ga (at_ sel 13 + imm.toNat)) gd (imm.toNat < 64 : Bool) (fun c => v (gReg c ga) (imm.toNat % 64)) s

def execAddi (core gd ga : Fin 64) (imm : BitVec 15) (s : State) : Host.Outcome State Fault Refusal :=
  finish (riRun core 1 gd ga imm (fun a b => a + b) s)
def execAndi (core gd ga : Fin 64) (imm : BitVec 15) (s : State) : Host.Outcome State Fault Refusal :=
  finish (riRun core 2 gd ga imm (fun a b => a &&& b) s)
def execOri (core gd ga : Fin 64) (imm : BitVec 15) (s : State) : Host.Outcome State Fault Refusal :=
  finish (riRun core 3 gd ga imm (fun a b => a ||| b) s)
def execXori (core gd ga : Fin 64) (imm : BitVec 15) (s : State) : Host.Outcome State Fault Refusal :=
  finish (riRun core 4 gd ga imm (fun a b => a ^^^ b) s)
def execSlli (core gd ga : Fin 64) (imm : BitVec 13) (s : State) : Host.Outcome State Fault Refusal :=
  finish (shfRun core gd ga 0 imm (fun a n => a <<< n) s)
def execSrli (core gd ga : Fin 64) (imm : BitVec 13) (s : State) : Host.Outcome State Fault Refusal :=
  finish (shfRun core gd ga 1 imm (fun a n => a >>> n) s)
def execSrai (core gd ga : Fin 64) (imm : BitVec 13) (s : State) : Host.Outcome State Fault Refusal :=
  finish (shfRun core gd ga 2 imm (fun a n => a.sshiftRight n) s)
def execLimm (core gd : Fin 64) (imm : BitVec 21) (s : State) : Host.Outcome State Fault Refusal :=
  finish (aluRun core (encLI 6 gd imm.toNat) gd true (fun _ => imm.signExtend 64) s)
def execLimmh (core gd : Fin 64) (imm : BitVec 21) (s : State) : Host.Outcome State Fault Refusal :=
  finish (aluRun core (encLI 7 gd imm.toNat) gd true (fun c => (gReg c gd <<< 21) ||| imm.zeroExtend 64) s)

/-! ### Multiply and divide (R263) -/

/-- Signed quotient, rounded toward 0; −1 for a zero divisor; −2^63 for −2^63 ÷ −1. -/
def divsOf (a b : Word) : Word := if b = 0 then BitVec.allOnes 64 else intWord (Int.tdiv a.toInt b.toInt)

/-- Signed remainder, with the sign of a; a for a zero divisor. -/
def remsOf (a b : Word) : Word := if b = 0 then a else intWord (Int.tmod a.toInt b.toInt)

def execMul (core gd ga gb : Fin 64) (s : State) : Host.Outcome State Fault Refusal := finish (rrRun core 0x10 gd ga gb 1 (fun a b => a * b) s)
def execMulhu (core gd ga gb : Fin 64) (s : State) : Host.Outcome State Fault Refusal :=
  finish (rrRun core 0x10 gd ga gb 2 (fun a b => word (a.toNat * b.toNat / 2 ^ 64)) s)
def execMulhs (core gd ga gb : Fin 64) (s : State) : Host.Outcome State Fault Refusal :=
  finish (rrRun core 0x10 gd ga gb 3 (fun a b => intWord (Int.fdiv (a.toInt * b.toInt) (2 ^ 64))) s)
def execDivu (core gd ga gb : Fin 64) (s : State) : Host.Outcome State Fault Refusal :=
  finish (rrRun core 0x10 gd ga gb 4 (fun a b => if b = 0 then BitVec.allOnes 64 else word (a.toNat / b.toNat)) s)
def execDivs (core gd ga gb : Fin 64) (s : State) : Host.Outcome State Fault Refusal := finish (rrRun core 0x10 gd ga gb 5 divsOf s)
def execRemu (core gd ga gb : Fin 64) (s : State) : Host.Outcome State Fault Refusal :=
  finish (rrRun core 0x10 gd ga gb 6 (fun a b => if b = 0 then a else word (a.toNat % b.toNat)) s)
def execRems (core gd ga gb : Fin 64) (s : State) : Host.Outcome State Fault Refusal := finish (rrRun core 0x10 gd ga gb 7 remsOf s)

/-! ### Data accesses (R249-R254, R264-R266, R273, R274, R562) -/

/-- Registers whose chapter accepts writes at P1 only: first address, bytes. -/
def p1Ranges : List (Nat × Nat) := [
  (0x24500000, 0x30), (0x24500100, 0x200), (0x24600000, 0x28), (0x24600100, 0x200), (0x24700000, 0x40), (0x24701000, 0xFF0), (0x24702000, 0x200),
  (0x24740000, 0x20), (0x24740040, 0x40), (0x24740100, 0x200), (0x24900000, 0x600), (0x24900600, 8), (0x24900800, 0x800), (0x24901000, 8),
  (0x24A00000, 0x4000), (0x24A08000, 0x8000), (0x24B00000, 0x10018), (0x24B10100, 0x200), (0x24C00000, 0x10), (0x24C00100, 0xC0),
  (0x24C00200, 0xC0), (0x24C10000, 0xD80), (0x24C20000, 0xD80), (0x24D00000, 0x18), (0x24D00100, 0x300), (0x24D00800, 0x600),
  (0x24D10000, 0x8000), (0x24E00000, 0x18), (0x24E00100, 0x80), (0x24E00400, 0x300), (0x24E10000, 0x8000), (0x24F00000, 0x30),
  (0x24F00040, 0x28), (0x24F00100, 8), (0x24F04000, 0x4000), (0x25000000, 0x20), (0x25001000, 0x4000), (0x25100000, 0xC000),
  (0x25110000, 0x10), (0x25120000, 0xC000), (0x25200000, 0x300), (0x25200400, 0x200), (0x25300000, 8), (0x25301000, 0x4000)]

/-- R562. -/
def p1OnlyReg (a : Nat) : Bool := p1Ranges.any (fun r => (r.1 ≤ a : Bool) && (a < r.1 + r.2 : Bool))

/-- Domain and DA of an aperture address, R250. -/
def apDom (a : Nat) : Nat := a / 2 ^ 34 % 4096
def apDa (c : Core) (a : Nat) : Nat := c.apbase * 2 ^ 34 + a % 2 ^ 34

/-- A data access refused: code, DETAIL, BADADDR, and the state with the refusal recorded. -/
abbrev AccFault := Nat × Nat × Nat × State

/-- A refusal of the Gate on a core's access to an address; `dom` 0xFFFF for a DAS line. -/
def coreDeny (s : State) (n a dom size : Nat) (wr : Bool) (x : Nat × Verdict) (badaddr : Nat) : AccFault :=
  let _ := a
  (6, denyDetail x.2 (if wr then 3 else 2), badaddr,
    gateRefuse x.1 dom (coreLv (coreOf s n)) false (x.2.kind (if wr then 2 else 1)) x.2.slot (0x100 + n) size s)

/-- Checks 4 and 5 of R274 on a load or store of `size` bytes at an address. -/
def accFault (s : State) (n a size : Nat) (wr : Bool) : Option AccFault :=
  let c := coreOf s n
  let lv := coreLv c
  let p := if wr then Perm.w else Perm.r
  if a % size ≠ 0 then some (if wr then 5 else 4, 0, a, s)
  else match rangeOf a with
    | none => some (9, if wr then 3 else 2, a, s)
    | some .imem =>
      if wr then (dasCheck s a size lv p).map (fun x => coreDeny s n a 0xFFFF size wr x x.1) else none
    | some .aper =>
      (match daCheck s (apDom a) (apDa c a) size lv p true with
       | some x => some (coreDeny s n a (apDom a) size wr x (a / 64 * 64))
       | none => if c.p2 then some (6, 4, a / 64 * 64, s) else none)
    | some r =>
      (match dasCheck s a size lv p with
       | some x => some (coreDeny s n a 0xFFFF size wr x x.1)
       | none =>
         if decide (r = .dev) && wr && a < 0x2C000000 && size ≠ 8 then some (6, 6, a, s)
         else if decide (r = .dev) && wr && c.p2 && p1OnlyReg a then some (6, 8, a, s)
         else none)

/-- Address of a load or store, R264. -/
def eaOf (c : Core) (ga : Nat) (imm : BitVec 15) : Nat := (gReg c ga + imm.signExtend 64).toNat

/-- A single-bit error of a kept memory is corrected and counted (R266). -/
def eccCorr (x : Nat) (s : State) : State :=
  let e := s.flg.ecc
  { s with flg := { s.flg with ecc :=
      if 0x10000000 ≤ x ∧ x ≤ 0x10FFFFFF then (e.1, e.2.1, satAdd 65535 e.2.2.1 1, e.2.2.2)
      else (e.1, e.2.1, e.2.2.1, satAdd 65535 e.2.2.2 1) } }

/-- What the SECDED of a kept word finds as it is read: 0 nothing new, 1 a single-bit error, 2 an uncorrectable one (R266). -/
def eccFind (err x : Nat) (s : State) : State :=
  if err = 1 then (if badWord s x then s else eccCorr x s)
  else if err = 2 then
    { s with flg := { s.flg with bad := if badWord s x then s.flg.bad else x / 8 * 8 :: s.flg.bad } }
  else s

/-- The mode of an internal access through the aperture: its region's. -/
def apMode (s : State) (dom da : Nat) : Mode := (regionOf (domOf s dom) (da / unit256)).getD .priv

/-- A request through the aperture, R250. -/
def apReq (s : State) (n a size : Nat) (op : Op) (data : Nat) : Req :=
  let da := apDa (coreOf s n) a
  { mkReq s.next (.core n (da % 64) size) op (apDom a) (da / 64 * 64) (apMode s (apDom a) da) with
    data := BitVec.ofNat 512 (data * 2 ^ (8 * (da % 64))), mask := maskAt (da % 64) size, time := s.time }

/-- A load through the aperture starts; behind stores to the same line it waits (R254). -/
def apLoad (n gd a size : Nat) (s : State) : State :=
  let r := apReq s n a size .rdI 0
  let hold := storeTo s n r.dom r.da && !(decide (r.mode = .scoh))
  let r1 := if hold then { r with phase := .storeWait } else r
  let s1 := corePut n { coreOf s n with busy := .load r.id gd a } (reqAdd r1 (takeNext s))
  if hold then s1 else dispatchReq r1 s1

/-- A store through the aperture: it retires, and goes on its way (R254). -/
def apStore (n a size v : Nat) (s : State) : State :=
  let r := apReq s n a size .wrPtl v
  let s1 := corePut n { coreOf s n with stores := (coreOf s n).stores ++ [r.id] } (reqAdd r (takeNext s))
  dispatchReq r (retire n s1)

/-- A load. -/
def loadRun (n cls gd ga size : Nat) (imm : BitVec 15) (err : Nat) (s : State) : State :=
  start n (encRI cls gd ga imm.toNat) (fun c => eaOf c ga imm % 2 ^ 48) (fun s =>
    let a := eaOf (coreOf s n) ga imm
    match accFault s n a size false with
    | some f => except n f.1 f.2.1 f.2.2.1 f.2.2.2
    | none => match rangeOf a, memAddr n a with
      | some .aper, _ => apLoad n gd a size s
      | _, some x =>
        let s1 := eccFind err x s
        if badWord s1 x then except n 0xB 2 a (eccHit x s1) else retireWith n gd (word (memNat s1 x size)) s1
      | _, none => retireWith n gd (word ((devWord s (a / 8 * 8)).toNat / 2 ^ (8 * (a % 8)) % 2 ^ (8 * size))) s) s

/-- A store. -/
def storeRun (n cls gs ga size : Nat) (imm : BitVec 15) (err : Nat) (s : State) : State :=
  start n (encRI cls gs ga imm.toNat) (fun c => eaOf c ga imm % 2 ^ 48) (fun s =>
    let a := eaOf (coreOf s n) ga imm
    let v := (gReg (coreOf s n) gs).toNat % 2 ^ (8 * size)
    match accFault s n a size true with
    | some f => except n f.1 f.2.1 f.2.2.1 f.2.2.2
    | none => match rangeOf a, memAddr n a with
      | some .aper, _ => apStore n a size v s
      | _, some x =>
        if size = 8 then retire n (memPut x 8 v (memHeal x s))
        else
          let s1 := eccFind err x s
          if badWord s1 x then except n 0xB 3 a (eccHit x s1) else retire n (memPut x size v s1)
      | some .dev, none => retire n (if 0x2C000000 ≤ a then s else devStore (some n) a (word v) s)
      | _, none => retire n s) s

def execLdb (core gd ga : Fin 64) (imm : BitVec 15) (err : Nat) (s : State) : Host.Outcome State Fault Refusal :=
  finish (loadRun core 8 gd ga 1 imm err s)
def execLdh (core gd ga : Fin 64) (imm : BitVec 15) (err : Nat) (s : State) : Host.Outcome State Fault Refusal :=
  finish (loadRun core 9 gd ga 2 imm err s)
def execLdw (core gd ga : Fin 64) (imm : BitVec 15) (err : Nat) (s : State) : Host.Outcome State Fault Refusal :=
  finish (loadRun core 0xA gd ga 4 imm err s)
def execLdd (core gd ga : Fin 64) (imm : BitVec 15) (err : Nat) (s : State) : Host.Outcome State Fault Refusal :=
  finish (loadRun core 0xB gd ga 8 imm err s)
def execStb (core gs ga : Fin 64) (imm : BitVec 15) (err : Nat) (s : State) : Host.Outcome State Fault Refusal :=
  finish (storeRun core 0xC gs ga 1 imm err s)
def execSth (core gs ga : Fin 64) (imm : BitVec 15) (err : Nat) (s : State) : Host.Outcome State Fault Refusal :=
  finish (storeRun core 0xD gs ga 2 imm err s)
def execStw (core gs ga : Fin 64) (imm : BitVec 15) (err : Nat) (s : State) : Host.Outcome State Fault Refusal :=
  finish (storeRun core 0xE gs ga 4 imm err s)
def execStd (core gs ga : Fin 64) (imm : BitVec 15) (s : State) : Host.Outcome State Fault Refusal :=
  finish (storeRun core 0xF gs ga 8 imm 0 s)

/-! ### Local atomics (R267) -/

/-- The new value of a local atomic: old, gb, and gd as it was. -/
abbrev LocalOp := Nat → Nat → Nat → Nat

/-- Checks 4 and 5 of R274 on a local atomic; the Gate needs R and W of its line (log entry 52, DEDUCED). -/
def atomFault (s : State) (n a size : Nat) : Option AccFault :=
  let lv := coreLv (coreOf s n)
  if a % size ≠ 0 then some (5, 0, a, s)
  else if !(inLocalData a size) then some (6, 5, a, s)
  else match dasCheck s a size lv .r with
    | some x => some (coreDeny s n a 0xFFFF size false x x.1)
    | none => (dasCheck s a size lv .w).map (fun x => coreDeny s n a 0xFFFF size true x x.1)

/-- A local atomic. -/
def atomRun (n gd ga gb fn : Nat) (w32 : Bool) (op : LocalOp) (err : Nat) (s : State) : State :=
  let size := if w32 then 4 else 8
  start n (encRR 0x12 gd ga gb (at_ (b2n w32) 8 + fn)) (fun c => (gReg c ga).toNat % 2 ^ 48) (fun s =>
    let c := coreOf s n
    let a := (gReg c ga).toNat
    let m := 2 ^ (8 * size)
    match atomFault s n a size with
    | some f => except n f.1 f.2.1 f.2.2.1 f.2.2.2
    | none =>
      let x := coreWin n + 0x40000 + (a - 0x100000)
      let s1 := eccFind err x s
      if badWord s1 x then except n 0xB 2 a (eccHit x s1)
      else
        let old := memNat s1 x size
        retireWith n gd (word old) (memPut x size (op old ((gReg c gb).toNat % m) ((gReg c gd).toNat % m) % m) s1)) s

def execLadd (core gd ga gb : Fin 64) (w32 : Bool) (err : Nat) (s : State) : Host.Outcome State Fault Refusal :=
  finish (atomRun core gd ga gb 1 w32 (fun o b _ => o + b) err s)
def execLand (core gd ga gb : Fin 64) (w32 : Bool) (err : Nat) (s : State) : Host.Outcome State Fault Refusal :=
  finish (atomRun core gd ga gb 2 w32 (fun o b _ => o &&& b) err s)
def execLor (core gd ga gb : Fin 64) (w32 : Bool) (err : Nat) (s : State) : Host.Outcome State Fault Refusal :=
  finish (atomRun core gd ga gb 3 w32 (fun o b _ => o ||| b) err s)
def execLxor (core gd ga gb : Fin 64) (w32 : Bool) (err : Nat) (s : State) : Host.Outcome State Fault Refusal :=
  finish (atomRun core gd ga gb 4 w32 (fun o b _ => o ^^^ b) err s)
def execLswap (core gd ga gb : Fin 64) (w32 : Bool) (err : Nat) (s : State) : Host.Outcome State Fault Refusal :=
  finish (atomRun core gd ga gb 5 w32 (fun _ b _ => b) err s)
def execLcas (core gd ga gb : Fin 64) (w32 : Bool) (err : Nat) (s : State) : Host.Outcome State Fault Refusal :=
  finish (atomRun core gd ga gb 6 w32 (fun o b d => if o = d then b else o) err s)

/-! ### Branches and jumps (R268, R269) -/

/-- PC plus a sign-extended offset in words; a target outside the DAS is kept, and its fetch is UNMAPPED (R249). -/
def relPc (pc bits off : Nat) : Nat := (word pc + 4 * sext bits off).toNat

/-- A branch. -/
def brRun (n ga gb cond : Nat) (off : BitVec 12) (legal : Bool) (taken : Word → Word → Bool) (s : State) : State :=
  let insn := encBR ga gb cond off.toNat
  start n insn (fun _ => 0) (fun s =>
    let c := coreOf s n
    if !legal then illegal n insn s
    else if taken (gReg c ga) (gReg c gb) then retireAt n (relPc c.pc 12 off.toNat) s else retire n s) s

def execBeq (core ga gb : Fin 64) (off : BitVec 12) (s : State) : Host.Outcome State Fault Refusal :=
  finish (brRun core ga gb 0 off true (fun a b => a == b) s)
def execBne (core ga gb : Fin 64) (off : BitVec 12) (s : State) : Host.Outcome State Fault Refusal :=
  finish (brRun core ga gb 1 off true (fun a b => !(a == b)) s)
def execBlt (core ga gb : Fin 64) (off : BitVec 12) (s : State) : Host.Outcome State Fault Refusal :=
  finish (brRun core ga gb 2 off true (fun a b => a.slt b) s)
def execBge (core ga gb : Fin 64) (off : BitVec 12) (s : State) : Host.Outcome State Fault Refusal :=
  finish (brRun core ga gb 3 off true (fun a b => !(a.slt b)) s)
def execBltu (core ga gb : Fin 64) (off : BitVec 12) (s : State) : Host.Outcome State Fault Refusal :=
  finish (brRun core ga gb 4 off true (fun a b => a.ult b) s)
def execBgeu (core ga gb : Fin 64) (off : BitVec 12) (s : State) : Host.Outcome State Fault Refusal :=
  finish (brRun core ga gb 5 off true (fun a b => !(a.ult b)) s)
def execBra (core ga gb : Fin 64) (off : BitVec 12) (s : State) : Host.Outcome State Fault Refusal :=
  finish (brRun core ga gb 7 off (ga == 0 && gb == 0) (fun _ _ => true) s)

/-- JMP. -/
def execJmp (core : Fin 64) (off : BitVec 27) (s : State) : Host.Outcome State Fault Refusal :=
  finish (start core (encJL 0x19 off.toNat) (fun _ => 0)
    (fun s => retireAt core (relPc (coreOf s core).pc 27 off.toNat) s) s)

/-- JAL. -/
def execJal (core : Fin 64) (off : BitVec 27) (s : State) : Host.Outcome State Fault Refusal :=
  finish (start core (encJL 0x1A off.toNat) (fun _ => 0) (fun s =>
    let c := coreOf s core
    retireAt core (relPc c.pc 27 off.toNat) (corePut core (gSet c 62 (word (c.pc + 4))) s)) s)

/-- A jump to a register's value: one that is not aligned raises FETCH_MISALIGN (R269). A bit above 47 is kept in the target
until the fetch, which UNMAPPED then refuses. -/
def jumpTo (n a : Nat) (f : State → State) (s : State) : State := if a % 4 = 0 then retireAt n a (f s) else except n 3 0 a s

/-- JR: gd and gb must be 0. -/
def execJr (core gd ga gb : Fin 64) (s : State) : Host.Outcome State Fault Refusal :=
  finish (start core (encRR 0x1B gd ga gb 1) (fun _ => 0) (fun s =>
    if gd ≠ 0 || gb ≠ 0 then illegal core (encRR 0x1B gd ga gb 1) s
    else jumpTo core (gReg (coreOf s core) ga).toNat (fun s => s) s) s)

/-- JALR reads ga before it writes gd. -/
def execJalr (core gd ga gb : Fin 64) (s : State) : Host.Outcome State Fault Refusal :=
  finish (start core (encRR 0x1B gd ga gb 2) (fun _ => 0) (fun s =>
    if gb ≠ 0 then illegal core (encRR 0x1B gd ga gb 2) s
    else
      let c := coreOf s core
      jumpTo core (gReg c ga).toNat (fun s => corePut core (gSet c gd (word (c.pc + 4))) s) s) s)

/-! ### Control registers (R255-R258, R270, R275) -/

/-- The control registers. -/
inductive CrName where
  | coreId | status | epc | cause | badaddr | thresh | tvec | scratch | apbase | time | steps
  deriving DecidableEq, Repr

/-- R255. -/
def crOf : Nat → Option CrName
  | 0 => some .coreId | 1 => some .status | 2 => some .epc | 3 => some .cause | 4 => some .badaddr | 5 => some .thresh
  | 6 => some .tvec | 7 => some .scratch | 8 => some .apbase | 0x10 => some .time | 0x11 => some .steps | _ => none

/-- A view of the top entry frame, R275: word k; 0 with DEPTH 0. -/
def frameWord (s : State) (n k : Nat) : Word :=
  let c := coreOf s n
  if c.depth = 0 then 0 else ldWord s n (frameAddr (c.depth - 1) + 8 * k)

/-- What CGET reads: reserved fields read 0. -/
def crGet (s : State) (n : Nat) (r : CrName) : Word :=
  let c := coreOf s n
  match r with
  | .coreId => word n
  | .status => statusWord c
  | .epc => word (fld (frameWord s n 0) 47 2 * 4)
  | .cause => let w := frameWord s n 2; word (at_ (fld w 63 63) 63 + fld w 15 0)
  | .badaddr => word (fld (frameWord s n 3) 47 0)
  | .thresh => word c.thresh
  | .tvec => word c.tvec
  | .scratch => c.scratch
  | .apbase => word c.apbase
  | .time => word s.time
  | .steps => c.steps

/-- A write of the top frame; discarded with DEPTH 0. -/
def frameSet (n k : Nat) (v : Word) (s : State) : State :=
  let c := coreOf s n
  if c.depth = 0 then s else stWord n (frameAddr (c.depth - 1) + 8 * k) v s

/-- What CSET does, but for STEPS. -/
def crSet (n : Nat) (r : CrName) (v : Word) (s : State) : State :=
  let c := coreOf s n
  match r with
  | .status => corePut n { c with
      runpri := fld v 19 16, depth := if fld v 11 8 ≤ 8 then fld v 11 8 else c.depth, ie := bit v 1 } s
  | .epc => frameSet n 0 (word (fld v 47 2 * 4)) s
  | .cause => frameSet n 2 (word (at_ (fld v 63 63) 63 + fld v 15 0)) s
  | .badaddr => frameSet n 3 (word (fld v 47 0)) s
  | .thresh => corePut n { c with thresh := fld v 3 0 } s
  | .tvec => corePut n { c with tvec := fld v 47 8 * 256 } s
  | .scratch => corePut n { c with scratch := v } s
  | .apbase => corePut n { c with apbase := fld v 11 0 } s
  | .steps => corePut n { c with steps := v - 1 } s
  | _ => s

/-- What P2 may read (R255). -/
def CrName.atP2 : CrName → Bool
  | .coreId => true | .status => true | .time => true | .steps => true | _ => false

/-- CGET: ga must be 0, imm15[13:12] must be 0. -/
def execCget (core gd ga : Fin 64) (imm : BitVec 14) (s : State) : Host.Outcome State Fault Refusal :=
  let insn := encRI 0x11 gd ga imm.toNat
  finish (start core insn (fun _ => 0) (fun s =>
    match crOf imm.toNat with
    | none => illegal core insn s
    | some r =>
      if ga ≠ 0 then illegal core insn s
      else if (coreOf s core).p2 && !r.atP2 then privFault core insn s
      else retireWith core gd (crGet s core r) s) s)

/-- CSET: the previous value in gd; a write to STEPS stands after its own retirement (R258). -/
def execCset (core gd ga : Fin 64) (imm : BitVec 14) (s : State) : Host.Outcome State Fault Refusal :=
  let insn := encRI 0x11 gd ga (at_ 1 14 + imm.toNat)
  finish (start core insn (fun _ => 0) (fun s =>
    match crOf imm.toNat with
    | none => illegal core insn s
    | some r =>
      if (coreOf s core).p2 then privFault core insn s
      else retireWith core gd (crGet s core r) (crSet core r (gReg (coreOf s core) ga) s)) s)

/-! ### System instructions (R272, R275, R276) -/

/-- TRAP retires, and its entry records PC + 4 and ga[47:0] (R272, R273). -/
def trapRun (n ga : Nat) (s : State) : State :=
  let c := coreOf s n
  let s1 := countP 0x7001 n (corePut n { c with steps := c.steps + 1 } s)
  takeEntry n false 0xC 0 (c.pc + 4) ((gReg c ga).toNat % 2 ^ 48) (csmpEnd n (some 0xC) s1)

def execTrap (core gd ga gb : Fin 64) (s : State) : Host.Outcome State Fault Refusal :=
  finish (start core (encRR 0x1F gd ga gb 1) (fun _ => 0) (fun s =>
    if gd ≠ 0 || gb ≠ 0 then illegal core (encRR 0x1F gd ga gb 1) s else trapRun core ga s) s)

/-- The top frame carries an uncorrectable error. -/
def frameBad (s : State) (n f : Nat) : Bool :=
  (List.range 4).any (fun i => badWord s (coreWin n + 0x40000 + (f - 0x100000) + 8 * i))

/-- ERET (R275): the retirement counts, and PC, MODE and IE come from the frame. -/
def eretRun (n err : Nat) (s : State) : State :=
  let f := frameAddr ((coreOf s n).depth - 1)
  let x := coreWin n + 0x40000 + (f - 0x100000)
  let s1 := eccFind err x s
  if frameBad s1 n f then except n 0xB 2 f (eccHit x s1)
  else
    let s2 := takeReturn n s1
    retireAt n (coreOf s2 n).pc s2

def execEret (core gd ga gb : Fin 64) (err : Nat) (s : State) : Host.Outcome State Fault Refusal :=
  let insn := encRR 0x1F gd ga gb 2
  finish (start core insn (fun _ => 0) (fun s =>
    if gd ≠ 0 || ga ≠ 0 || gb ≠ 0 || (coreOf s core).depth = 0 then illegal core insn s
    else if (coreOf s core).p2 then privFault core insn s
    else eretRun core err s) s)

/-- FENCE.L: local stores are performed in program order, and later fetches see them (R252, R254). -/
def execFenceL (core gd ga gb : Fin 64) (s : State) : Host.Outcome State Fault Refusal :=
  finish (start core (encRR 0x1F gd ga gb 3) (fun _ => 0) (fun s =>
    if gd ≠ 0 || ga ≠ 0 || gb ≠ 0 then illegal core (encRR 0x1F gd ga gb 3) s else retire core s) s)

/-- FENCE.F: waits until each earlier aperture store is complete or discarded. -/
def execFenceF (core gd ga gb : Fin 64) (s : State) : Host.Outcome State Fault Refusal :=
  finish (start core (encRR 0x1F gd ga gb 4) (fun _ => 0) (fun s =>
    if gd ≠ 0 || ga ≠ 0 || gb ≠ 0 then illegal core (encRR 0x1F gd ga gb 4) s
    else if (coreOf s core).stores.isEmpty then retire core s
    else corePut core { coreOf s core with busy := .fence } s) s)

/-- GSYNC: a Gate barrier (R78). -/
def execGsync (core gd ga gb : Fin 64) (s : State) : Host.Outcome State Fault Refusal :=
  let insn := encRR 0x1F gd ga gb 5
  finish (start core insn (fun _ => 0) (fun s =>
    if ga ≠ 0 || gb ≠ 0 then illegal core insn s
    else if (coreOf s core).p2 then privFault core insn s
    else corePut core { coreOf s core with busy := .gsync gd }
      { s with gate := { s.gate with gsyncs := s.gate.gsyncs ++ [core.val] } }) s)

/-- MSYNC: a placement barrier (R191). -/
def execMsync (core gd ga gb : Fin 64) (s : State) : Host.Outcome State Fault Refusal :=
  let insn := encRR 0x1F gd ga gb 6
  finish (start core insn (fun _ => 0) (fun s =>
    if ga ≠ 0 || gb ≠ 0 then illegal core insn s
    else corePut core { coreOf s core with busy := .msync gd }
      { s with dlr := { s.dlr with msyncs := s.dlr.msyncs ++ [core.val] } }) s)

/-- HALT: pending stores complete, then the core is HALTED (R245). -/
def execHalt (core gd ga gb : Fin 64) (s : State) : Host.Outcome State Fault Refusal :=
  let insn := encRR 0x1F gd ga gb 7
  finish (start core insn (fun _ => 0) (fun s =>
    if gd ≠ 0 || ga ≠ 0 || gb ≠ 0 then illegal core insn s
    else if (coreOf s core).p2 then privFault core insn s
    else depart core .halted false (retire core s)) s)

/-- An interrupt is taken at an instruction boundary (R278). -/
def execInterruptEntry (core : Fin 64) (s : State) : Host.Outcome State Fault Refusal :=
  finish (
    let c := coreOf s core
    if decide (c.st = .run) && decide (c.busy = .none) && intDue s core then takeEntry core true 0x20 0 c.pc 0 s else s)

end Sys2Proof.Machine
end

