-- ==== Sys2Proof/Machine/Mgmt.lean ====
section
/-!
DEFINITION. Machine/Mgmt.lean: the management paths (spec 15): I3C, SMBus and MCTP (R432-R436, R558), the FM API (R438-R443), the
boot flash (R435, R444). A response's code is the vendor status where the return code is Success, and 256 times the CXL return code
otherwise (R442; the numbers of return codes are log entry 58, PRESUMED).
-/
namespace Sys2Proof.Machine

/-! ### I3C, SMBus, MCTP (R433, R434) -/

/-- The management status block, as its fields in order (R434). -/
def statusBlock (s : State) : List Nat :=
  [if s.pwr.stopped then 0xFF else s.pwr.progress, s.emr.life.code, b2n s.pwr.devReady + at_ (b2n (faultN s)) 1 + at_ (b2n s.emr.alarmN) 2,
   0, s.pwr.boots % 2 ^ 32, s.time, s.flt.last.getD 0xFFFFFFFF, 0]

/-- The device answers on its management bus: power is good, and no reset is held. -/
def busLive (s : State) : Bool := alive s

/-- A CCC to the device as an I3C target. -/
def ccc (run : State → State) (s : State) : State := if busLive s && s.mgt.i3c then run s else s

/-- An answer on the I3C bus. -/
def i3cSay (ws : List Nat) (s : State) : State := respond .i3c 0 ws s

/-- Dynamic address assignment: a target that has an address takes no part. -/
def execEntdaa (addr : Fin 128) (s : State) : Host.Outcome State Fault Refusal :=
  finish (if !(busLive s) then s
    else { s with mgt := { s.mgt with i3c := true, dynAddr := some (s.mgt.dynAddr.getD addr.val) } })

/-- SETDASA by the static address. -/
def execSetdasa (static dynamic : Fin 128) (s : State) : Host.Outcome State Fault Refusal :=
  finish (if !(busLive s) || !(static.val == s.mgt.saddr) || s.mgt.dynAddr.isSome then s
    else { s with mgt := { s.mgt with i3c := true, dynAddr := some dynamic.val } })

/-- SETNEWDA. -/
def execSetnewda (addr : Fin 128) (s : State) : Host.Outcome State Fault Refusal :=
  finish (ccc (fun s => if s.mgt.dynAddr.isSome then { s with mgt := { s.mgt with dynAddr := some addr.val } } else s) s)

/-- RSTDAA: the device is an SMBus target again. -/
def execRstdaa (s : State) : Host.Outcome State Fault Refusal :=
  finish (ccc (fun s => { s with mgt := { s.mgt with i3c := false, dynAddr := none } }) s)

/-- The provisional ID (R433). -/
def provId (s : State) : Nat := at_ 0x5C4 33 + at_ 0x4860 16 + at_ s.mgt.inst 12

def execGetpid (s : State) : Host.Outcome State Fault Refusal := finish (ccc (fun s => i3cSay [provId s] s) s)
def execGetbcr (s : State) : Host.Outcome State Fault Refusal := finish (ccc (i3cSay [Config.bcr.toNat]) s)
def execGetdcr (s : State) : Host.Outcome State Fault Refusal := finish (ccc (i3cSay [Config.dcr.toNat]) s)
def execGetstatus (s : State) : Host.Outcome State Fault Refusal := finish (ccc (fun s => i3cSay (statusBlock s) s) s)
def execGetmrl (s : State) : Host.Outcome State Fault Refusal := finish (ccc (fun s => i3cSay [s.mgt.mrl] s) s)
def execGetmwl (s : State) : Host.Outcome State Fault Refusal := finish (ccc (fun s => i3cSay [s.mgt.mwl] s) s)
def execSetmrl (len : Fin 65536) (s : State) : Host.Outcome State Fault Refusal :=
  finish (ccc (fun s => { s with mgt := { s.mgt with mrl := len.val } }) s)
def execSetmwl (len : Fin 65536) (s : State) : Host.Outcome State Fault Refusal :=
  finish (ccc (fun s => { s with mgt := { s.mgt with mwl := len.val } }) s)
def execEnec (events : Fin 256) (s : State) : Host.Outcome State Fault Refusal :=
  finish (ccc (fun s => { s with mgt := { s.mgt with events := s.mgt.events ||| events.val } }) s)
def execDisec (events : Fin 256) (s : State) : Host.Outcome State Fault Refusal :=
  finish (ccc (fun s => { s with mgt := { s.mgt with events := s.mgt.events &&& (255 - events.val) } }) s)
def execRstact (action : Fin 256) (s : State) : Host.Outcome State Fault Refusal :=
  finish (ccc (fun s => { s with mgt := { s.mgt with rstact := action.val } }) s)

/-- SMBus Block Read of command 0x10, at the static address: the status block; until the device is an I3C target. -/
def execSmbusBlockRead (addr : Fin 128) (cmd : Fin 256) (s : State) : Host.Outcome State Fault Refusal :=
  finish (if busLive s && !s.mgt.i3c && (addr.val == s.mgt.saddr) && (cmd.val == 0x10) then i3cSay (statusBlock s) s else s)

/-- MCTP control messages, over I3C. -/
def execSetEndpointId (eid : Fin 256) (s : State) : Host.Outcome State Fault Refusal :=
  finish (ccc (fun s => i3cSay [eid.val] { s with mgt := { s.mgt with eid := eid.val } }) s)
def execGetEndpointId (s : State) : Host.Outcome State Fault Refusal := finish (ccc (fun s => i3cSay [s.mgt.eid] s) s)
def execGetMctpVersionSupport (s : State) : Host.Outcome State Fault Refusal := finish (ccc (i3cSay [Config.mctpVersion.toNat]) s)

/-- MCTP control, and the CXL FM API message type. -/
def execGetMessageTypeSupport (s : State) : Host.Outcome State Fault Refusal := finish (ccc (i3cSay [0x00, 0x07]) s)
def execGetEndpointUuid (s : State) : Host.Outcome State Fault Refusal := finish (ccc (i3cSay [Config.uuid.toNat]) s)

/-! ### The fabric manager's paths (R438-R442, R489) -/

/-- A fabric-manager path is open (R438, R439): `inband` the fabric-manager port, else I3C. -/
def pathOpen (s : State) (inband : Bool) : Bool :=
  if inband then (match fmPort? s with | some p => linkUp s p | none => false) else s.mgt.i3c && s.mgt.fmPaths % 2 == 1

/-- An FM API message: on a path that is not open it is discarded. -/
def fm (inband early term : Bool) (run : State → State) (s : State) : State :=
  if pathOpen s inband then engine early term run s else s

/-- A response with data. -/
def fmSay (code : Nat) (ws : List Nat) (s : State) : State := respond .mgmt code ws s

/-- CXL return codes (log entry 58, PRESUMED). -/
def rcInvalid : Nat := 0x200
def rcUnsupported : Nat := 0x300
def rcInternal : Nat := 0x400
def rcBusy : Nat := 0x600

/-- The engine records a status that a standard command cannot return in the fault history (R442), under the reserved source 2047
(log entry 57, DESIGN CHOICE). -/
def fmNote (st : Status) (s : State) : State :=
  histPush {
    recno := s.flt.recno, boots := s.pwr.boots, time := s.time, source := 2047, sev := 0, flags := 0, dom := 0xFFFF, port := 0xFF
    count := 1, supp := 0, detail := [word st.code] } s

/-- A standard command's answer (R442). -/
def stdSay (st : Status) (ws : List Nat) (s : State) : State :=
  match st with
  | .ok => fmSay 0 ws s
  | .invalid => fmSay rcInvalid [] s
  | .busy => fmSay rcBusy [] s
  | st => fmSay rcInternal [] (fmNote st s)

/-- A standard command on its path: where the engine refuses every command, it answers as R442 maps the status (R436, R489). -/
def fmStd (inband early : Bool) (run : State → State) (s : State) : State :=
  if !(pathOpen s inband) || !(alive s) then s
  else if s.flt.terminal then stdSay .faulted [] s
  else if !s.pwr.devReady && !early then stdSay .notReady [] s
  else fm inband early false run s

/-! ### Generic commands (R443) -/

/-- Identify: vendor and device ID; answered before DEVICE_READY (R436). -/
def execIdentify (inband : Bool) (s : State) : Host.Outcome State Fault Refusal := finish (fmStd inband true (fmSay 0 [0x1F3B, 0x4860]) s)

/-- Background Operation Status of FLASH_WRITE: running, sectors done, its opcode, its return code. -/
def execBackgroundOperationStatus (inband : Bool) (s : State) : Host.Outcome State Fault Refusal :=
  finish (fmStd inband false (fun s => fmSay 0 [b2n s.mgt.flashRun, s.mgt.flashDone, 0xC028, s.mgt.flashRet] s) s)

def execGetResponseMessageLimit (inband : Bool) (s : State) : Host.Outcome State Fault Refusal :=
  finish (fmStd inband false (fun s => fmSay 0 [s.mgt.respLim] s) s)

/-- Set Response Message Limit: 2^n bytes, from 256 bytes to 1 MiB (log entry 59, DEDUCED). -/
def execSetResponseMessageLimit (inband : Bool) (n : Fin 256) (s : State) : Host.Outcome State Fault Refusal :=
  finish (fmStd inband false (fun s =>
    if n.val < 8 || 20 < n.val then fmSay rcInvalid [] s
    else fmSay 0 [n.val] { s with mgt := { s.mgt with respLim := n.val } }) s)

/-- Bytes 0x30 to 0x7F of a Memory Loss or Device Fault record, as a number (R62, R491); the words of a dynamic capacity event or a
link event. -/
def evWords : EvKind → List Nat
  | .memLoss c fl dv d hpa len ln inc t =>
    [at_ c 0 + at_ fl 8 + at_ dv 16 + at_ d 32 + at_ hpa 64 + at_ len 128 + at_ ln 192 + at_ inc 224 + at_ t 256]
  | .devFault src sev fl d p t b n => [at_ src 0 + at_ sev 16 + at_ fl 24 + at_ d 32 + at_ p 48 + at_ t 64 + at_ b 128 + at_ n 160]
  | .addCapacity d bs => 0 :: d :: bs
  | .releaseCapacity d bs => 1 :: d :: bs
  | .link p up => [p, b2n up]

/-- The records of one log: its overflow indication (count, first and last time), then each record with its handle. -/
def logSay (l : EvLog) (log : Nat) : List Nat :=
  let x := sget (0, 0, 0) l.overflow log
  [x.1, x.2.1, x.2.2] ++ (l.recs.filter (fun r => r.1 == log)).flatMap (fun r => r.2.1 :: evWords r.2.2)

/-- Clears records by handle, or all of a log; a handle that is not the oldest ones' is left to the list (R400). -/
def logClear (l : EvLog) (log : Nat) (all : Bool) (hs : List Nat) : EvLog :=
  { l with
    recs := l.recs.filter (fun r => !((r.1 == log) && (all || hs.contains r.2.1)))
    overflow := if all || !hs.isEmpty then sdel l.overflow log else l.overflow }

def execGetEventRecords (inband : Bool) (log : Fin 5) (s : State) : Host.Outcome State Fault Refusal :=
  finish (fmStd inband false (fun s => fmSay 0 (logSay s.mgt.swLog log.val) s) s)
def execClearEventRecords (inband : Bool) (log : Fin 5) (all : Bool) (handles : List Nat) (s : State) : Host.Outcome State Fault Refusal :=
  finish (fmStd inband false (fun s =>
    fmSay 0 [] { s with mgt := { s.mgt with swLog := logClear s.mgt.swLog log.val all handles } }) s)
def execGetEventInterruptPolicy (inband : Bool) (s : State) : Host.Outcome State Fault Refusal :=
  finish (fmStd inband false (fun s => fmSay 0 [s.mgt.swLog.policy] s) s)
def execSetEventInterruptPolicy (inband : Bool) (policy : Nat) (s : State) : Host.Outcome State Fault Refusal :=
  finish (fmStd inband false (fun s => fmSay 0 [] { s with mgt := { s.mgt with swLog := { s.mgt.swLog with policy := policy } } }) s)

/-! ### Physical switch commands (R443) -/

/-- VCSs in use. -/
def vcsInUse (s : State) : List Nat := s.dom.vcsOf.filterMap (fun p => if p.2 = 0 then none else some (p.2 - 1))

/-- Identify Switch Device: ports, ports with a link, VCSs, VCSs in use, vPPBs, vPPBs bound, HDM decoders of an instance. -/
def execIdentifySwitchDevice (inband : Bool) (s : State) : Host.Outcome State Fault Refusal :=
  finish (fmStd inband false (fun s => fmSay 0 [96, ((List.range 96).filter (linkUp s)).length, 64, (vcsInUse s).length, 1024, vppbsBound s, 8] s) s)

/-- The state of a port: its role, link state, width, rate, flit mode. -/
def portWords (s : State) (p : Nat) : List Nat :=
  if isTrlPort s p then [p, 4, (trlOf s (p / 4)).st, 16, 0, 0]
  else let x := cxpOf s p; [p, portRole s p, x.link, x.width, x.rate, x.flit]

def execGetPhysicalPortState (inband : Bool) (ports : List Nat) (s : State) : Host.Outcome State Fault Refusal :=
  finish (fmStd inband false (fun s =>
    if ports.any (fun p => (96 ≤ p : Bool)) then fmSay rcInvalid [] s else fmSay 0 (ports.flatMap (portWords s)) s) s)

/-- The environment of a fabric operation that a management command carries out on core 0 (R445). -/
def fmEnv (w : List Word) (lds cap : Nat) (s : State) : FxEnv :=
  { who := .mgmt s.flg.seq, core := 0, p2 := false, w := w, lds := lds, cap := cap }

/-- Takes a sequence number for a management operation. -/
def takeSeq (s : State) : State := { s with flg := { s.flg with seq := s.flg.seq + 1 } }

/-- A fabric operation as a standard command (R442): its status decides the return code. -/
def stdFx (f : FxForm) (run : FxForm → FxEnv → State → FxOut) (w : List Word) (lds : Nat) (s : State) : State :=
  match run f (fmEnv w lds 0 s) (takeSeq s) with
  | .done st _ _ s1 => stdSay st [] s1
  | .wall _ s1 => s1
  | .meld _ s1 => s1

/-- Word 0 of a form. -/
def formWord (f : FxForm) : Word := word (at_ f.form 56 + at_ f.words 48)

/-- Physical Port Control as PORTCTL: 0 asserts PERST (DISABLE), 1 deasserts it (ENABLE), 2 resets the PPB: DISABLE, then ENABLE
(log entry 56, PRESUMED). -/
def execPhysicalPortControl (inband : Bool) (port op : Nat) (s : State) : Host.Outcome State Fault Refusal :=
  finish (fmStd inband false (fun s =>
    if 96 ≤ port then fmSay rcInvalid [] s
    else match op with
      | 0 => stdFx fPortDisable runPortDisable [formWord fPortDisable, word port] 0 s
      | 1 => stdFx fPortEnable runPortEnable [formWord fPortEnable, word port] 0 s
      | 2 => if subPortExists s port then stdFx fPortEnable runPortEnable [formWord fPortEnable, word port] 0 (portDisable port s)
        else fmSay rcInvalid [] s
      | _ => fmSay rcInvalid [] s) s)

/-- A configuration register that nothing was written to reads a free value, drawn and kept (log entry 60, DESIGN CHOICE). Function numbers: a
port's PPB is the port, a vPPB 1000 + VCS × 256 + vPPB, a KMD instance's configuration
100000 + VCS × 4096 + domain, its BAR0 400000 + VCS × 4096 + domain. -/
def cfgRead (fn reg : Nat) (s : State) : Word × State :=
  match sfind? s.mgt.cfg (fn * 4096 + reg % 4096) with
  | some v => (v, s)
  | none =>
    let v := word ((Config.freeWord s.free).toNat % 2 ^ 32)
    (v, drawFree { s with mgt := { s.mgt with cfg := sput s.mgt.cfg (fn * 4096 + reg % 4096) v } })

/-- Writes a configuration register. -/
def cfgWrite (fn reg : Nat) (v : Word) (s : State) : State := { s with mgt := { s.mgt with cfg := sput s.mgt.cfg (fn * 4096 + reg % 4096) v } }

def execSendPpbCxlioConfigRequest (inband : Bool) (port : Nat) (reg : Fin 4096) (wr : Bool) (value : BitVec 32) (s : State) :
    Host.Outcome State Fault Refusal :=
  finish (fmStd inband false (fun s =>
    if !(subPortExists s port) then fmSay rcInvalid [] s
    else if wr then fmSay 0 [] (cfgWrite port reg.val (value.zeroExtend 64) s)
    else let x := cfgRead port reg.val s; fmSay 0 [x.1.toNat] x.2) s)

/-! ### Virtual switch commands (R443) -/

/-- A vPPB's binding: its number, 1 KMD instance and its domain, 2 a port, 3 an LD. -/
def vppbWords (k : Nat) : Option VTarget → List Nat
  | none => [] | some (.kmd d) => [k, 1, d, 0] | some (.port p) => [k, 2, p, 0] | some (.ld p l) => [k, 3, p, l]

def execGetVirtualCxlSwitchInfo (inband : Bool) (vcs : Fin 64) (s : State) : Host.Outcome State Fault Refusal :=
  finish (fmStd inband false (fun s => match portOfVcs? s vcs.val with
    | none => fmSay rcInvalid [] s
    | some p => fmSay 0 (p :: s.dom.vppb.flatMap (fun e => if e.1 / 256 = vcs.val then vppbWords (e.1 % 256) e.2 else [])) s) s)

/-- Bind vPPB as BIND VPPB: to a port, or to an LD of it; `lds` is what enumeration finds behind the port (R57). -/
def execFmBindVppb (inband : Bool) (vcs : Fin 64) (vppb : Fin 256) (port : Fin 128) (ld : Option (Fin 16)) (lds : Nat) (s : State) :
    Host.Outcome State Fault Refusal :=
  finish (fmStd inband false (fun s =>
    let l := match ld with | some k => at_ 1 12 + at_ k.val 13 | none => 0
    stdFx fBindVppb runVppb [formWord fBindVppb, word (at_ vcs.val 40 + at_ vppb.val 32 + at_ port.val 17 + l + at_ 1 10)] lds s) s)

/-- An orderly removal starts: the VCS's new requests to the domain are refused (R53 step 1). -/
def removalStart (vcs vppb d : Nat) (s : State) : State :=
  if s.dom.removals.any (fun r => (r.vcs == vcs) && (r.vppb == vppb)) then stdSay .busy [] s
  else
    let x := domOf s d
    let s1 := domPut d { x with quiesced := if x.quiesced.contains vcs then x.quiesced else x.quiesced ++ [vcs] } s
    { s1 with dom := { s1.dom with removals := s1.dom.removals ++ [{ vcs := vcs, vppb := vppb, dom := d, waits := [], phase := 0 }] } }

/-- Unbind vPPB: of a KMD instance by an orderly removal (R47, R53; log entry 68, DESIGN CHOICE), of a pass-through target as UNBIND VPPB. -/
def execFmUnbindVppb (inband : Bool) (vcs : Fin 64) (vppb : Fin 256) (s : State) : Host.Outcome State Fault Refusal :=
  finish (fmStd inband false (fun s =>
    match sget none s.dom.vppb (vcs.val * 256 + vppb.val) with
    | some (.kmd d) => removalStart vcs.val vppb.val d s
    | _ => stdFx fUnbindVppb runUnbindVppb [formWord fUnbindVppb, word (at_ vcs.val 40 + at_ vppb.val 32)] 0 s) s)

/-- Generate AER Event: the host of the VCS sees an error of the vPPB (an output of code 26). -/
def execGenerateAerEvent (inband : Bool) (vcs : Fin 64) (vppb : Fin 256) (err : BitVec 32) (s : State) : Host.Outcome State Fault Refusal :=
  finish (fmStd inband false (fun s => match portOfVcs? s vcs.val with
    | none => fmSay rcInvalid [] s
    | some p => fmSay 0 [] (emit (.link p 26 (vppb.val * 2 ^ 32 + err.toNat)) s)) s)

/-! ### Toward LDs on device ports (R386, R443) -/

/-- A request toward a device port: firmware issues it, and its completion answers the command. -/
def fmTunnel (inband : Bool) (port : Nat) (s : State) : State :=
  fmStd inband false (fun s =>
    if !(portRole s port == 2) || !(linkUp s port) then fmSay rcInvalid [] s else ioIssue port (.mgmt 0) s) s

def execTunnelManagementCommand (inband : Bool) (port : Nat) (s : State) : Host.Outcome State Fault Refusal := finish (fmTunnel inband port s)
def execSendLdCxlioConfigRequest (inband : Bool) (port : Nat) (s : State) : Host.Outcome State Fault Refusal := finish (fmTunnel inband port s)
def execSendLdCxlioMemoryRequest (inband : Bool) (port : Nat) (s : State) : Host.Outcome State Fault Refusal := finish (fmTunnel inband port s)

/-! ### Dynamic capacity inside TUNNEL_KMD (R36, R37, R443) -/

/-- The DC regions of a domain: number, base (DA), length, block size. -/
def dcRegions (s : State) (dom : Nat) : List Nat :=
  let d := domOf s dom
  let u := unit256
  (if d.privSize = 0 then [] else [0, 0, d.privSize * u, 0x200000])
    ++ (if d.scohSize = 0 then [] else [1, d.privSize * u, d.scohSize * u, 0x200000])
    ++ (if d.sncoSize = 0 then [] else [2, (d.privSize + d.scohSize) * u, d.sncoSize * u, 0x200000])

/-- The extents of a domain: first DA and length of each block. -/
def dcExtents (s : State) (dom : Nat) : List Nat := (domOf s dom).extents.flatMap (fun b => [b * 0x200000, 0x200000])

/-- A request to a domain's instance; a domain without one refuses it. -/
def dcSay (dom : Nat) (f : State → List Nat) (s : State) : State :=
  if (domOf s dom).kmd then fmSay 0 (f s) s else fmSay rcInvalid [] s

/-- Get DCD Info: hosts, regions, capacity of the instance, block size. -/
def dcdInfo (dom : Nat) (s : State) : State :=
  dcSay dom (fun s => [(presenters s dom).length, (dcRegions s dom).length / 4, spanOf (domOf s dom) * unit256, 0x200000]) s

def execGetDcdInfo (dom : Fin 4096) (s : State) : Host.Outcome State Fault Refusal := finish (engine false false (dcdInfo dom.val) s)
def execGetHostDcRegionConfig (dom : Fin 4096) (s : State) : Host.Outcome State Fault Refusal :=
  finish (engine false false (dcSay dom.val (fun s => dcRegions s dom.val)) s)
def execSetDcRegionConfig (s : State) : Host.Outcome State Fault Refusal := finish (engine false false (fmSay rcUnsupported []) s)
def execGetDcRegionExtentLists (dom : Fin 4096) (s : State) : Host.Outcome State Fault Refusal :=
  finish (engine false false (dcSay dom.val (fun s => dcExtents s dom.val)) s)

/-- TUNNEL_KMD: a standard dynamic capacity request, by its opcode; the extents of Add and Release are given as blocks. -/
def execTunnelKmd (inband : Bool) (dom : Fin 4096) (opcode first n vcs : Nat) (blocks : List Nat) (s : State) :
    Host.Outcome State Fault Refusal :=
  finish (fm inband false false (fun s =>
    if opcode = 0x5600 then dcdInfo dom.val s
    else if opcode = 0x5601 then dcSay dom.val (fun s => dcRegions s dom.val) s
    else if opcode = 0x5603 then dcSay dom.val (fun s => dcExtents s dom.val) s
    else if opcode = 0x5604 then initiateDcAdd dom.val first n vcs s
    else if opcode = 0x5605 then initiateDcRelease dom.val blocks s
    else fmSay rcUnsupported [] s) s)

/-! ### FX_EXEC, barriers, slots (R445, R446) -/

/-- A fabric operation as its forms carry it out. -/
abbrev FxRun := FxForm → FxEnv → State → FxOut

/-- Every form of the fabric class but RESULTPUT. -/
def fxTable : List (FxForm × FxRun) :=
  [(fBindCreate, runCreate), (fBindQuiesce, runQuiesce), (fBindResume, runResume), (fBindVppb, runVppb), (fBindPooldev, runPooldev),
    (fBindEvacuate, runEvacuate), (fBindRetire, runRetire), (fBindConstraint, runConstraint), (fBindWall, runWall),
    (fUnbindVppb, runUnbindVppb), (fUnbindPooldev, runUnbindPooldev), (fWinset, runWinset), (fWinclr, runWinclr),
    (gateForm 1, runGateWrite), (gateForm 2, runGateStage), (gateForm 3, runGateInsert), (gateForm 4, runGateSwap), (gateForm 5, runGatePin),
    (gateclrForm 1, runUnlink), (gateclrForm 2, runFree)]
  ++ [(fExtend, runExtend), (fRelease, runRelease), (fPin, runPin), (fEntry, runEntry), (fLegs, runLegs), (fStart, runStart), (fCancel, runCancel),
    (fMovestat, runMovestat), (fHeatRead, runHeatRead), (fHeatSet, runHeatSet), (fSfquery, runSfquery), (fLineflush, runLineflush),
    (fMeld, runMeld), (fMirrorSet, runMirrorSet), (fMirrorClear, runMirrorClear), (fQosProfile, runQosProfile), (fQosDomain, runQosDomain),
    (fQosPortq, runQosPortq), (fQosAlpha, runQosAlpha), (fQosReserve, runQosReserve)]
  ++ [(fPortDisable, runPortDisable), (fPortEnable, runPortEnable), (fPortRetrain, runPortRetrain), (fPortPace, runPortPace),
    (fStage, runStage), (fCommit, runCommit), (fDiscard, runDiscard), (fNvstat, runNvstat), (fCntcfg, runCntcfg), (fCntread, runCntread),
    (fSamplecfg, runSamplecfg)]

/-- FX_EXEC of a descriptor: its form, or ST_INVALID (R445). -/
def fxExec (fn lds cap : Nat) (w : List Word) (s : State) : State :=
  let e := fmEnv w lds cap s
  let s1 := takeSeq s
  match fxTable.find? (fun x => (x.1.fn == fn) && (x.1.form == e.form)) with
  | some (f, run) => if w.length = f.words then fxEnd e (run f e s1) else fxEnd e (fxRefuse .invalid s1)
  | none => fxEnd e (fxRefuse .invalid s1)

/-- FX_EXEC: `lds` and `cap` are what enumeration finds behind a port (R57). -/
def execFxExec (inband : Bool) (fn : Fin 65536) (words : List Word) (lds cap : Nat) (s : State) : Host.Outcome State Fault Refusal :=
  finish (fm inband false false (fun s => if words.isEmpty then fmSay rcInvalid [] s else fxExec fn.val lds cap words s) s)

/-- BARRIER with KIND 1. -/
def execBarrierGsync (inband : Bool) (s : State) : Host.Outcome State Fault Refusal :=
  finish (fm inband false false (fun s => { s with gate := { s.gate with gsyncs := s.gate.gsyncs ++ [64] } }) s)

/-- BARRIER with KIND 2. -/
def execBarrierMsync (inband : Bool) (s : State) : Host.Outcome State Fault Refusal :=
  finish (fm inband false false (fun s => { s with dlr := { s.dlr with msyncs := s.dlr.msyncs ++ [64] } }) s)

/-- RESULT_GET (R446). -/
def resultGet (slot : Nat) (ack : Bool) (s : State) : State :=
  let x := slotOf s slot
  let w := (slotWords x).map BitVec.toNat
  if 4096 ≤ slot then fmSay Status.invalid.code [] s
  else if x.st = 1 then fmSay Status.notReady.code w s
  else if !ack then fmSay 0 w s
  else let r := slotAck slot s; fmSay r.1.code w r.2

def execResultGet (inband : Bool) (slot : Fin 65536) (ack : Bool) (s : State) : Host.Outcome State Fault Refusal :=
  finish (fm inband false false (resultGet slot.val ack) s)

/-! ### Rings (R326, R327, R449, R450) -/

/-- A portal push: the position, or why not. -/
def portalPush (n : Nat) (e : Line) (s : State) : Status × Nat × State :=
  let r := ringOf s n
  if posDiff r.w r.rel = ringCap r then (.noSpace, 0, countN 0x8002 none none 1 s)
  else
    let s1 := countN 0x8001 none none 1 (ringCommit n (ringPushE s.time e r) s)
    (.ok, r.w, if posDiff r.w r.rel < ringDepth r then s1 else countN 0x8003 none none 1 s1)

/-- A portal pop: RD and REL advance together (R327); an entry with an uncorrectable error gives zeros and ST_POISONED (R321). -/
def portalPop (n : Nat) (s : State) : Status × List Nat × State :=
  let r := ringOf s n
  if r.rd = r.w then (.notReady, [], s)
  else
    let bad := r.bad.contains r.rd
    let e := if bad then 0 else (sget 0 r.ents r.rd).toNat
    let s1 := if bad then ringPoison n r s else s
    let x := ringAdvance s1.time (ringOf s1 n)
    (if bad then .poisoned else .ok, [r.rd, e], ringCommit n (ringRelease x.rd x) s1)

/-- RING_PUSH of the fabric manager: rings with PORTAL 3 only. -/
def execFmRingPush (inband : Bool) (ring : Fin 65536) (entry : Line) (s : State) : Host.Outcome State Fault Refusal :=
  finish (fm inband false false (fun s =>
    let r := ringOf s ring.val
    if !r.en || !(r.portal == 3) then fmSay Status.denied.code [] s
    else let x := portalPush ring.val entry s; fmSay x.1.code (if x.1 = .ok then [x.2.1] else []) x.2.2) s)

/-- RING_POP of the fabric manager: rings with PORTAL 4 only. -/
def execFmRingPop (inband : Bool) (ring : Fin 65536) (s : State) : Host.Outcome State Fault Refusal :=
  finish (fm inband false false (fun s =>
    let r := ringOf s ring.val
    if !r.en || !(r.portal == 4) then fmSay Status.denied.code [] s
    else let x := portalPop ring.val s; fmSay x.1.code x.2.1 x.2.2) s)

/-! ### MEM_READ and MEM_WRITE (R447, R80, R81); debug accesses (R65, R74, R455) -/

/-- Why a memory command is refused before the Gate. -/
def memCheck (s : State) (a n dahi : Nat) : Option Status :=
  let _ := s
  match rangeOf a with
  | none => some .invalid
  | some .imem => some .invalid
  | some .dmem => some .invalid
  | some r =>
    if r.last < a + n - 1 then some .invalid
    else if decide (r = .aper) && !(a / 2 ^ 34 == (a + n - 1) / 2 ^ 34) then some .invalid
    else if !(decide (r = .aper)) && !(dahi == 0) then some .invalid
    else if decide (r = .oasis) then some .denied
    else if decide (r = .dev) && a < 0x2C000000 && (!(a % 8 == 0) || !(n % 8 == 0)) then some .invalid
    else none

/-- The Gate on a memory command: refused whole, and recorded (R80-R82); the address of the first refused line decides. -/
def memDeny (s : State) (a n dahi : Nat) (wr debug : Bool) : Option (Verdict × State) :=
  let p := if wr then Perm.w else Perm.r
  let k := if wr then 2 else 1
  let src := if debug then 0x300 else 0x200
  match rangeOf a with
  | some .aper =>
    (daCheck s (apDom a) (dahi * 2 ^ 34 + a % 2 ^ 34) n .p1 p true).map (fun x =>
      (x.2, gateRefuse x.1 (apDom a) .p1 debug (x.2.kind k) x.2.slot src n s))
  | _ => (dasCheck s a n .p1 p).map (fun x => (x.2, gateRefuse x.1 0xFFFF .p1 debug (x.2.kind k) x.2.slot src n s))

/-- Byte i of a DAS address that is not behind the aperture. -/
def dasByte (s : State) (a : Nat) : Byte :=
  match memAddr 0 a with
  | some x => memByte s.flg.mem x
  | none => BitVec.ofNat 8 ((devWord s (a / 8 * 8)).toNat / 2 ^ (8 * (a % 8)))

/-- The words that an access covers. -/
def wordsOf (a n : Nat) : List Nat := (List.range ((a + n + 7) / 8 - a / 8)).map (fun i => (a / 8 + i) * 8)

/-- A word of a kept memory in the range carries an uncorrectable error. -/
def rangeBad (s : State) (a n : Nat) : Bool := (wordsOf a n).any (fun w => match memAddr 0 w with | some x => badWord s x | none => false)

/-- Writes bytes to DAS addresses that are not behind the aperture: memory by byte, device registers by word. -/
def dasWrite (a : Nat) (bs : List Byte) (s : State) : State :=
  if 0x20000000 ≤ a && a < 0x2C000000 then
    (List.range (bs.length / 8)).foldl (fun s' i => devStore none (a + 8 * i) (word (leNat ((bs.drop (8 * i)).take 8))) s') s
  else
    let s1 := (List.range bs.length).foldl (fun s' i =>
      match memAddr 0 (a + i) with
      | some x => { s' with flg := { s'.flg with mem := memSet s'.flg.mem x (bs.getD i 0) } }
      | none => s') s
    (wordsOf a bs.length).foldl (fun s' w => if a ≤ w && w + 8 ≤ a + bs.length then
      (match memAddr 0 w with | some x => memHeal x s' | none => s') else s') s1

/-- The bytes of an access to the aperture go line by line as requests of one operation. -/
def memLines (a n dahi : Nat) (wr : Bool) (bs : List Byte) (s : State) : State :=
  let dom := apDom a
  let da := dahi * 2 ^ 34 + a % 2 ^ 34
  let seq := s.flg.seq
  let ls := linesOf da n
  let mk := fun (id l : Nat) =>
    let lo := max l da
    let hi := min (l + 64) (da + n)
    let d := leNat ((bs.drop (lo - da)).take (hi - lo))
    { mkReq id (.mgmt seq) (if wr then .wrPtl else .rdI) dom l (apMode s dom l) with
      data := BitVec.ofNat 512 (d * 2 ^ (8 * (lo - l))), mask := maskAt (lo - l) (hi - lo), time := s.time }
  let x := ls.foldl (fun (x : List Req × State) l =>
    let r := mk x.2.next l
    (x.1 ++ [r], reqAdd r (takeNext x.2))) ([], takeSeq s)
  let o : MgmtOp := { seq := seq, kind := if wr then 3 else 2, reqs := x.1.map (fun r => r.id), addr := da, len := n, bytes := [], st := .ok }
  let s1 := { x.2 with flg := { x.2.flg with mops := x.2.flg.mops ++ [o] } }
  x.1.foldl (fun s' r => dispatchReq r s') s1

/-- A vendor memory command (R447). -/
def memCmd (a n dahi : Nat) (wr : Bool) (bs : List Byte) (s : State) : State :=
  match memCheck s a n dahi with
  | some st => fmSay st.code [] s
  | none => match memDeny s a n dahi wr false with
    | some x => fmSay Status.denied.code [] x.2
    | none =>
      if decide (rangeOf a = some .aper) then memLines a n dahi wr bs s
      else if wr then fmSay 0 [] (dasWrite a bs s)
      else if rangeBad s a n then fmSay Status.poisoned.code [] s
      else fmSay 0 [leNat ((List.range n).map (fun i => dasByte s (a + i)))] s

/-- MEM_READ: a length outside 1 to 4,080 is a payload that the command does not have. -/
def execMemRead (inband : Bool) (das : Word) (len : Nat) (dahi : Fin 4096) (s : State) : Host.Outcome State Fault Refusal :=
  finish (fm inband false false (fun s =>
    if len = 0 || 4080 < len then fmSay rcInvalid [] s else memCmd das.toNat len dahi.val false [] s) s)

/-- MEM_WRITE. -/
def execMemWrite (inband : Bool) (das : Word) (dahi : Fin 4096) (bytes : List Byte) (s : State) : Host.Outcome State Fault Refusal :=
  finish (fm inband false false (fun s =>
    if bytes.isEmpty || 4080 < bytes.length then fmSay rcInvalid [] s else memCmd das.toNat bytes.length dahi.val true bytes s) s)

/-- The memory access that a debug master may make (R455): none, at P1. -/
def debugOn (s : State) : Bool :=
  match s.emr.life with
  | .manufacture => true | .debugUnlocked => true | .provisioned => true
  | .sealed => regFld s aDbgCfg 0 0 == 1
  | .decommissioned => false

/-- A locked line lies in an access. -/
def lockedAny (s : State) (a n : Nat) : Bool := (linesOf a n).any (lockedLine s)

/-- A debug master's memory access of up to 64 bytes (R65, R74, R81): in a locked region a read gives zeros, a write does nothing, and
the alarm sounds. -/
def debugAccess (c : Chan) (a n : Nat) (wr : Bool) (bs : List Byte) (s : State) : State :=
  if n = 0 || 64 < n then s
  else if lockedAny s a n then
    let s1 := match memDeny s a n 0 wr true with | some x => x.2 | none => s
    alarm 8 (if wr then s1 else respond c 0 [0] s1)
  else match memCheck s a n 0 with
    | some st => respond c st.code [] s
    | none => match memDeny s a n 0 wr true with
      | some x => respond c Status.denied.code [] x.2
      | none =>
        if decide (rangeOf a = some .aper) then respond c Status.denied.code [] s
        else if wr then dasWrite a bs s
        else if rangeBad s a n then respond c Status.poisoned.code [] s
        else respond c 0 [leNat ((List.range n).map (fun i => dasByte s (a + i)))] s

/-- A console command, which the lifecycle state allows or ignores (R437, R455); it is given as the memory access at P1 that it makes,
since the spec gives its effect and not its text (log entry 61, DESIGN CHOICE). -/
def execConsoleCommand (addr : Word) (wr : Bool) (bytes : List Byte) (s : State) : Host.Outcome State Fault Refusal :=
  finish (match s.emr.life with
    | .manufacture | .debugUnlocked =>
      if busLive s then
        let n := if wr then bytes.length else 8
        debugAccess .console addr.toNat n wr bytes { s with mgt := { s.mgt with console := s.mgt.console + 1 } }
      else s
    | _ => s)

end Sys2Proof.Machine
end

