-- ==== Sys2Proof/Machine/Tenant.lean ====
section
/-!
DEFINITION. Machine/Tenant.lean: program load and the boot flash (R435, R440, R444, R448, spec 10 R311-R313), the records that the
management paths read (R444, R468, R469, R492), and the tenant mailbox and configuration of a KMD instance (spec 15 R450, R451,
01 R24).
-/
namespace Sys2Proof.Machine

/-! ### Programs (R312, R313, R448) -/

/-- Bytes of firmware's assembly area (R448). -/
def asmArea : Nat := 393216

/-- A number of a program image. -/
def prNat (m : Memory) (o n : Nat) : Nat := leNat (memRead m o n)

/-- Step 1 of R313: the header. -/
def progForm (m : Memory) (len : Nat) : Bool :=
  let code := prNat m 8 4
  let data := prNat m 0xC 4
  prNat m 0 4 == 0x46505A4B && prNat m 4 2 == 1 && prNat m 6 1 == 2 && (prNat m 7 1 ≤ 4 : Bool)
    && (4 ≤ code : Bool) && (code ≤ 114688 : Bool) && code % 4 == 0 && (data ≤ 245760 : Bool) && data % 8 == 0
    && prNat m 0x10 4 % 4 == 0 && (prNat m 0x10 4 < code : Bool) && prNat m 0x48 56 == 0 && len == 0x80 + code + data + 512

/-- Step 2 of R313: the signature, and the minimum SVN of its key. -/
def progSigned (s : State) (m : Memory) (len : Nat) : Bool :=
  let k := prNat m 7 1
  let body := memRead m 0 (len - 512)
  let sig := memRead m (len - 512) 512
  if k = 0 then Config.romSigOk 0 body sig && (s.emr.fwMin ≤ prNat m 0x14 4 : Bool)
  else (keyOf_ s k).st == 1 && Config.sigOk (keyOf_ s k).mod body sig && ((keyOf_ s k).minSvn ≤ prNat m 0x14 4 : Bool)

/-- Cores that the stored settings assign to policy programs. -/
def policyCore (s : State) (n : Nat) : Bool := bit (imgWord s.pwr.bootImg 0x2D08) n

/-- Step 5 of R313: the core leaves P2; its old program's moves are cancelled, and its slots become IDLE, those whose outcome is
still to come included (log entry 55, DEDUCED). -/
def progOut (n : Nat) (s : State) : State :=
  let mine := fun (k : Nat) => (64 * n + 32 ≤ k : Bool) && (k < 64 * n + 64 : Bool)
  let s1 := (s.dlr.moves.filter (fun q => mine q.slot)).foldl (fun s' q =>
    movePost q.slot q.dom .conflict 1 (mapOf s' q.idx).gen 0
      { s' with dlr := { s'.dlr with moves := s'.dlr.moves.filter (fun x => !(x.idx == q.idx)) } }) s
  let s2 := abortMoves (fun c => mine c.slot) 1 s1
  (List.range 32).foldl (fun s' i =>
    let k := 64 * n + 32 + i
    let x := slotOf s' k
    if x.st = 0 then s' else slotPut k { x with st := 0 } s') s2

/-- Step 6 of R313: FLG_SCOPE, the code and data, the rest of the data area zeroed, g1 to g63 cleared, and the entry at P2 with
IE = 1 through frame 0 (R275). -/
def progEnter (n : Nat) (m : Memory) (s : State) : State :=
  let code := prNat m 8 4
  let data := prNat m 0xC 4
  let s1 := (List.range 4).foldl (fun s' k => storeReg s' (aScope + 32 * n + 8 * k) (imgWord m (0x28 + 8 * k))) s
  let w := coreWin n
  let mem1 := memWrite s1.flg.mem (w + 0x4000) (memRead m 0x80 code)
  let mem2 := memWrite (memClear mem1 (w + 0x44000 + data) (0x3C000 - data)) (w + 0x44000) (memRead m (0x80 + code) data)
  let c := coreOf s1 n
  let entry := 0x4000 + prNat m 0x10 4
  let f := frameAddr 0
  let s2 := { s1 with flg := { s1.flg with
    mem := mem2, bad := s1.flg.bad.filter (fun a => !((w + 0x44000 ≤ a : Bool) && (a < w + 0x80000 : Bool))) } }
  let s3 := stWord n f (word entry) (stWord n (f + 8) 3 s2)
  takeReturn n (corePut n { c with st := .run, g := [], busy := .none, depth := 1 } s3)

/-- R313 on a whole image. -/
def progLoad (n len : Nat) (m : Memory) (s : State) : Status × State :=
  if !(progForm m len) then (.invalid, s)
  else if !(progSigned s m len) then (.denied, sigFail 2 s)
  else if !(bit (imgWord m 0x20) n) || !(policyCore s n) then (.denied, s)
  else match emrLog 1 n (prNat m 7 1) 0 (prNat m 0x14 4) (memRead m 0 len) s with
    | none => (.noSpace, s)
    | some s1 => (.ok, progEnter n m (progOut n s1))

/-- A command of the other path that names the core of an assembly (R448). -/
def asmBusy (s : State) (path core : Nat) : Bool :=
  match s.mgt.asm with | some a => (a.core == core) && !(a.path == path) | none => false

/-- PROG_LOAD: a chunk joins the assembly; LAST starts R313. -/
def progChunk (path core offset : Nat) (first last : Bool) (bytes : List Byte) (s : State) : State :=
  let old : Assembly := s.mgt.asm.getD { core := core, path := path, len := 0 }
  let fits := if first then offset == 0 else s.mgt.asm.isSome && (old.core == core) && (old.len == offset)
  if 64 ≤ core then fmSay Status.invalid.code [] s
  else if asmBusy s path core then fmSay Status.busy.code [] s
  else if !fits then fmSay Status.conflict.code [] s
  else if asmArea < offset + bytes.length then fmSay Status.invalid.code [] s
  else
    let len := offset + bytes.length
    let img := memWrite (if first then [] else s.mgt.image) offset bytes
    if last then
      let x := progLoad core len img { s with mgt := { s.mgt with asm := none, image := [] } }
      fmSay x.1.code [] x.2
    else fmSay 0 [] { s with mgt := { s.mgt with asm := some { core := core, path := path, len := len }, image := img } }

def execProgLoad (inband : Bool) (core : Fin 256) (first last : Bool) (offset : Nat) (bytes : List Byte) (s : State) :
    Host.Outcome State Fault Refusal :=
  finish (fm inband false false (fun s =>
    if 4080 < bytes.length then fmSay rcInvalid [] s else progChunk (b2n inband) core.val offset first last bytes s) s)

/-- The core is left in a P1 idle loop of firmware's code; where it loops is free (log entry 63, DEDUCED). -/
def progIdle (n : Nat) (s : State) : State :=
  let c := coreOf s n
  drawFree (corePut n { c with
    st := .run, p2 := false, depth := 0, busy := .none, pc := (Config.freeWord s.free).toNat % 0x1000 * 4 } s)

/-- PROG_STOP (R448, R469). -/
def execProgStop (inband : Bool) (core : Fin 256) (s : State) : Host.Outcome State Fault Refusal :=
  finish (fm inband false false (fun s =>
    if 64 ≤ core.val then fmSay Status.invalid.code [] s
    else if asmBusy s (b2n inband) core.val then fmSay Status.busy.code [] s
    else match emrLog 2 core.val 0 0 0 [] s with
      | none => fmSay Status.noSpace.code [] s
      | some s1 => fmSay 0 [] (progIdle core.val (progOut core.val s1))) s)

/-! ### Records (R444, R468, R469, R492, R493) -/

/-- CRC-64 of R408 over bits, first bit first. -/
def crcBits : List Bool → BitVec 64 → BitVec 64
  | [], c => c
  | b :: t, c => crcBits t (if c.msb == b then c <<< 1 else (c <<< 1) ^^^ 0x42F0E1EBA9EA3693#64)

/-- CRC-64 of bytes: the register starts at ones, bytes go bit 0 first, the result is inverted and sent bit 0 first. -/
def crc64 (bs : List Byte) : Nat :=
  (~~~ (crcBits (bs.flatMap (fun b => (List.range 8).map (fun i => b.getLsbD i))) (BitVec.allOnes 64))).toNat

/-- The 64 bytes of a fault history record (R493). -/
def histBytes (r : HistRec) : List Byte :=
  let b := leBytes 4 r.recno ++ leBytes 4 r.boots ++ leBytes 8 r.time ++ leBytes 2 r.source ++ leBytes 1 r.sev ++ leBytes 1 r.flags
    ++ leBytes 2 r.dom ++ leBytes 1 r.port ++ leBytes 1 0 ++ leBytes 4 r.count ++ leBytes 4 r.supp
    ++ (List.range 3).flatMap (fun i => leBytes 8 (r.detail.getD i 0).toNat)
  b ++ leBytes 8 (crc64 b)

/-- Bytes of data that fit in a response after its status. -/
def fitBytes : Nat := 4088

/-- BOOT_RECORD_GET (R468). -/
def bootRecordGet (age : Nat) (s : State) : Nat × List Nat :=
  match (readRecs s)[age]? with
  | some r => (0, [leNat (recBytes s r)])
  | none => (Status.invalid.code, [])

/-- BOOT_RECORD_GET, served before DEVICE_READY and in TERMINAL (R436, R489). -/
def execBootRecordGet (inband : Bool) (age : Fin 256) (s : State) : Host.Outcome State Fault Refusal :=
  finish (fm inband true true (fun s => let x := bootRecordGet age.val s; fmSay x.1 x.2 s) s)

/-- MEASURE_LOG_GET: entries from FIRST, counted from 1. -/
def execMeasureLogGet (inband : Bool) (first : Nat) (s : State) : Host.Outcome State Fault Refusal :=
  finish (fm inband false false (fun s =>
    let from_ := max first 1
    let es := (s.emr.log.drop (from_ - 1)).take (fitBytes / 96)
    fmSay 0 ((List.range es.length).map (fun i => match es[i]? with | some e => leNat (logBytes (from_ + i) e) | none => 0)) s) s)

/-- The history in RECNO order. -/
def histInOrder (s : State) : List HistRec := (s.flt.main ++ s.flt.prot).foldl (fun l r => insHist r l) []
where
  /-- Inserts a record by its number. -/
  insHist (r : HistRec) : List HistRec → List HistRec
    | [] => [r]
    | x :: t => if r.recno ≤ x.recno then r :: x :: t else x :: insHist r t

/-- FAULT_HISTORY_GET, served in TERMINAL (R489). -/
def execFaultHistoryGet (inband : Bool) (first : Nat) (s : State) : Host.Outcome State Fault Refusal :=
  finish (fm inband false true (fun s =>
    fmSay 0 ((((histInOrder s).filter (fun r => (first ≤ r.recno : Bool))).take (fitBytes / 64)).map (fun r => leNat (histBytes r))) s) s)

/-! ### Boot flash (R435, R440, R444); a byte that nothing has written reads 0xFF, so its complement is kept -/

/-- Byte of the boot flash. -/
def flashByte (s : State) (a : Nat) : Byte := ~~~ (memByte s.mgt.flash a)

/-- Bytes of the boot flash. -/
def flashRead (s : State) (a n : Nat) : List Byte := (memRead s.mgt.flash a n).map (fun b => ~~~ b)

/-- A sector lies in the slot from which the running firmware was loaded. -/
def flashLocked (s : State) (a : Nat) : Bool :=
  match s.mgt.runSlot with
  | some 0 => (a < s.mgt.flashLen / 2 : Bool)
  | some _ => (s.mgt.flashLen / 2 ≤ a : Bool)
  | none => false

/-- A FLASH_WRITE chunk: chunks for one sector follow each other from its start, and LAST starts the background operation on every
sector collected (log entry 54, DEDUCED). -/
def flashChunk (offset : Nat) (last : Bool) (bytes : List Byte) (s : State) : State :=
  let sec := offset / 65536
  let same := s.mgt.flashOp.contains sec && (s.mgt.flashPos / 65536 == sec)
  let pos := if same then s.mgt.flashPos else offset
  if s.mgt.flashRun then fmSay rcBusy [] s
  else if !(offset % 65536 == 0) || s.mgt.flashLen ≤ offset || offset + 65536 < pos + bytes.length then fmSay Status.invalid.code [] s
  else if flashLocked s offset then fmSay Status.locked.code [] s
  else
    let m := { s.mgt with
      flashOp := if s.mgt.flashOp.contains sec then s.mgt.flashOp else s.mgt.flashOp ++ [sec]
      flashBuf := memWrite (if same then s.mgt.flashBuf else memClear s.mgt.flashBuf offset 65536) pos (bytes.map (fun b => ~~~ b))
      flashPos := pos + bytes.length }
    fmSay 0 [] { s with mgt := if last then { m with flashRun := true, flashDone := 0, flashPos := 0 } else m }

def execFlashWrite (inband : Bool) (offset : Nat) (last : Bool) (bytes : List Byte) (s : State) : Host.Outcome State Fault Refusal :=
  finish (fm inband false false (fun s =>
    if bytes.isEmpty || 4080 < bytes.length then fmSay rcInvalid [] s else flashChunk offset last bytes s) s)

/-- A sector is erased and programmed; after the last one the operation ends. -/
def execFlashSectorDone (s : State) : Host.Outcome State Fault Refusal :=
  finish (if !s.mgt.flashRun then s
    else match s.mgt.flashOp with
      | [] => { s with mgt := { s.mgt with flashRun := false } }
      | k :: t =>
        let a := k * 65536
        let keep := s.mgt.flashBuf.filter (fun c => (a ≤ c.1 : Bool) && (c.1 < a + 65536 : Bool))
        { s with mgt := { s.mgt with
            flash := keep.foldl (fun (m : Memory) (c : Nat × Byte) => memSet m c.1 c.2) (memClear s.mgt.flash a 65536)
            flashBuf := memClear s.mgt.flashBuf a 65536, flashOp := t, flashDone := s.mgt.flashDone + 1, flashRun := !t.isEmpty } })

/-- FLASH_READ. -/
def execFlashRead (inband : Bool) (offset len : Nat) (s : State) : Host.Outcome State Fault Refusal :=
  finish (fm inband false false (fun s =>
    if len = 0 || 4080 < len then fmSay rcInvalid [] s
    else if s.mgt.flashLen < offset + len then fmSay Status.invalid.code [] s
    else fmSay 0 [leNat (flashRead s offset len)] s) s)

/-! ### The tenant mailbox (R450, R400) -/

/-- A mailbox command of a host to the instance that its VCS presents. -/
def kmdCmd (vcs dom : Nat) (run : State → State) (s : State) : State :=
  match portOfVcs? s vcs with
  | some p => if (presenters s dom).contains vcs && linkUp s p then run s else s
  | none => s

/-- An answer of a mailbox. -/
def kmdSay (vcs dom code : Nat) (ws : List Nat) (s : State) : State := respond (.kmd vcs dom) code ws s

/-- The logs of an instance. -/
def kmdLog (s : State) (vcs dom : Nat) : EvLog := sget {} s.dom.logs (vcs * 4096 + dom)

/-- Replaces the logs. -/
def kmdLogPut (vcs dom : Nat) (l : EvLog) (s : State) : State :=
  { s with dom := { s.dom with logs := sset {} s.dom.logs (vcs * 4096 + dom) l } }

def execKmdIdentify (vcs : Fin 64) (dom : Fin 4096) (s : State) : Host.Outcome State Fault Refusal :=
  finish (kmdCmd vcs dom (kmdSay vcs dom 0 [0x1F3B, 0x4861]) s)
def execKmdGetEventRecords (vcs : Fin 64) (dom : Fin 4096) (log : Fin 5) (s : State) : Host.Outcome State Fault Refusal :=
  finish (kmdCmd vcs dom (fun s => kmdSay vcs dom 0 (logSay (kmdLog s vcs dom) log.val) s) s)
def execKmdClearEventRecords (vcs : Fin 64) (dom : Fin 4096) (log : Fin 5) (all : Bool) (handles : List Nat) (s : State) :
    Host.Outcome State Fault Refusal :=
  finish (kmdCmd vcs dom (fun s =>
    kmdSay vcs dom 0 [] (kmdLogPut vcs dom (logClear (kmdLog s vcs dom) log.val all handles) s)) s)
def execKmdGetEventIntPolicy (vcs : Fin 64) (dom : Fin 4096) (s : State) : Host.Outcome State Fault Refusal :=
  finish (kmdCmd vcs dom (fun s => kmdSay vcs dom 0 [(kmdLog s vcs dom).policy] s) s)
def execKmdSetEventIntPolicy (vcs : Fin 64) (dom : Fin 4096) (policy : Nat) (s : State) : Host.Outcome State Fault Refusal :=
  finish (kmdCmd vcs dom (fun s => kmdSay vcs dom 0 [] (kmdLogPut vcs dom { kmdLog s vcs dom with policy := policy } s)) s)
def execGetTimestamp (vcs : Fin 64) (dom : Fin 4096) (s : State) : Host.Outcome State Fault Refusal :=
  finish (kmdCmd vcs dom (fun s => kmdSay vcs dom 0 [s.time] s) s)
def execSetTimestamp (vcs : Fin 64) (dom : Fin 4096) (time : Word) (s : State) : Host.Outcome State Fault Refusal :=
  finish (kmdCmd vcs dom (fun s => kmdSay vcs dom 0 (let _ := time; []) s) s)

/-- The UUID of the Command Effects Log (CXL 3.1; log entry 58, PRESUMED). -/
def celUuid : Nat := 0x0DA9C0B5BF414B788F7996B1623B3F17

/-- The opcodes of the tenant mailbox. -/
def kmdOps : List Nat :=
  [0x0001, 0x0100, 0x0101, 0x0102, 0x0103, 0x0300, 0x0301, 0x0400, 0x0401, 0x4000, 0x4800, 0x4801, 0x4802, 0x4803, 0xC100, 0xC101, 0xC102, 0xC103]

def execGetSupportedLogs (vcs : Fin 64) (dom : Fin 4096) (s : State) : Host.Outcome State Fault Refusal :=
  finish (kmdCmd vcs dom (kmdSay vcs dom 0 [celUuid, 4 * kmdOps.length]) s)

/-- Get Log: opcodes and their effects; another log is not there. -/
def execGetLog (vcs : Fin 64) (dom : Fin 4096) (uuid : BitVec 128) (s : State) : Host.Outcome State Fault Refusal :=
  finish (kmdCmd vcs dom (fun s =>
    if uuid.toNat = celUuid then kmdSay vcs dom 0 (kmdOps.flatMap (fun o => [o, (Config.celEffects o).toNat])) s
    else kmdSay vcs dom rcInvalid [] s) s)
def execIdentifyMemoryDevice (vcs : Fin 64) (dom : Fin 4096) (s : State) : Host.Outcome State Fault Refusal :=
  finish (kmdCmd vcs dom (kmdSay vcs dom 0 [0, 0]) s)
def execGetDcConfiguration (vcs : Fin 64) (dom : Fin 4096) (s : State) : Host.Outcome State Fault Refusal :=
  finish (kmdCmd vcs dom (fun s => kmdSay vcs dom 0 (dcRegions s dom.val) s) s)
def execGetDcExtentList (vcs : Fin 64) (dom : Fin 4096) (s : State) : Host.Outcome State Fault Refusal :=
  finish (kmdCmd vcs dom (fun s => kmdSay vcs dom 0 (dcExtents s dom.val) s) s)

/-- An event names an incident. -/
def ofIncident (n : Nat) : EvKind → Bool
  | .memLoss _ _ _ _ _ _ _ inc _ => inc == n
  | _ => false

/-- LOSS_LIST_GET: the instance's records of an incident from the FIRST run, as many as fit. -/
def execLossListGet (vcs : Fin 64) (dom : Fin 4096) (incident first : Nat) (s : State) : Host.Outcome State Fault Refusal :=
  finish (kmdCmd vcs dom (fun s =>
    let rs := s.dom.lossList.filter (fun x => (x.1 == vcs.val) && (x.2.1 == dom.val) && ofIncident incident x.2.2)
    kmdSay vcs dom 0 (((rs.drop first).take (fitBytes / 80)).flatMap (fun x => evWords x.2.2)) s) s)

/-- The enabled ring of a domain in one direction. -/
def domRing (s : State) (dom portal : Nat) : Option Nat :=
  (s.ring.rings.find? (fun p => p.2.en && (p.2.portal == portal) && (p.2.dom == dom))).map (fun p => p.1)

def execKmdRingPush (vcs : Fin 64) (dom : Fin 4096) (entry : Line) (s : State) : Host.Outcome State Fault Refusal :=
  finish (kmdCmd vcs dom (fun s => match domRing s dom.val 1 with
    | none => kmdSay vcs dom Status.denied.code [] s
    | some n => let x := portalPush n entry s; kmdSay vcs dom x.1.code (if x.1 = .ok then [x.2.1] else []) x.2.2) s)
def execKmdRingPop (vcs : Fin 64) (dom : Fin 4096) (s : State) : Host.Outcome State Fault Refusal :=
  finish (kmdCmd vcs dom (fun s => match domRing s dom.val 2 with
    | none => kmdSay vcs dom Status.denied.code [] s
    | some n => let x := portalPop n s; kmdSay vcs dom x.1.code x.2.1 x.2.2) s)
def execKmdBootRecordGet (vcs : Fin 64) (dom : Fin 4096) (age : Fin 256) (s : State) : Host.Outcome State Fault Refusal :=
  finish (kmdCmd vcs dom (fun s => let x := bootRecordGet age.val s; kmdSay vcs dom x.1 x.2 s) s)

/-! ### KMD configuration and BAR0 (R24, R36, R169, R451) -/

/-- BAR0 of an instance as a host reads it. -/
def barRead (vcs dom off : Nat) (s : State) : Nat × State :=
  let k := vcs * 4096 + dom
  if off = 0x1000 then
    let b := sget (0, false) s.meld.base k
    (at_ b.1 35 + b2n b.2, s)
  else if off = 0x1008 then let n := sget (false, 0) s.mgt.notify k; (at_ (b2n n.1) 8 + n.2, s)
  else if off = 0x1010 then (dom, s)
  else if off < 0x1000 then let x := cfgRead (400000 + k) (off % 4096) s; (x.1.toNat, x.2)
  else (0, s)

/-- A CXL.io access of a host to a KMD instance: its configuration (`bar` false) or BAR0. The vendor and device IDs are R36's. -/
def execKmdConfigAccess (vcs : Fin 64) (dom : Fin 4096) (bar : Bool) (offset : Fin 65536) (wr : Bool) (value : Word) (s : State) :
    Host.Outcome State Fault Refusal :=
  finish (kmdCmd vcs dom (fun s =>
    let k := vcs.val * 4096 + dom.val
    let o := offset.val
    if !bar then
      (if wr then cfgWrite (100000 + k) (o % 4096) value s
       else if o = 0 then respond (.kmd vcs dom) 0 [0x48611F3B] s
       else let x := cfgRead (100000 + k) (o % 4096) s; respond (.kmd vcs dom) 0 [x.1.toNat] x.2)
    else if wr then
      (if o = 0x1000 then { s with meld := { s.meld with base := sset (0, false) s.meld.base k (fld value 45 35, bit value 0) } }
       else if o = 0x1008 then { s with mgt := { s.mgt with notify := sset (false, 0) s.mgt.notify k (bit value 8, fld value 2 0) } }
       else if o < 0x1000 then cfgWrite (400000 + k) (o % 4096) value s
       else s)
    else let x := barRead vcs dom o s; respond (.kmd vcs dom) 0 [x.1] x.2) s)

end Sys2Proof.Machine
end

