-- ==== Sys2Proof/Machine/Power.lean ====
section
/-!
DEFINITION. Machine/Power.lean: power good, the reset balls, the boot steps and their record (spec 20 R526-R533, spec 16 R462-R468),
the end of an NVM block write (R538, R493), and the end of device idle (R535).
-/
namespace Sys2Proof.Machine

/-! ### NVM writes (R493, R533, R538) -/

/-- The newest history record was not read back as written: its write is tried once more in the next record position; when that fails
too there is no record, and NVM_WRITE_FAIL is raised without one of its own (R493 step 5). -/
def histFail (s : State) : State :=
  let newest := s.flt.recno - 1
  if s.flt.recno = 0 then s
  else if s.pwr.histTry = 0 then { s with pwr := { s.pwr with histTry := 1 } }
  else if s.pwr.histTry = 1 then
    raiseQuiet fNvmWriteFail { s with
      pwr := { s.pwr with histTry := 2 }
      flt := { s.flt with main := s.flt.main.filter (fun r => !(r.recno == newest)), prot := s.flt.prot.filter (fun r => !(r.recno == newest)) } }
  else s

/-- A settings block has been written and read back; a reset that waited for it ends the commit and runs (R533, R540). -/
def blockEnd (ok : Bool) (s : State) : State :=
  if !s.pwr.writing then s
  else
    let s1 := blockDone ok s
    if s.pwr.resetReq = 0 then s1 else resetGo { s1 with pwr := { s1.pwr with writing := false, commit := none } }

/-- NVM_BLOCK_WRITE_DONE: a block of a settings commit, or (`hist`) the write of the newest history record, was read back right or
wrong. -/
def execNvmBlockWriteDone (hist ok : Bool) (s : State) : Host.Outcome State Fault Refusal :=
  finish (if hist then (if ok then s else histFail s) else blockEnd ok s)

/-! ### Power good and the reset balls (R529, R532, R533) -/

/-- PWR_OK rises: the cold boot begins, unless a reset still waits for a block. -/
def execPwrOkRise (s : State) : Host.Outcome State Fault Refusal :=
  finish (if s.pwr.pwrOk then s
    else
      let s1 := { s with pwr := { s.pwr with pwrOk := true } }
      if s.pwr.writing then s1 else coldReset s1)

/-- PWR_OK falls: DEVICE_READY drops, every slot gate turns off, the test access port resets, and a cold reset starts, which a running
block write outlasts (R516, R527, R529, R550). -/
def execPwrOkFall (s : State) : Host.Outcome State Fault Refusal :=
  finish (if !s.pwr.pwrOk then s
    else
      let s1 := { s with pwr := { s.pwr with pwrOk := false } }
      if s.pwr.writing then
        { s1 with
          tap := State.reset.tap, spc := s.spc.map (fun (e : Nat × Spc) => (e.1, e.2.coldReset))
          pwr := { s1.pwr with devReady := false, resetReq := 2 } }
      else coldReset s1)

/-- RESET_N is held low for 1 µs: a cold reset while PWR_OK is high. -/
def execResetN (s : State) : Host.Outcome State Fault Refusal :=
  finish (if !s.pwr.resetN then s
    else
      let s1 := { s with pwr := { s.pwr with resetN := false } }
      if s.pwr.pwrOk then resetAsk true s1 else s1)

/-- WARM_RESET_N is held low for 1 µs: a warm reset; together with RESET_N a cold one. -/
def execWarmResetN (s : State) : Host.Outcome State Fault Refusal :=
  finish (if !s.pwr.warmN then s
    else
      let s1 := { s with pwr := { s.pwr with warmN := false } }
      if s.pwr.pwrOk then resetAsk (!s.pwr.resetN) s1 else s1)

/-- A reset ball rises (`warm`: WARM_RESET_N): with both high, the boot runs. -/
def execResetBallRise (warm : Bool) (s : State) : Host.Outcome State Fault Refusal :=
  finish { s with pwr := if warm then { s.pwr with warmN := true } else { s.pwr with resetN := true } }

/-! ### The boot record (R463, R465-R467) -/

/-- The bytes of a settings copy with its trailer (R537). -/
def copyBytes (c : SetCopy) : List Byte :=
  let m := memRead c.bytes 0 trailerAt
  m ++ leBytes 4 0x54535A4B ++ leBytes 2 1 ++ leBytes 2 0 ++ leBytes 8 c.gen ++ digBytes (shaNat m) ++ leBytes 48 0

/-- The fault history as DIG_FH takes it: its records, oldest first, the main ring before the protected one (log entry 64, DEDUCED). -/
def histArea (s : State) : List Byte := (s.flt.main.reverse ++ s.flt.prot.reverse).flatMap histBytes

/-- KEYDIG and KEYSTATE. -/
def keyDigs (s : State) : List Nat := [1, 2, 3, 4].map (fun k => if (keyOf_ s k).st = 0 then 0 else shaNat (keyOf_ s k).mod)
def keyStates (s : State) : Nat := (([1, 2, 3, 4].map (fun k => at_ (keyOf_ s k).st (8 * (k - 1)))).sum : Nat)

/-- FLAGS of the record of a boot whose last step begun is `step`. -/
def recFlags (step : Nat) (s : State) : Nat :=
  let src := if step < 4 then 3 else s.erg.part.source
  b2n (!(hasId s)) + at_ src 1 + at_ (b2n (decide (4 ≤ step) && s.lane.tilesrc)) 3 + s.pwr.rec_.flags
    + at_ (b2n (bootCopyOf s.pwr.copyA s.pwr.copyB == some 1)) 6 + at_ (regFld s aAlarmCfg 63 63) 7 + at_ (regFld s aDbgCfg 0 0) 8

/-- The record of a boot that reached step 6 (`outcome` 0), or that stopped at a step: digests of later steps are zero. -/
def bootRecord (outcome fcode : Nat) (s : State) : BootRec :=
  let step := if outcome = 0 then 6 else outcome
  let copy := match bootCopyOf s.pwr.copyA s.pwr.copyB with | some n => shaNat (copyBytes (setCopy s (n == 1))) | none => 0
  { s.pwr.rec_ with
    boots := s.pwr.boots, life := s.emr.life.code, outcome := outcome, fcode := fcode, time := s.time, flags := recFlags step s
    digSet := if step < 4 then 0 else copy
    digFh := if step < 6 then 0 else shaNat (histArea s)
    keydig := keyDigs s, salt := s.free, keystate := keyStates s }

/-- The record is written to the next slot of the ring; a write that is not read back is tried again in the next slot, three times at
most (R467). `bad` attempts fail; with four there is no record: the boot stops and NVM_WRITE_FAIL is raised. -/
def recordWrite (r : BootRec) (bad : Nat) (s : State) : State :=
  let lost := List.replicate (min bad 4) (none : Option BootRec)
  let s1 := drawFree { s with emr := { s.emr with recs := ((if bad < 4 then [some r] else []) ++ lost ++ s.emr.recs).take 256 } }
  if bad < 4 then s1 else raiseN fNvmWriteFail { s1 with pwr := { s1.pwr with stopped := true } }

/-- A boot stops at a step (R463): its record is written, and DEVICE_READY stays low. -/
def bootStop (step fcode bad : Nat) (s : State) : State :=
  let s1 := recordWrite (bootRecord step fcode s) bad s
  { s1 with pwr := { s1.pwr with stopped := true } }

/-- A boot step has passed. -/
def bootPass (s : State) : State :=
  respond .console s.pwr.step [] { s with pwr := { s.pwr with progress := s.pwr.step, step := s.pwr.step + 1 } }

/-! ### Step 1: Emmor ROM (R454, R456, R466) -/

/-- BOOTS of a boot (R466); the number that a boot of this power cycle has drawn is not used again (R533). -/
def nextBoots (s : State) : Nat := max ((readRecs s).foldl (fun a r => max a r.boots) 0) s.pwr.boots + 1

/-- A wrapped identity that does not unwrap: it is damaged, or a state that needs it lacks it. -/
def unwrapFails (ok : Bool) (s : State) : Bool :=
  match s.emr.wrapped, s.emr.secret with
  | some _, some _ => !ok
  | _, _ => decide (s.emr.life = .provisioned) || decide (s.emr.life = .sealed)

/-- The settings image that a boot uses for locked regions. -/
def lockImg (s : State) : Memory := (bootImg? s).getD []

/-- Step 1: `test` the known-answer tests pass; `unwrap` the identity's tag matches. -/
def bootStep1 (test unwrap : Bool) (bad : Nat) (s : State) : State :=
  let s0 := { s with pwr := { s.pwr with vid := true, boots := nextBoots s, rec_ := {} } }
  let l := (lifeRead s0).getD .decommissioned
  let s1 := locksLoad (lockImg s0) { s0 with emr := { s0.emr with life := l, lifeBoot := l } }
  if !test then bootStop 1 0x0101 bad s0
  else if (lifeRead s0).isNone then bootStop 1 0x0102 bad s1
  else if decide (l = .decommissioned) then bootStop 1 0x0001 bad s1
  else if unwrapFails unwrap s1 then bootStop 1 0x0103 bad s1
  else bootPass { s1 with emr := { s1.emr with idok := s1.emr.wrapped.isSome } }

/-! ### Step 2: the firmware bundle (R464) -/

/-- First byte of a bundle slot (R435). -/
def slotBase (s : State) (b : Bool) : Nat := if b then s.mgt.flashLen / 2 else 0

/-- A number of a bundle header. -/
def hdNat (s : State) (b : Bool) (o n : Nat) : Nat := leNat (flashRead s (slotBase s b + o) n)

/-- A component of a bundle. -/
structure Comp where
  typ   : Nat
  off   : Nat
  len   : Nat
  cores : Nat
  deriving DecidableEq, Repr

/-- The components of a bundle's table. -/
def comps (s : State) (b : Bool) : List Comp :=
  (List.range (hdNat s b 7 1)).map (fun i =>
    let o := 0x240 + 32 * i
    { typ := hdNat s b o 1, off := hdNat s b (o + 4) 4, len := hdNat s b (o + 8) 4, cores := hdNat s b (o + 16) 8 })

/-- Two masks share no core, of each pair in a list. -/
def masksApart : List Nat → Bool
  | [] => true
  | m :: t => t.all (fun k => m &&& k == 0) && masksApart t

/-- The header is well formed. -/
def headerOk (s : State) (b : Bool) : Bool :=
  let len := hdNat s b 0x18 8
  let cs := comps s b
  let pol := cs.filter (fun c => c.typ == 2)
  hdNat s b 0 4 == 0x46425A4B && hdNat s b 4 2 == 1 && (hdNat s b 6 1 ≤ 1 : Bool) && (1 ≤ hdNat s b 7 1 : Bool) && (hdNat s b 7 1 ≤ 16 : Bool)
    && hdNat s b 0xC 4 == 0 && hdNat s b 0x224 28 == 0 && (0x440 ≤ len : Bool) && (len ≤ 0x1000000 : Bool)
    && (len + 512 ≤ s.mgt.flashLen / 2 : Bool)
    && (List.range (hdNat s b 7 1)).all (fun i =>
        hdNat s b (0x241 + 32 * i) 3 == 0 && hdNat s b (0x24C + 32 * i) 4 == 0 && hdNat s b (0x258 + 32 * i) 8 == 0)
    && cs.all (fun c => (c.typ == 1 || c.typ == 2) && (c.off + c.len ≤ len : Bool))
    && (pol.length ≤ 8 : Bool) && masksApart (pol.map (fun c => c.cores))

/-- The signed bytes of a bundle, its key, its signature. -/
def bundleBody (s : State) (b : Bool) : List Byte := flashRead s (slotBase s b) (hdNat s b 0x18 8)
def bundleKey (s : State) (b : Bool) : List Byte := flashRead s (slotBase s b + 0x20) 512
def bundleSig (s : State) (b : Bool) : List Byte := flashRead s (slotBase s b + hdNat s b 0x18 8) 512

/-- Outcome code of a slot; `readable` tells whether the flash can be read. -/
def slotCode (s : State) (readable b : Bool) : Nat :=
  let k := hdNat s b 6 1
  if !readable || !(headerOk s b) then 1
  else if !(Config.sha512 (bundleKey s b) == Config.romKeyDigest (1 + k)) || bit (word s.emr.fwRev) k || !(hdNat s b 0x220 4 == 65537) then 2
  else if hdNat s b 8 4 < s.emr.fwMin then 3
  else if !(Config.sigOk (bundleKey s b) (bundleBody s b) (bundleSig s b)) then 4 else 0

/-- A slot's outcome code in SLOTERR. -/
def slotErr (b : Bool) (code : Nat) : Nat := if b then at_ code 4 else code

/-- BOOT_SLOT of the boot copy: B where it holds 1. -/
def bootSlot (s : State) : Bool := imgNat (lockImg s) 0x2D04 1 == 1

/-- What the record says of the bundle that runs. -/
def bundleRun (b : Bool) (err : Nat) (s : State) : State :=
  { s with
    mgt := { s.mgt with runSlot := some (b2n b) }
    pwr := { s.pwr with rec_ := { s.pwr.rec_ with
      sloterr := err, fwSvn := hdNat s b 8 4, fwVer := hdNat s b 0x10 8, digFw := shaNat (bundleBody s b)
      flags := at_ (b2n b) 4 + at_ (b2n !(b == bootSlot s)) 5 } } }

/-- A failed signature counts (R475). -/
def slotSig (code : Nat) (s : State) : State := if code = 4 then sigFail 1 s else s

/-- Step 2. -/
def bootStep2 (readA readB : Bool) (bad : Nat) (s : State) : State :=
  let x := bootSlot s
  let c1 := slotCode s (if x then readB else readA) x
  let s1 := slotSig c1 s
  if c1 = 0 then bootPass (bundleRun x 0 s1)
  else
    let c2 := slotCode s1 (if x then readA else readB) (!x)
    let s2 := slotSig c2 s1
    let err := slotErr x c1 + slotErr (!x) c2
    if c2 = 0 then bootPass (bundleRun (!x) err s2)
    else bootStop 2 0x0201 bad { s2 with pwr := { s2.pwr with rec_ := { s2.pwr.rec_ with sloterr := err } } }

/-! ### Step 3: components (R246, R313) -/

/-- Cores of a mask. -/
def coresOf (m : Nat) : List Nat := (List.range 64).filter (fun n => bit (word m) n)

/-- The bundle that runs. -/
def runB (s : State) : Bool := s.mgt.runSlot == some 1

/-- A component's bytes. -/
def compBytes (s : State) (c : Comp) : List Byte := flashRead s (slotBase s (runB s) + c.off) c.len

/-- A firmware component is loaded from address 0 of each core's instruction memory (log entry 65, DEDUCED). -/
def loadFirmware (c : Comp) (s : State) : State :=
  { s with flg := { s.flg with mem := (coresOf c.cores).foldl (fun (m : Memory) (n : Nat) => memWrite m (coreWin n) (compBytes s c)) s.flg.mem } }

/-- A component loads: firmware that fits its memory, or a policy image that passes steps 1 and 2 of R313 with KEYSLOT 0. -/
def compLoad (c : Comp) (s : State) : Bool × State :=
  if c.typ = 1 then (if 0x20000 < c.len then (false, s) else (true, loadFirmware c s))
  else
    let bs := compBytes s c
    let m := memWrite [] 0 bs
    if !(progForm m c.len) || !(prNat m 7 1 == 0) then (false, s)
    else if !(progSigned s m c.len) then (false, sigFail 2 s)
    else (true, { s with pwr := { s.pwr with rec_ := { s.pwr.rec_ with
      policy := s.pwr.rec_.policy ++ [{ image := bs, cores := c.cores, svn := prNat m 0x14 4, keyslot := 0 }] } } })

/-- Every component in turn, up to one that fails. -/
def compsLoad : List Comp → State → Bool × State
  | [], s => (true, s)
  | c :: t, s => let x := compLoad c s; if x.1 then compsLoad t x.2 else x

/-- Step 3: the cores that a firmware component names start (log entry 65, DEDUCED). -/
def bootStep3 (bad : Nat) (s : State) : State :=
  let cs := comps s (runB s)
  let x := compsLoad cs s
  if x.1 then
    let named := ((cs.filter (fun c => c.typ == 1)).flatMap (fun c => coresOf c.cores)).eraseDups
    bootPass (named.foldl (fun s' n => coreStart n s') x.2)
  else bootStop 3 0x0301 bad x.2

/-! ### Steps 4 to 8 -/

/-- The defaults of the default policy's parameters (R217); its VERSION is free. -/
def policyDefaults (s : State) : State :=
  let bs := leBytes 4 5 ++ leBytes 4 16384 ++ leBytes 2 32 ++ leBytes 1 3 ++ leBytes 1 0 ++ leBytes 4 (Config.freeWord s.free).toNat
  drawFree { s with flg := { s.flg with mem := memWrite s.flg.mem 0x10F00000 bs } }

/-- A shipped policy is loaded by steps 3, 5 and 6 of R313 on the cores its entry names. -/
def policyLoad (p : PolicyRec) (s : State) : State :=
  let m := memWrite [] 0 p.image
  (coresOf p.cores).foldl (fun s' n =>
    if bit (imgWord m 0x20) n && policyCore s' n then progEnter n m (progOut n s') else s') s

/-- Step 4: the stored settings, then the policies that the bundle carries. -/
def bootStep4 (s : State) : State :=
  let s1 := policyDefaults (settingsLoad s)
  bootPass (s1.pwr.rec_.policy.foldl (fun s' p => policyLoad p s') s1)

/-- Outcome code of a subchannel's training. -/
def trainCode (codes : BitVec 128) (n : Nat) : Nat := codes.toNat / 4 ^ n % 4

/-- Step 5 (R234, R235): every subchannel's outcome code. -/
def bootStep5 (codes : BitVec 128) (bad : Nat) (s : State) : State :=
  let all := List.range 64
  let s1 := { s with pwr := { s.pwr with rec_ := { s.pwr.rec_ with oasis := codes.toNat } } }
  let s2 := (all.filter (fun n => trainCode codes n == 2)).foldl (fun s' _ => raiseN fOasMargin s') s1
  if all.any (fun n => trainCode codes n == 3) then bootStop 5 0x0501 bad s2
  else
    let s3 := all.foldl (fun s' n => subPut n { (subOf s' n : SubCh) with
      light := true, temp := stackTemp s' (stackOf n) } s') s2
    bootPass { s3 with dlr := { s3.dlr with nearTotal := 1026944 }, oas := { s3.oas with rate := fld (imgWord s3.pwr.bootImg 0x1D38) 1 0 } }

/-- Step 6: the boot record. -/
def bootStep6 (bad : Nat) (s : State) : State :=
  let s1 := recordWrite (bootRecord 0 0 s) bad s
  if bad < 4 then bootPass s1 else s1

/-- Step 7: device ports and TRL ports may train, slot controllers with AUTO start. -/
def bootStep7 (s : State) : State :=
  let s1 := spcAuto (bootPass s)
  (List.range 24).foldl (fun s' t => trlStart t s') s1

/-- Step 8: DEVICE_READY rises; host ports whose PERST_N is high train (R53, R397). -/
def bootStep8 (s : State) : State :=
  let s1 := bootPass { s with pwr := { s.pwr with devReady := true } }
  allPorts.foldl (fun s' p =>
    let x := cxpOf s' p
    if portRole s' p = 1 && x.perst && x.link = 0 then cxpPut p { x with link := 1 } s' else s') s1

/-- A boundary-scan instruction that drives outputs is in force: the device does not boot beyond step 1 (R550). -/
def scanHolds (s : State) : Bool := [0, 3, 4, 5].contains s.tap.ir

/-- BOOT_STEP_ADVANCE: the boot step that runs comes to its end. What the environment decides is given: the known-answer tests, the
identity's tag, whether each half of the boot flash reads, the Oasis training codes, failed writes of the boot record. -/
def execBootStepAdvance (test unwrap readA readB : Bool) (codes : BitVec 128) (bad : Fin 5) (s : State) :
    Host.Outcome State Fault Refusal :=
  finish (
    if !(alive s) || s.pwr.stopped || s.flt.terminal || !(s.pwr.resetReq == 0) || (!(s.pwr.step == 1) && scanHolds s) then s
    else match s.pwr.step with
      | 1 => bootStep1 test unwrap bad.val s
      | 2 => bootStep2 readA readB bad.val s
      | 3 => bootStep3 bad.val s
      | 4 => bootStep4 s
      | 5 => bootStep5 codes bad.val s
      | 6 => bootStep6 bad.val s
      | 7 => bootStep7 s
      | 8 => bootStep8 s
      | _ => s)

/-! ### Device idle (R535) -/

/-- DEVICE_IDLE_EXIT: what ends device idle is an admission or a deadline (none), or the wake source named. -/
def execDeviceIdleExit (source : Option (Fin 8191)) (s : State) : Host.Outcome State Fault Refusal :=
  finish (idleExit (match source with | some n => n.val | none => 0x1FFF) s)

end Sys2Proof.Machine
end

