-- ==== Sys2Proof/Machine/Jtag.lean ====
section
/-!
DEFINITION. Machine/Jtag.lean: the test access port (spec 21 R549, R550; spec 16 R455) and the debug master's memory access (R65,
R74). A boundary cell's place in the scan chain is not given: the cells are one number, shifted in whole (log entry 66, PRESUMED).
-/
namespace Sys2Proof.Machine

/-- A boundary-scan instruction is loaded; where it is accepted, the boundary cells take what is shifted in. -/
def tapCells (code cells : Nat) (s : State) : State :=
  let s1 := tapIr code s
  if tapTakes s code then { s1 with tap := { s1.tap with cells := cells } } else s1

/-- EXTEST: the outputs take the boundary cells. -/
def execExtest (cells : Nat) (s : State) : Host.Outcome State Fault Refusal := finish (tapCells 0x00 cells s)

/-- SAMPLE/PRELOAD: the cells are loaded, and no output changes. -/
def execSamplePreload (cells : Nat) (s : State) : Host.Outcome State Fault Refusal := finish (tapCells 0x01 cells s)

/-- IDCODE. -/
def execIdcode (s : State) : Host.Outcome State Fault Refusal :=
  finish (if tapTakes s 0x02 then respond .jtag 0 [0x14860B6F] (tapIr 0x02 s) else s)

/-- EXTEST_PULSE and EXTEST_TRAIN of IEEE 1149.6. -/
def execExtestPulse (cells : Nat) (s : State) : Host.Outcome State Fault Refusal := finish (tapCells 0x03 cells s)
def execExtestTrain (cells : Nat) (s : State) : Host.Outcome State Fault Refusal := finish (tapCells 0x04 cells s)

/-- CLAMP: the outputs hold what the cells hold. -/
def execClamp (s : State) : Host.Outcome State Fault Refusal := finish (tapIr 0x05 s)

/-- HIGHZ: the outputs go to high impedance. -/
def execHighz (s : State) : Host.Outcome State Fault Refusal := finish (tapIr 0x06 s)

/-- BYPASS: the code 0xFF, and every code that no instruction has. -/
def execBypass (s : State) : Host.Outcome State Fault Refusal := finish (tapIr 0xFF s)

/-- The reset of the port: TRST_N low, or five TCK with TMS high; IDCODE is in force. -/
def tapReset (s : State) : State := { s with tap := State.reset.tap }

def execTapReset (s : State) : Host.Outcome State Fault Refusal := finish (tapReset s)

/-- DEBUG_ACCESS: EMR_DEBUG is loaded, and where the lifecycle state accepts it the debug port accesses memory at P1. -/
def execDebugAccess (addr : Word) (len : Fin 65) (wr : Bool) (bytes : List Byte) (s : State) : Host.Outcome State Fault Refusal :=
  let s1 := tapIr 0x22 s
  finish (if tapTakes s 0x22 && debugOn s && alive s then
      debugAccess .jtag addr.toNat (if wr then bytes.length else len.val) wr bytes s1
    else s1)

end Sys2Proof.Machine
end

