-- ==== Sys2Proof/Machine/Dispatch.lean ====
section
/-!
DEFINITION. Machine/Dispatch.lean: one arm for each command.
-/
namespace Sys2Proof.Machine

/-- A command's effect on everything but the queue. -/
def exec (i : Instr) (s : State) : Host.Outcome State Fault Refusal :=
  match i with
  | .flitReceive port seq err tlp classes => Sys2Proof.Machine.execFlitReceive port seq err tlp classes s
  | .memrd port tag hpa mv err => Sys2Proof.Machine.execMemrd port tag hpa mv err s
  | .memrddata port tag hpa err => Sys2Proof.Machine.execMemrddata port tag hpa err s
  | .meminv port tag hpa mv err => Sys2Proof.Machine.execMeminv port tag hpa mv err s
  | .memwr port tag hpa mv data poison err => Sys2Proof.Machine.execMemwr port tag hpa mv data poison err s
  | .memwrptl port tag hpa mv data mask poison err => Sys2Proof.Machine.execMemwrptl port tag hpa mv data mask poison err s
  | .memclnevct port tag hpa => Sys2Proof.Machine.execMemclnevct port tag hpa s
  | .memspecrd port hpa => Sys2Proof.Machine.execMemspecrd port hpa s
  | .birspi port id => Sys2Proof.Machine.execBirspi port id s
  | .birsps port id => Sys2Proof.Machine.execBirsps port id s
  | .birspe port id => Sys2Proof.Machine.execBirspe port id s
  | .biconflict port id => Sys2Proof.Machine.execBiconflict port id s
  | .gateCacheFill list => Sys2Proof.Machine.execGateCacheFill list s
  | .placementTlbFill idx => Sys2Proof.Machine.execPlacementTlbFill idx s
  | .fillCommit idx => Sys2Proof.Machine.execFillCommit idx s
  | .fillWaitExpire idx => Sys2Proof.Machine.execFillWaitExpire idx s
  | .poolMemdata port tag data poison => Sys2Proof.Machine.execPoolMemdata port tag data poison s
  | .poolCmp port tag => Sys2Proof.Machine.execPoolCmp port tag s
  | .poolErrorResponse port tag => Sys2Proof.Machine.execPoolErrorResponse port tag s
  | .passthroughForward port vppb id len cls isReq => Sys2Proof.Machine.execPassthroughForward port vppb id len cls isReq s
  | .pbrFlit port dpid id len ioReq isReq => Sys2Proof.Machine.execPbrFlit port dpid id len ioReq isReq s
  | .kmdConfigAccess vcs dom bar offset wr value => Sys2Proof.Machine.execKmdConfigAccess vcs dom bar offset wr value s
  | .hdmDecoderCommit vcs dom dec hpa size da bi => Sys2Proof.Machine.execHdmDecoderCommit vcs dom dec hpa size da bi s
  | .atomicopFetchadd port vppb tag off w a => Sys2Proof.Machine.execAtomicopFetchadd port vppb tag off w a s
  | .atomicopSwap port vppb tag off w a => Sys2Proof.Machine.execAtomicopSwap port vppb tag off w a s
  | .atomicopCas port vppb tag off w a b => Sys2Proof.Machine.execAtomicopCas port vppb tag off w a b s
  | .meldTrackerResume unit => Sys2Proof.Machine.execMeldTrackerResume unit s
  | .meldFarTimeout tag => Sys2Proof.Machine.execMeldFarTimeout tag s
  | .txRecord port => Sys2Proof.Machine.execTxRecord port s
  | .parkRelease port cls => Sys2Proof.Machine.execParkRelease port cls s
  | .subqueueHeadFree port => Sys2Proof.Machine.execSubqueueHeadFree port s
  | .creditAdvertise port cls n => Sys2Proof.Machine.execCreditAdvertise port cls n s
  | .creditReceived port chan n infinite => Sys2Proof.Machine.execCreditReceived port chan n infinite s
  | .flitAck port seq => Sys2Proof.Machine.execFlitAck port seq s
  | .cxlReplayRequest port seq selective => Sys2Proof.Machine.execCxlReplayRequest port seq selective s
  | .paceWindow cycle => Sys2Proof.Machine.execPaceWindow cycle s
  | .paceLevelDecay => Sys2Proof.Machine.execPaceLevelDecay s
  | .ergPatrolScrub kind grain w cell rec_ => Sys2Proof.Machine.execErgPatrolScrub kind grain w cell rec_ s
  | .linkDown port => Sys2Proof.Machine.execLinkDown port s
  | .hostLost port => Sys2Proof.Machine.execHostLost port s
  | .poolDeviceLost dev => Sys2Proof.Machine.execPoolDeviceLost dev s
  | .lossWalkStep dev n => Sys2Proof.Machine.execLossWalkStep dev n s
  | .initiateDcAdd dom first n vcs => Sys2Proof.Machine.execInitiateDcAdd dom first n vcs s
  | .addDcResponse vcs dom accepted => Sys2Proof.Machine.execAddDcResponse vcs dom accepted s
  | .releaseDc vcs dom blocks => Sys2Proof.Machine.execReleaseDc vcs dom blocks s
  | .initiateDcRelease dom blocks => Sys2Proof.Machine.execInitiateDcRelease dom blocks s
  | .releaseDrainDone dom => Sys2Proof.Machine.execReleaseDrainDone dom s
  | .scrubParcelDone dev => Sys2Proof.Machine.execScrubParcelDone dev s
  | .bindCreate core gd ga => Sys2Proof.Machine.execBindCreate core gd ga s
  | .bindQuiesce core gd ga => Sys2Proof.Machine.execBindQuiesce core gd ga s
  | .bindResume core gd ga => Sys2Proof.Machine.execBindResume core gd ga s
  | .bindVppb core gd ga lds => Sys2Proof.Machine.execBindVppb core gd ga lds s
  | .bindPooldev core gd ga lds cap => Sys2Proof.Machine.execBindPooldev core gd ga lds cap s
  | .bindEvacuate core gd ga => Sys2Proof.Machine.execBindEvacuate core gd ga s
  | .bindRetire core gd ga => Sys2Proof.Machine.execBindRetire core gd ga s
  | .bindConstraint core gd ga => Sys2Proof.Machine.execBindConstraint core gd ga s
  | .bindWall core gd ga => Sys2Proof.Machine.execBindWall core gd ga s
  | .unbindVppb core gd ga => Sys2Proof.Machine.execUnbindVppb core gd ga s
  | .unbindPooldev core gd ga => Sys2Proof.Machine.execUnbindPooldev core gd ga s
  | .winset core gd ga => Sys2Proof.Machine.execWinset core gd ga s
  | .winclr core gd ga => Sys2Proof.Machine.execWinclr core gd ga s
  | .winclrDrainDone win => Sys2Proof.Machine.execWinclrDrainDone win s
  | .gatesetWrite core gd ga => Sys2Proof.Machine.execGatesetWrite core gd ga s
  | .gatesetStage core gd ga => Sys2Proof.Machine.execGatesetStage core gd ga s
  | .gatesetInsert core gd ga => Sys2Proof.Machine.execGatesetInsert core gd ga s
  | .gatesetSwap core gd ga => Sys2Proof.Machine.execGatesetSwap core gd ga s
  | .gatesetPin core gd ga => Sys2Proof.Machine.execGatesetPin core gd ga s
  | .gateclrUnlink core gd ga => Sys2Proof.Machine.execGateclrUnlink core gd ga s
  | .gateclrFree core gd ga => Sys2Proof.Machine.execGateclrFree core gd ga s
  | .gsyncRetire => Sys2Proof.Machine.execGsyncRetire s
  | .msyncRetire => Sys2Proof.Machine.execMsyncRetire s
  | .lineQueueGrant dom da => Sys2Proof.Machine.execLineQueueGrant dom da s
  | .trackerFreeResume slice => Sys2Proof.Machine.execTrackerFreeResume slice s
  | .holdExpire dom da => Sys2Proof.Machine.execHoldExpire dom da s
  | .lcEvictComplete dom da => Sys2Proof.Machine.execLcEvictComplete dom da s
  | .bisnpTimeout id => Sys2Proof.Machine.execBisnpTimeout id s
  | .hreqS tile sw dom line tag => Sys2Proof.Machine.execHreqS tile sw dom line tag s
  | .hreqX tile sw dom line tag => Sys2Proof.Machine.execHreqX tile sw dom line tag s
  | .hreqCur tile sw dom line tag notrack => Sys2Proof.Machine.execHreqCur tile sw dom line tag notrack s
  | .hreqWr tile sw dom line tag notrack data mask poison => Sys2Proof.Machine.execHreqWr tile sw dom line tag notrack data mask poison s
  | .hwb tile sw dom line tag kept data poison => Sys2Proof.Machine.execHwb tile sw dom line tag kept data poison s
  | .hgntS tile dom line tag st data => Sys2Proof.Machine.execHgntS tile dom line tag st data s
  | .hgntX tile dom line tag st data => Sys2Proof.Machine.execHgntX tile dom line tag st data s
  | .hcmp tile dom line tag st => Sys2Proof.Machine.execHcmp tile dom line tag st s
  | .hsnpInv tile home dom line tag => Sys2Proof.Machine.execHsnpInv tile home dom line tag s
  | .hsnpData tile home dom line tag => Sys2Proof.Machine.execHsnpData tile home dom line tag s
  | .hsnpCur tile home dom line tag => Sys2Proof.Machine.execHsnpCur tile home dom line tag s
  | .hrspI tile sw dom line tag data poison => Sys2Proof.Machine.execHrspI tile sw dom line tag data poison s
  | .hrspS tile sw dom line tag data poison => Sys2Proof.Machine.execHrspS tile sw dom line tag data poison s
  | .hrspE tile sw dom line tag data poison => Sys2Proof.Machine.execHrspE tile sw dom line tag data poison s
  | .hmeld tile sw dom line tag op width off notrack a b => Sys2Proof.Machine.execHmeld tile sw dom line tag op width off notrack a b s
  | .hmeldRsp tile dom line tag st old qdepth same => Sys2Proof.Machine.execHmeldRsp tile dom line tag st old qdepth same s
  | .hsnpTimeout id => Sys2Proof.Machine.execHsnpTimeout id s
  | .heartbeat tile sw incarn => Sys2Proof.Machine.execHeartbeat tile sw incarn s
  | .heartbeatSend => Sys2Proof.Machine.execHeartbeatSend s
  | .switchLost sw => Sys2Proof.Machine.execSwitchLost sw s
  | .messageForward tile op src dst hops dom tag st line args notrack data mask => Sys2Proof.Machine.execMessageForward tile op src dst hops dom tag st line args notrack data mask s
  | .routeFenceEnd tile => Sys2Proof.Machine.execRouteFenceEnd tile s
  | .caravanMoveStart => Sys2Proof.Machine.execCaravanMoveStart s
  | .chunkComplete car lines poison err => Sys2Proof.Machine.execChunkComplete car lines poison err s
  | .moveFlip car => Sys2Proof.Machine.execMoveFlip car s
  | .switchMaxExpire car => Sys2Proof.Machine.execSwitchMaxExpire car s
  | .migrationAllowance => Sys2Proof.Machine.execMigrationAllowance s
  | .epochEnd => Sys2Proof.Machine.execEpochEnd s
  | .heatSweep n => Sys2Proof.Machine.execHeatSweep n s
  | .pmapsetExtend core gd ga => Sys2Proof.Machine.execPmapsetExtend core gd ga s
  | .pmapsetRelease core gd ga => Sys2Proof.Machine.execPmapsetRelease core gd ga s
  | .pmapsetPin core gd ga => Sys2Proof.Machine.execPmapsetPin core gd ga s
  | .pmapgetEntry core gd ga => Sys2Proof.Machine.execPmapgetEntry core gd ga s
  | .pmapgetLegs core gd ga => Sys2Proof.Machine.execPmapgetLegs core gd ga s
  | .moveStart core gd ga => Sys2Proof.Machine.execMoveStart core gd ga s
  | .moveCancel core gd ga => Sys2Proof.Machine.execMoveCancel core gd ga s
  | .movestat core gd ga => Sys2Proof.Machine.execMovestat core gd ga s
  | .heatRead core gd ga => Sys2Proof.Machine.execHeatRead core gd ga s
  | .heatSet core gd ga => Sys2Proof.Machine.execHeatSet core gd ga s
  | .sfquery core gd ga => Sys2Proof.Machine.execSfquery core gd ga s
  | .lineflush core gd ga => Sys2Proof.Machine.execLineflush core gd ga s
  | .lineflushDone slot outcome => Sys2Proof.Machine.execLineflushDone slot outcome s
  | .meld core gd ga => Sys2Proof.Machine.execMeld core gd ga s
  | .mirrorSet core gd ga => Sys2Proof.Machine.execMirrorSet core gd ga s
  | .mirrorClear core gd ga => Sys2Proof.Machine.execMirrorClear core gd ga s
  | .qossetProfile core gd ga => Sys2Proof.Machine.execQossetProfile core gd ga s
  | .qossetDomain core gd ga => Sys2Proof.Machine.execQossetDomain core gd ga s
  | .qossetPortq core gd ga => Sys2Proof.Machine.execQossetPortq core gd ga s
  | .qossetAlpha core gd ga => Sys2Proof.Machine.execQossetAlpha core gd ga s
  | .qossetReserve core gd ga => Sys2Proof.Machine.execQossetReserve core gd ga s
  | .portctlDisable core gd ga => Sys2Proof.Machine.execPortctlDisable core gd ga s
  | .portctlEnable core gd ga => Sys2Proof.Machine.execPortctlEnable core gd ga s
  | .portctlRetrain core gd ga => Sys2Proof.Machine.execPortctlRetrain core gd ga s
  | .portctlPace core gd ga => Sys2Proof.Machine.execPortctlPace core gd ga s
  | .nvstoreStage core gd ga => Sys2Proof.Machine.execNvstoreStage core gd ga s
  | .nvstoreCommit core gd ga => Sys2Proof.Machine.execNvstoreCommit core gd ga s
  | .nvmBlockWriteDone hist ok => Sys2Proof.Machine.execNvmBlockWriteDone hist ok s
  | .nvstoreDiscard core gd ga => Sys2Proof.Machine.execNvstoreDiscard core gd ga s
  | .nvstat core gd ga => Sys2Proof.Machine.execNvstat core gd ga s
  | .cntcfg core gd ga => Sys2Proof.Machine.execCntcfg core gd ga s
  | .cntread core gd ga => Sys2Proof.Machine.execCntread core gd ga s
  | .samplecfg core gd ga => Sys2Proof.Machine.execSamplecfg core gd ga s
  | .resultputAck core gd ga => Sys2Proof.Machine.execResultputAck core gd ga s
  | .resultputPost core gd ga => Sys2Proof.Machine.execResultputPost core gd ga s
  | .add core gd ga gb => Sys2Proof.Machine.execAdd core gd ga gb s
  | .sub core gd ga gb => Sys2Proof.Machine.execSub core gd ga gb s
  | .and core gd ga gb => Sys2Proof.Machine.execAnd core gd ga gb s
  | .or core gd ga gb => Sys2Proof.Machine.execOr core gd ga gb s
  | .xor core gd ga gb => Sys2Proof.Machine.execXor core gd ga gb s
  | .sll core gd ga gb => Sys2Proof.Machine.execSll core gd ga gb s
  | .srl core gd ga gb => Sys2Proof.Machine.execSrl core gd ga gb s
  | .sra core gd ga gb => Sys2Proof.Machine.execSra core gd ga gb s
  | .slt core gd ga gb => Sys2Proof.Machine.execSlt core gd ga gb s
  | .sltu core gd ga gb => Sys2Proof.Machine.execSltu core gd ga gb s
  | .clz core gd ga gb => Sys2Proof.Machine.execClz core gd ga gb s
  | .ctz core gd ga gb => Sys2Proof.Machine.execCtz core gd ga gb s
  | .popc core gd ga gb => Sys2Proof.Machine.execPopc core gd ga gb s
  | .addi core gd ga imm => Sys2Proof.Machine.execAddi core gd ga imm s
  | .andi core gd ga imm => Sys2Proof.Machine.execAndi core gd ga imm s
  | .ori core gd ga imm => Sys2Proof.Machine.execOri core gd ga imm s
  | .xori core gd ga imm => Sys2Proof.Machine.execXori core gd ga imm s
  | .slli core gd ga imm => Sys2Proof.Machine.execSlli core gd ga imm s
  | .srli core gd ga imm => Sys2Proof.Machine.execSrli core gd ga imm s
  | .srai core gd ga imm => Sys2Proof.Machine.execSrai core gd ga imm s
  | .limm core gd imm => Sys2Proof.Machine.execLimm core gd imm s
  | .limmh core gd imm => Sys2Proof.Machine.execLimmh core gd imm s
  | .ldb core gd ga imm err => Sys2Proof.Machine.execLdb core gd ga imm err s
  | .ldh core gd ga imm err => Sys2Proof.Machine.execLdh core gd ga imm err s
  | .ldw core gd ga imm err => Sys2Proof.Machine.execLdw core gd ga imm err s
  | .ldd core gd ga imm err => Sys2Proof.Machine.execLdd core gd ga imm err s
  | .stb core gs ga imm err => Sys2Proof.Machine.execStb core gs ga imm err s
  | .sth core gs ga imm err => Sys2Proof.Machine.execSth core gs ga imm err s
  | .stw core gs ga imm err => Sys2Proof.Machine.execStw core gs ga imm err s
  | .std core gs ga imm => Sys2Proof.Machine.execStd core gs ga imm s
  | .mul core gd ga gb => Sys2Proof.Machine.execMul core gd ga gb s
  | .mulhu core gd ga gb => Sys2Proof.Machine.execMulhu core gd ga gb s
  | .mulhs core gd ga gb => Sys2Proof.Machine.execMulhs core gd ga gb s
  | .divu core gd ga gb => Sys2Proof.Machine.execDivu core gd ga gb s
  | .divs core gd ga gb => Sys2Proof.Machine.execDivs core gd ga gb s
  | .remu core gd ga gb => Sys2Proof.Machine.execRemu core gd ga gb s
  | .rems core gd ga gb => Sys2Proof.Machine.execRems core gd ga gb s
  | .cget core gd ga imm => Sys2Proof.Machine.execCget core gd ga imm s
  | .cset core gd ga imm => Sys2Proof.Machine.execCset core gd ga imm s
  | .ladd core gd ga gb w32 err => Sys2Proof.Machine.execLadd core gd ga gb w32 err s
  | .land core gd ga gb w32 err => Sys2Proof.Machine.execLand core gd ga gb w32 err s
  | .lor core gd ga gb w32 err => Sys2Proof.Machine.execLor core gd ga gb w32 err s
  | .lxor core gd ga gb w32 err => Sys2Proof.Machine.execLxor core gd ga gb w32 err s
  | .lswap core gd ga gb w32 err => Sys2Proof.Machine.execLswap core gd ga gb w32 err s
  | .lcas core gd ga gb w32 err => Sys2Proof.Machine.execLcas core gd ga gb w32 err s
  | .beq core ga gb off => Sys2Proof.Machine.execBeq core ga gb off s
  | .bne core ga gb off => Sys2Proof.Machine.execBne core ga gb off s
  | .blt core ga gb off => Sys2Proof.Machine.execBlt core ga gb off s
  | .bge core ga gb off => Sys2Proof.Machine.execBge core ga gb off s
  | .bltu core ga gb off => Sys2Proof.Machine.execBltu core ga gb off s
  | .bgeu core ga gb off => Sys2Proof.Machine.execBgeu core ga gb off s
  | .bra core ga gb off => Sys2Proof.Machine.execBra core ga gb off s
  | .jmp core off => Sys2Proof.Machine.execJmp core off s
  | .jal core off => Sys2Proof.Machine.execJal core off s
  | .jr core gd ga gb => Sys2Proof.Machine.execJr core gd ga gb s
  | .jalr core gd ga gb => Sys2Proof.Machine.execJalr core gd ga gb s
  | .qpush core gd ga gb => Sys2Proof.Machine.execQpush core gd ga gb s
  | .qpop core gd ga gb => Sys2Proof.Machine.execQpop core gd ga gb s
  | .qpeek core gd ga gb => Sys2Proof.Machine.execQpeek core gd ga gb s
  | .qmark core gd ga gb => Sys2Proof.Machine.execQmark core gd ga gb s
  | .qrewind core gd ga gb => Sys2Proof.Machine.execQrewind core gd ga gb s
  | .qrel core gd ga gb => Sys2Proof.Machine.execQrel core gd ga gb s
  | .qstat core gd ga gb => Sys2Proof.Machine.execQstat core gd ga gb s
  | .wait core gd ga gb => Sys2Proof.Machine.execWait core gd ga gb s
  | .sleep core gd ga gb => Sys2Proof.Machine.execSleep core gd ga gb s
  | .waitEnd core => Sys2Proof.Machine.execWaitEnd core s
  | .sleepWake core => Sys2Proof.Machine.execSleepWake core s
  | .waitSleepDeadline core => Sys2Proof.Machine.execWaitSleepDeadline core s
  | .intclaim core gd ga gb => Sys2Proof.Machine.execIntclaim core gd ga gb s
  | .intdone core gd ga gb => Sys2Proof.Machine.execIntdone core gd ga gb s
  | .trap core gd ga gb => Sys2Proof.Machine.execTrap core gd ga gb s
  | .eret core gd ga gb err => Sys2Proof.Machine.execEret core gd ga gb err s
  | .fenceL core gd ga gb => Sys2Proof.Machine.execFenceL core gd ga gb s
  | .fenceF core gd ga gb => Sys2Proof.Machine.execFenceF core gd ga gb s
  | .gsync core gd ga gb => Sys2Proof.Machine.execGsync core gd ga gb s
  | .msync core gd ga gb => Sys2Proof.Machine.execMsync core gd ga gb s
  | .halt core gd ga gb => Sys2Proof.Machine.execHalt core gd ga gb s
  | .interruptEntry core => Sys2Proof.Machine.execInterruptEntry core s
  | .coreReset core => Sys2Proof.Machine.execCoreReset core s
  | .coreStart core => Sys2Proof.Machine.execCoreStart core s
  | .coreHaltreq core => Sys2Proof.Machine.execCoreHaltreq core s
  | .qringEnable ring value => Sys2Proof.Machine.execQringEnable ring value s
  | .qringDisable ring value => Sys2Proof.Machine.execQringDisable ring value s
  | .ringIdleExpire ring => Sys2Proof.Machine.execRingIdleExpire ring s
  | .pendclr source => Sys2Proof.Machine.execPendclr source s
  | .icuSwset n => Sys2Proof.Machine.execIcuSwset n s
  | .refclkLoss tile => Sys2Proof.Machine.execRefclkLoss tile s
  | .refclkRelock tile => Sys2Proof.Machine.execRefclkRelock tile s
  | .timeHoldover => Sys2Proof.Machine.execTimeHoldover s
  | .timeReferenceReturn => Sys2Proof.Machine.execTimeReferenceReturn s
  | .laneTrainingDone port failed inv rev => Sys2Proof.Machine.execLaneTrainingDone port failed inv rev s
  | .laneAdaptStep lane => Sys2Proof.Machine.execLaneAdaptStep lane s
  | .eyeMeasure lane h w => Sys2Proof.Machine.execEyeMeasure lane h w s
  | .utilWindow utils => Sys2Proof.Machine.execUtilWindow utils s
  | .checkRemeasure lane h w => Sys2Proof.Machine.execCheckRemeasure lane h w s
  | .trlEqStepEnd lane h w => Sys2Proof.Machine.execTrlEqStepEnd lane h w s
  | .laneOutOfService lane cause => Sys2Proof.Machine.execLaneOutOfService lane cause s
  | .lossOfSignal lane left => Sys2Proof.Machine.execLossOfSignal lane left s
  | .alignmentMarker lane found logical mcount flags errs skew => Sys2Proof.Machine.execAlignmentMarker lane found logical mcount flags errs skew s
  | .linkUp port flit rate width io mem cache pbr vcs => Sys2Proof.Machine.execLinkUp port flit rate width io mem cache pbr vcs s
  | .pauseStart port => Sys2Proof.Machine.execPauseStart port s
  | .pauseResume port width rate => Sys2Proof.Machine.execPauseResume port width rate s
  | .pauseLimitExpire port => Sys2Proof.Machine.execPauseLimitExpire port s
  | .memCtoExpire port tag => Sys2Proof.Machine.execMemCtoExpire port tag s
  | .ioCtoExpire tag => Sys2Proof.Machine.execIoCtoExpire tag s
  | .ideKeyRefresh port stream => Sys2Proof.Machine.execIdeKeyRefresh port stream s
  | .doeRequest fn prot len index => Sys2Proof.Machine.execDoeRequest fn prot len index s
  | .doeAbort fn => Sys2Proof.Machine.execDoeAbort fn s
  | .perstAssert port => Sys2Proof.Machine.execPerstAssert port s
  | .perstDeassert port => Sys2Proof.Machine.execPerstDeassert port s
  | .perstRelease port => Sys2Proof.Machine.execPerstRelease port s
  | .trlFrameRx tile good typ seq ack pace nak spa spb health classes reserved => Sys2Proof.Machine.execTrlFrameRx tile good typ seq ack pace nak spa spb health classes reserved s
  | .trlFrameTx tile => Sys2Proof.Machine.execTrlFrameTx tile s
  | .replayAckTimeout tile => Sys2Proof.Machine.execReplayAckTimeout tile s
  | .spillMeterRelease tile => Sys2Proof.Machine.execSpillMeterRelease tile s
  | .paceSilence tile => Sys2Proof.Machine.execPaceSilence tile s
  | .trlFrameTimeout tile => Sys2Proof.Machine.execTrlFrameTimeout tile s
  | .trlDetect tile lanes => Sys2Proof.Machine.execTrlDetect tile lanes s
  | .trlTrainRetry tile => Sys2Proof.Machine.execTrlTrainRetry tile s
  | .trainFrame tile tstate peer peerPort flags fabric session nextRx tsend techo thold => Sys2Proof.Machine.execTrainFrame tile tstate peer peerPort flags fabric session nextRx tsend techo thold s
  | .resumeMaxExpire tile => Sys2Proof.Machine.execResumeMaxExpire tile s
  | .spareReq tile lane spare mode => Sys2Proof.Machine.execSpareReq tile lane spare mode s
  | .spareCheckDone tile half => Sys2Proof.Machine.execSpareCheckDone tile half s
  | .spareDone tile lane spare => Sys2Proof.Machine.execSpareDone tile lane spare s
  | .spareRefuse tile => Sys2Proof.Machine.execSpareRefuse tile s
  | .idleEnterExpire tile => Sys2Proof.Machine.execIdleEnterExpire tile s
  | .idleReq tile => Sys2Proof.Machine.execIdleReq tile s
  | .idleAck tile => Sys2Proof.Machine.execIdleAck tile s
  | .idleNak tile => Sys2Proof.Machine.execIdleNak tile s
  | .idleExit tile => Sys2Proof.Machine.execIdleExit tile s
  | .eqReq tile words => Sys2Proof.Machine.execEqReq tile words s
  | .eqRsp tile words => Sys2Proof.Machine.execEqRsp tile words s
  | .entdaa addr => Sys2Proof.Machine.execEntdaa addr s
  | .setdasa static dynamic => Sys2Proof.Machine.execSetdasa static dynamic s
  | .setnewda addr => Sys2Proof.Machine.execSetnewda addr s
  | .rstdaa => Sys2Proof.Machine.execRstdaa s
  | .getpid => Sys2Proof.Machine.execGetpid s
  | .getbcr => Sys2Proof.Machine.execGetbcr s
  | .getdcr => Sys2Proof.Machine.execGetdcr s
  | .getstatus => Sys2Proof.Machine.execGetstatus s
  | .getmrl => Sys2Proof.Machine.execGetmrl s
  | .getmwl => Sys2Proof.Machine.execGetmwl s
  | .setmrl len => Sys2Proof.Machine.execSetmrl len s
  | .setmwl len => Sys2Proof.Machine.execSetmwl len s
  | .enec events => Sys2Proof.Machine.execEnec events s
  | .disec events => Sys2Proof.Machine.execDisec events s
  | .rstact action => Sys2Proof.Machine.execRstact action s
  | .smbusBlockRead addr cmd => Sys2Proof.Machine.execSmbusBlockRead addr cmd s
  | .setEndpointId eid => Sys2Proof.Machine.execSetEndpointId eid s
  | .getEndpointId => Sys2Proof.Machine.execGetEndpointId s
  | .getMctpVersionSupport => Sys2Proof.Machine.execGetMctpVersionSupport s
  | .getMessageTypeSupport => Sys2Proof.Machine.execGetMessageTypeSupport s
  | .getEndpointUuid => Sys2Proof.Machine.execGetEndpointUuid s
  | .identify inband => Sys2Proof.Machine.execIdentify inband s
  | .backgroundOperationStatus inband => Sys2Proof.Machine.execBackgroundOperationStatus inband s
  | .getResponseMessageLimit inband => Sys2Proof.Machine.execGetResponseMessageLimit inband s
  | .setResponseMessageLimit inband n => Sys2Proof.Machine.execSetResponseMessageLimit inband n s
  | .getEventRecords inband log => Sys2Proof.Machine.execGetEventRecords inband log s
  | .clearEventRecords inband log all handles => Sys2Proof.Machine.execClearEventRecords inband log all handles s
  | .getEventInterruptPolicy inband => Sys2Proof.Machine.execGetEventInterruptPolicy inband s
  | .setEventInterruptPolicy inband policy => Sys2Proof.Machine.execSetEventInterruptPolicy inband policy s
  | .identifySwitchDevice inband => Sys2Proof.Machine.execIdentifySwitchDevice inband s
  | .getPhysicalPortState inband ports => Sys2Proof.Machine.execGetPhysicalPortState inband ports s
  | .physicalPortControl inband port op => Sys2Proof.Machine.execPhysicalPortControl inband port op s
  | .sendPpbCxlioConfigRequest inband port reg wr value => Sys2Proof.Machine.execSendPpbCxlioConfigRequest inband port reg wr value s
  | .getVirtualCxlSwitchInfo inband vcs => Sys2Proof.Machine.execGetVirtualCxlSwitchInfo inband vcs s
  | .fmBindVppb inband vcs vppb port ld lds => Sys2Proof.Machine.execFmBindVppb inband vcs vppb port ld lds s
  | .fmUnbindVppb inband vcs vppb => Sys2Proof.Machine.execFmUnbindVppb inband vcs vppb s
  | .generateAerEvent inband vcs vppb err => Sys2Proof.Machine.execGenerateAerEvent inband vcs vppb err s
  | .tunnelManagementCommand inband port => Sys2Proof.Machine.execTunnelManagementCommand inband port s
  | .sendLdCxlioConfigRequest inband port => Sys2Proof.Machine.execSendLdCxlioConfigRequest inband port s
  | .sendLdCxlioMemoryRequest inband port => Sys2Proof.Machine.execSendLdCxlioMemoryRequest inband port s
  | .getDcdInfo dom => Sys2Proof.Machine.execGetDcdInfo dom s
  | .getHostDcRegionConfig dom => Sys2Proof.Machine.execGetHostDcRegionConfig dom s
  | .setDcRegionConfig => Sys2Proof.Machine.execSetDcRegionConfig s
  | .getDcRegionExtentLists dom => Sys2Proof.Machine.execGetDcRegionExtentLists dom s
  | .fxExec inband fn words lds cap => Sys2Proof.Machine.execFxExec inband fn words lds cap s
  | .barrierGsync inband => Sys2Proof.Machine.execBarrierGsync inband s
  | .barrierMsync inband => Sys2Proof.Machine.execBarrierMsync inband s
  | .resultGet inband slot ack => Sys2Proof.Machine.execResultGet inband slot ack s
  | .tunnelKmd inband dom opcode first n vcs blocks => Sys2Proof.Machine.execTunnelKmd inband dom opcode first n vcs blocks s
  | .memRead inband das len dahi => Sys2Proof.Machine.execMemRead inband das len dahi s
  | .memWrite inband das dahi bytes => Sys2Proof.Machine.execMemWrite inband das dahi bytes s
  | .progLoad inband core first last offset bytes => Sys2Proof.Machine.execProgLoad inband core first last offset bytes s
  | .progStop inband core => Sys2Proof.Machine.execProgStop inband core s
  | .fmRingPush inband ring entry => Sys2Proof.Machine.execFmRingPush inband ring entry s
  | .fmRingPop inband ring => Sys2Proof.Machine.execFmRingPop inband ring s
  | .bootRecordGet inband age => Sys2Proof.Machine.execBootRecordGet inband age s
  | .measureLogGet inband first => Sys2Proof.Machine.execMeasureLogGet inband first s
  | .faultHistoryGet inband first => Sys2Proof.Machine.execFaultHistoryGet inband first s
  | .flashWrite inband offset last bytes => Sys2Proof.Machine.execFlashWrite inband offset last bytes s
  | .flashSectorDone => Sys2Proof.Machine.execFlashSectorDone s
  | .flashRead inband offset len => Sys2Proof.Machine.execFlashRead inband offset len s
  | .kmdIdentify vcs dom => Sys2Proof.Machine.execKmdIdentify vcs dom s
  | .kmdGetEventRecords vcs dom log => Sys2Proof.Machine.execKmdGetEventRecords vcs dom log s
  | .kmdClearEventRecords vcs dom log all handles => Sys2Proof.Machine.execKmdClearEventRecords vcs dom log all handles s
  | .kmdGetEventIntPolicy vcs dom => Sys2Proof.Machine.execKmdGetEventIntPolicy vcs dom s
  | .kmdSetEventIntPolicy vcs dom policy => Sys2Proof.Machine.execKmdSetEventIntPolicy vcs dom policy s
  | .getTimestamp vcs dom => Sys2Proof.Machine.execGetTimestamp vcs dom s
  | .setTimestamp vcs dom time => Sys2Proof.Machine.execSetTimestamp vcs dom time s
  | .getSupportedLogs vcs dom => Sys2Proof.Machine.execGetSupportedLogs vcs dom s
  | .getLog vcs dom uuid => Sys2Proof.Machine.execGetLog vcs dom uuid s
  | .identifyMemoryDevice vcs dom => Sys2Proof.Machine.execIdentifyMemoryDevice vcs dom s
  | .getDcConfiguration vcs dom => Sys2Proof.Machine.execGetDcConfiguration vcs dom s
  | .getDcExtentList vcs dom => Sys2Proof.Machine.execGetDcExtentList vcs dom s
  | .lossListGet vcs dom incident first => Sys2Proof.Machine.execLossListGet vcs dom incident first s
  | .kmdRingPush vcs dom entry => Sys2Proof.Machine.execKmdRingPush vcs dom entry s
  | .kmdRingPop vcs dom => Sys2Proof.Machine.execKmdRingPop vcs dom s
  | .kmdBootRecordGet vcs dom age => Sys2Proof.Machine.execKmdBootRecordGet vcs dom age s
  | .consoleCommand addr wr bytes => Sys2Proof.Machine.execConsoleCommand addr wr bytes s
  | .genIdentity => Sys2Proof.Machine.execGenIdentity s
  | .installChain => Sys2Proof.Machine.execInstallChain s
  | .enrollKey => Sys2Proof.Machine.execEnrollKey s
  | .revokeKey => Sys2Proof.Machine.execRevokeKey s
  | .raiseSvn => Sys2Proof.Machine.execRaiseSvn s
  | .seal => Sys2Proof.Machine.execSeal s
  | .decommission => Sys2Proof.Machine.execDecommission s
  | .emrCommandDone => Sys2Proof.Machine.execEmrCommandDone s
  | .getVersion fn => Sys2Proof.Machine.execGetVersion fn s
  | .getCapabilities fn ver => Sys2Proof.Machine.execGetCapabilities fn ver s
  | .negotiateAlgorithms fn rsapss sha512 ffdhe aead meas => Sys2Proof.Machine.execNegotiateAlgorithms fn rsapss sha512 ffdhe aead meas s
  | .getDigests fn => Sys2Proof.Machine.execGetDigests fn s
  | .getCertificate fn slot offset len => Sys2Proof.Machine.execGetCertificate fn slot offset len s
  | .challenge fn slot nonce => Sys2Proof.Machine.execChallenge fn slot nonce s
  | .getMeasurements fn index sign nonce => Sys2Proof.Machine.execGetMeasurements fn index sign nonce s
  | .keyExchange fn slot nonce => Sys2Proof.Machine.execKeyExchange fn slot nonce s
  | .finish fn sess macOk => Sys2Proof.Machine.execFinish fn sess macOk s
  | .keyUpdate fn sess op => Sys2Proof.Machine.execKeyUpdate fn sess op s
  | .spdmHeartbeat fn sess => Sys2Proof.Machine.execSpdmHeartbeat fn sess s
  | .endSession fn sess => Sys2Proof.Machine.execEndSession fn sess s
  | .vendorDefinedRequest fn sess obj stream dir set key => Sys2Proof.Machine.execVendorDefinedRequest fn sess obj stream dir set key s
  | .tamperSupply holds => Sys2Proof.Machine.execTamperSupply holds s
  | .tamperTemp holds => Sys2Proof.Machine.execTamperTemp holds s
  | .tamperMesh holds => Sys2Proof.Machine.execTamperMesh holds s
  | .alarmLatchClear bits => Sys2Proof.Machine.execAlarmLatchClear bits s
  | .emrChallenge => Sys2Proof.Machine.execEmrChallenge s
  | .emrToken token => Sys2Proof.Machine.execEmrToken token s
  | .debugAccess addr len wr bytes => Sys2Proof.Machine.execDebugAccess addr len wr bytes s
  | .extest cells => Sys2Proof.Machine.execExtest cells s
  | .samplePreload cells => Sys2Proof.Machine.execSamplePreload cells s
  | .idcode => Sys2Proof.Machine.execIdcode s
  | .extestPulse cells => Sys2Proof.Machine.execExtestPulse cells s
  | .extestTrain cells => Sys2Proof.Machine.execExtestTrain cells s
  | .clamp => Sys2Proof.Machine.execClamp s
  | .highz => Sys2Proof.Machine.execHighz s
  | .bypass => Sys2Proof.Machine.execBypass s
  | .tapReset => Sys2Proof.Machine.execTapReset s
  | .fltForce src sev clear => Sys2Proof.Machine.execFltForce src sev clear s
  | .deviceResetStart => Sys2Proof.Machine.execDeviceResetStart s
  | .fltSevWrite src sev => Sys2Proof.Machine.execFltSevWrite src sev s
  | .fltLatchClear src sev => Sys2Proof.Machine.execFltLatchClear src sev s
  | .pmuTimeCredit => Sys2Proof.Machine.execPmuTimeCredit s
  | .bwWindowEnd port => Sys2Proof.Machine.execBwWindowEnd port s
  | .pmuBwClear port en window => Sys2Proof.Machine.execPmuBwClear port en window s
  | .oasisRefresh stack => Sys2Proof.Machine.execOasisRefresh stack s
  | .zqLatch stack => Sys2Proof.Machine.execZqLatch stack s
  | .oasisTempPoll stack temp => Sys2Proof.Machine.execOasisTempPoll stack temp s
  | .oasisEyeMonitor sub margin => Sys2Proof.Machine.execOasisEyeMonitor sub margin s
  | .oasisLoadTick ch util => Sys2Proof.Machine.execOasisLoadTick ch util s
  | .oasRetrainReq sub => Sys2Proof.Machine.execOasRetrainReq sub s
  | .retrainStep last ok util => Sys2Proof.Machine.execRetrainStep last ok util s
  | .retrainRetry sub => Sys2Proof.Machine.execRetrainRetry sub s
  | .oasisPatrol oa err => Sys2Proof.Machine.execOasisPatrol oa err s
  | .prsntChange slot low => Sys2Proof.Machine.execPrsntChange slot low s
  | .spcPresenceWaitExpire slot => Sys2Proof.Machine.execSpcPresenceWaitExpire slot s
  | .feedValid slot b level => Sys2Proof.Machine.execFeedValid slot b level s
  | .feedInvalid slot b level => Sys2Proof.Machine.execFeedInvalid slot b level s
  | .gateEnhanced slot vout early => Sys2Proof.Machine.execGateEnhanced slot vout early s
  | .bbmExpire slot => Sys2Proof.Machine.execBbmExpire slot s
  | .preferredFeedReturn slot => Sys2Proof.Machine.execPreferredFeedReturn slot s
  | .fastTrip slot sense => Sys2Proof.Machine.execFastTrip slot sense s
  | .shortInRamp slot sense => Sys2Proof.Machine.execShortInRamp slot sense s
  | .breakerTimerStart slot sense => Sys2Proof.Machine.execBreakerTimerStart slot sense s
  | .breakerTimerStop slot sense => Sys2Proof.Machine.execBreakerTimerStop slot sense s
  | .breaker slot => Sys2Proof.Machine.execBreaker slot s
  | .gateStuck slot => Sys2Proof.Machine.execGateStuck slot s
  | .fetShort slot vout => Sys2Proof.Machine.execFetShort slot vout s
  | .coolExpire slot => Sys2Proof.Machine.execCoolExpire slot s
  | .retriesReset slot => Sys2Proof.Machine.execRetriesReset slot s
  | .ewFall slot => Sys2Proof.Machine.execEwFall slot s
  | .spcOn slot => Sys2Proof.Machine.execSpcOn slot s
  | .spcOff slot on => Sys2Proof.Machine.execSpcOff slot on s
  | .spcClear slot off on => Sys2Proof.Machine.execSpcClear slot off on s
  | .spcEventsClear slot bits => Sys2Proof.Machine.execSpcEventsClear slot bits s
  | .pwrOkRise => Sys2Proof.Machine.execPwrOkRise s
  | .pwrOkFall => Sys2Proof.Machine.execPwrOkFall s
  | .resetN => Sys2Proof.Machine.execResetN s
  | .warmResetN => Sys2Proof.Machine.execWarmResetN s
  | .bootStepAdvance test unwrap readA readB codes bad => Sys2Proof.Machine.execBootStepAdvance test unwrap readA readB codes bad s
  | .deviceIdleExit source => Sys2Proof.Machine.execDeviceIdleExit source s
  | .registerWrite addr value => Sys2Proof.Machine.execRegisterWrite addr value s
  | .meldPredWrite counter index => Sys2Proof.Machine.execMeldPredWrite counter index s
  | .meldPredLoad index => Sys2Proof.Machine.execMeldPredLoad index s
  | .oasisAccessDone ch wr err => Sys2Proof.Machine.execOasisAccessDone ch wr err s
  | .ioCompletion port tag data => Sys2Proof.Machine.execIoCompletion port tag data s
  | .trlAlignConfigTimeout tile => Sys2Proof.Machine.execTrlAlignConfigTimeout tile s
  | .resetBallRise warm => Sys2Proof.Machine.execResetBallRise warm s
  | .lifecycleWarmReset => Sys2Proof.Machine.execLifecycleWarmReset s
  | .feedWarn slot level => Sys2Proof.Machine.execFeedWarn slot level s
  | .voutBelowFeedUv slot vout => Sys2Proof.Machine.execVoutBelowFeedUv slot vout s
  | .cxlLowPowerEntry port mode keep => Sys2Proof.Machine.execCxlLowPowerEntry port mode keep s
  | .cxlLowPowerExit port => Sys2Proof.Machine.execCxlLowPowerExit port s
  | .timeSlewEnd => Sys2Proof.Machine.execTimeSlewEnd s

end Sys2Proof.Machine
end

