-- ==== Sys2Proof/Machine/Step.lean ====
section
/-!
DEFINITION. Machine/Step.lean: one step takes the command at the front of the queue; with an empty queue a nanosecond passes (log entry 1, DESIGN CHOICE).
-/
namespace Sys2Proof.Machine

/-- A nanosecond of device time in which no command arrives; without power nothing counts it. -/
def tick (s : State) : State := if s.pwr.pwrOk then advanceTo (s.time + 1) s else s

/-- One step. -/
def step (s : State) : Host.Outcome State Fault Refusal :=
  match s.pending with
  | [] => .next (tick s)
  | c :: rest => exec c { s with pending := rest }

/-- The state with the command that a word spells at the front of the queue. -/
def State.withFetchWord (s : State) (nbits w : Nat) : State :=
  match decodeTableWord nbits w with
  | some c => { s with pending := c :: s.pending }
  | none => s

end Sys2Proof.Machine
end

