-- ==== Sys2Proof/Safety.lean ====
section
/-!
DEFINITION. Safety.lean: what a safe step is, in the terms that claims use.
-/
namespace Sys2Proof.Safety
open Sys2Proof.Machine

/-- A step that answers a next state: neither a fault nor a refusal. -/
def Answers (o : Host.Outcome State Fault Refusal) : Prop := ∃ t, o = .next t

/-- No raise of a fault source is left without its reaction (R495). -/
def Settled (s : State) : Prop := s.flt.raised = []

/-- The device serves commands: it has booted, and no TERMINAL reaction holds it (R489). -/
def Serving (s : State) : Prop := alive s = true ∧ s.pwr.devReady = true ∧ s.flt.terminal = false

/-- Nothing waits for anything: no request is inside the device, no response waits for cells, no offer, release or removal of capacity is
open, no domain retires and no pool device is evacuated, and no raise is left. -/
structure Quiet (s : State) : Prop where
  reqs : s.reqs = []
  waits : s.erg.waits = []
  offers : s.dom.offers = []
  releases : s.dom.releases = []
  removals : s.dom.removals = []
  doms : ∀ p ∈ s.dom.doms, p.2.st ≠ .retiring
  devs : ∀ p ∈ s.dom.devs, (devOf s p.1).st ≠ .evacuating
  raised : s.flt.raised = []

/-- A command completes: its own effect leaves the state u, of which P holds; then what the effect set off in the rest of the device goes on
(`done`). Where nothing waited before the command, nothing goes on and the next state is u itself. -/
def Completes (o : Host.Outcome State Fault Refusal) (s : State) (P : State → Prop) : Prop :=
  ∃ u, o = .next (done u) ∧ P u ∧ (Quiet s → done u = u)

/-- Source k as it was, or as its input leaves it: an edge source has fired, a level source's input is asserted (R329). Only the sources of the
event counters' overflows, from 2,048 on, are meant. -/
def Fired (k : Nat) (x y : IcuSrc) : Prop :=
  y = x ∨ (2048 ≤ k ∧ ((srcEdge k x = true ∧ y = { x with st := x.st.fire })
    ∨ (srcEdge k x = false ∧ y = { x with levelIn := true, st := if x.st = .idle then .pending else x.st })))

/-- u is s but for the event counters, and the interrupt sources that their overflows fire (R500, R501). -/
def Counted (s u : State) : Prop :=
  ∃ c i, u = { s with pmu := { s.pmu with cnts := c }, icu := { s.icu with srcs := i } } ∧ ∀ k, Fired k (srcOf s k) (sget {} i k)

/-- Core n executes the instruction at its PC: it is in RUN at an instruction boundary, no RESET or HALTREQ waits for that boundary, the fetch
is legal (R249, R252, R274), and no sampling source takes the instruction (R506). -/
structure CoreRuns (s : State) (n : Nat) : Prop where
  run : (coreOf s n).st = .run
  free : (coreOf s n).busy = .none
  ask : (coreOf s n).ask = none
  smp : (coreOf s n).smp = none
  off : s.pmu.src1.en = false ∨ s.pmu.src1.cores / 2 ^ n % 2 = 0
  fetch : fetchFault s n (coreOf s n).pc = none

/-- Core n with what retirement does to it (R258, R268, R269): gd holds v, PC is pc, STEPS is one more. -/
def retiredCore (c : Core) (gd : Nat) (v : Word) (pc : Nat) : Core :=
  { gSet c gd v with pc := pc, steps := c.steps + 1, busy := .none }

/-- An instruction of core n retires from the state s: gd receives v, PC becomes pc, STEPS counts it, and nothing else changes but event
counters: no other register, no other core, no memory, nothing elsewhere in the device. -/
def Retires (s : State) (n gd : Nat) (v : Word) (pc : Nat) (u : State) : Prop := Counted (corePut n (retiredCore (coreOf s n) gd v pc) s) u

/-- Core n as an entry leaves it (R276): one frame more, P1, interrupts off, at TVEC or, for an interrupt, at TVEC + 0x100. -/
def enteredCore (c : Core) (int : Bool) : Core :=
  { c with depth := c.depth + 1, p2 := false, ie := false, busy := .none, pc := if int then c.tvec + 0x100 else c.tvec }

/-- The four words of an entry frame (R275): RETPC, SAVED, ECAUSE, EADDR. -/
def frameWords (c : Core) (int : Bool) (code detail ret eaddr : Nat) : List Word :=
  [word (ret / 4 * 4), word (2 * b2n c.ie + b2n c.p2), word (b2n int * 2 ^ 63 + detail * 2 ^ 8 + code), word (eaddr % 2 ^ 48)]

/-- Core n takes an entry from the state s (R276): the frame that DEPTH names is written, the core stands at the handler, and nothing else changes but
event counters. -/
def Enters (s : State) (n : Nat) (int : Bool) (code detail ret eaddr : Nat) (u : State) : Prop :=
  Counted (corePut n (enteredCore (coreOf s n) int)
    (stWords n (frameAddr (coreOf s n).depth) (frameWords (coreOf s n) int code detail ret eaddr) s)) u

/-- u is s but for what counting, interrupting and reporting change: event counters, interrupt sources, the fault collector with its history, and
the event logs of KMD instances. -/
def Reported (s u : State) : Prop :=
  ∃ c i f l h, u = { s with
    pmu := { s.pmu with cnts := c }, icu := i, flt := f, dom := { s.dom with logs := l }, pwr := { s.pwr with histTry := h } }

/-- u is s but for what `Reported` names and for what the device has sent out. -/
def Signals (s u : State) : Prop := ∃ o, Reported { s with out := o } u

/-- Core n becomes c as it leaves service (R248): what it waited for at a barrier no longer names it, the interrupts it had claimed are pending
again and are reported where no core is left to take them; nothing else changes. -/
def Leaves (s : State) (n : Nat) (c : Core) (u : State) : Prop :=
  ∃ g m, Reported (corePut n c { s with gate := { s.gate with gsyncs := g }, dlr := { s.dlr with msyncs := m } }) u

/-- The descriptor of an FX instruction of core n with gd and ga, of a number of words, and what enumeration finds behind a port. -/
def fxEnvOf (s : State) (n gd ga words lds cap : Nat) : FxEnv :=
  let a := (gReg (coreOf s n) ga).toNat
  { who := .core n gd a, core := n, p2 := (coreOf s n).p2, w := ldWords s n a words, lds := lds, cap := cap }

/-- Core n executes an FX instruction whose descriptor at ga is aligned, lies wholly in local data memory, holds no uncorrectable error and names the
form f (R281 to R283). -/
structure FxRuns (s : State) (n gd ga lds cap : Nat) (f : FxForm) : Prop where
  runs : CoreRuns s n
  aligned : (gReg (coreOf s n) ga).toNat % 8 = 0
  low : 0x100000 ≤ (gReg (coreOf s n) ga).toNat
  high : (gReg (coreOf s n) ga).toNat + 8 * f.words ≤ 0x140000
  words : 0 < f.words
  form : (fxEnvOf s n gd ga f.words lds cap).form = f.form
  clean : descBad s n (gReg (coreOf s n) ga).toNat f.words = false

/-- An FX instruction ends from the state t that its operation has left (R281): DONE and the RO words go to the descriptor, the status to gd, and the
instruction retires; nothing else changes but event counters. -/
def FxEnds (t : State) (e : FxEnv) (n gd desc : Nat) (st : Status) (outs : List (Nat × Word)) (dn : Nat) (u : State) : Prop :=
  Counted (corePut n (retiredCore (coreOf t n) gd (word st.code) ((coreOf t n).pc + 4))
    (outs.foldl (fun s p => stWord n (desc + 8 * p.1) p.2 s) (stWord n desc (setFld (e.word 0) 31 0 dn) t))) u

/-- The FX instruction i of core n, with the environment e, is carried out and leaves t: it ends with a status, RO words and DONE (R281), and wherever
core n still runs at a boundary in t, that end is the one that `FxEnds` describes. -/
def FxDoes (s : State) (i : Instr) (e : FxEnv) (n gd ga : Nat) (st : Status) (outs : List (Nat × Word)) (dn : Nat) (t : State) : Prop :=
  ∃ u, exec i s = .next (done u) ∧
    ((coreOf t n).st = .run → (coreOf t n).ask = none → (coreOf t n).smp = none →
      FxEnds t e n gd (gReg (coreOf s n) ga).toNat st outs dn u)

end Sys2Proof.Safety
end

