-- ==== Sys2Proof/Certificates/Slice0/Obligations.lean ====
section
/-!
DEFINITION. Certificates/Slice0/Obligations.lean: the statements for the provers, family by family: the Falgan cores, rings and interrupts, the fabric
operations, hosts and homes, capacity, links, management, trust, slot power, power and resets, registers, the Oasis, and the machine as a whole.
A statement says `exec i s = .next (done t)`: command i has the effect t, after which the device goes on with what waits (`done`).
-/
open Sys2Proof Sys2Proof.Machine Sys2Proof.Safety

/-- R261 with R243 and R258: every ALU-RR instruction of a core that runs writes its result to gd, goes on to the next instruction and changes
nothing else but event counters. The counts of CLZ, CTZ and POPC are said by the bits they count; they use ga only, and raise
ILLEGAL where gb is not 0. A write to g0 is
discarded (`gSet`), the instruction retires as ever. -/
def Obligations.FalganAluResults : Prop :=
  ∀ (s : State) (n gd ga gb : Fin 64), CoreRuns s n →
    let a := gReg (coreOf s n) ga
    let b := gReg (coreOf s n) gb
    let does := fun (i : Instr) (v : Word) => Completes (exec i s) s (Retires s n gd v ((coreOf s n).pc + 4))
    does (.add n gd ga gb) (a + b) ∧ does (.sub n gd ga gb) (a - b)
    ∧ does (.and n gd ga gb) (a &&& b) ∧ does (.or n gd ga gb) (a ||| b) ∧ does (.xor n gd ga gb) (a ^^^ b)
    ∧ does (.sll n gd ga gb) (a <<< (b.toNat % 64)) ∧ does (.srl n gd ga gb) (a >>> (b.toNat % 64))
    ∧ does (.sra n gd ga gb) (a.sshiftRight (b.toNat % 64))
    ∧ does (.slt n gd ga gb) (if a.toInt < b.toInt then 1 else 0) ∧ does (.sltu n gd ga gb) (if a.toNat < b.toNat then 1 else 0)
    ∧ (∃ k, does (.clz n gd ga 0) (BitVec.ofNat 64 k) ∧ k ≤ 64 ∧ a.toNat < 2 ^ (64 - k) ∧ (k < 64 → 2 ^ (63 - k) ≤ a.toNat))
    ∧ (∃ k, does (.ctz n gd ga 0) (BitVec.ofNat 64 k) ∧ k ≤ 64 ∧ (∀ j < k, a.getLsbD j = false) ∧ (k < 64 → a.getLsbD k = true))
    ∧ does (.popc n gd ga 0) (BitVec.ofNat 64 ((List.range 64).filter (fun j => a.getLsbD j)).length)
    ∧ (gb ≠ 0 → (coreOf s n).depth < 8 → ∀ p ∈ [(Instr.clz n gd ga gb, 0xB), (.ctz n gd ga gb, 0xC), (.popc n gd ga gb, 0xD)],
      Completes (exec p.1 s) s (Enters s n false 1 0 (coreOf s n).pc (gd.val * 2 ^ 21 + ga.val * 2 ^ 15 + gb.val * 2 ^ 9 + p.2)))

/-- R262 with R243 and R258: the immediate instructions. imm15 and imm21 are sign-extended, LIMMH's imm21 is not; a shift's imm15[12:6] is 0, so
that n is the whole of its operand. -/
def Obligations.FalganImmediateResults : Prop :=
  ∀ (s : State) (n gd ga : Fin 64) (imm : BitVec 15) (sh : BitVec 13) (long : BitVec 21), CoreRuns s n → sh.toNat < 64 →
    let a := gReg (coreOf s n) ga
    let does := fun (i : Instr) (v : Word) => Completes (exec i s) s (Retires s n gd v ((coreOf s n).pc + 4))
    does (.addi n gd ga imm) (a + imm.signExtend 64) ∧ does (.andi n gd ga imm) (a &&& imm.signExtend 64)
    ∧ does (.ori n gd ga imm) (a ||| imm.signExtend 64) ∧ does (.xori n gd ga imm) (a ^^^ imm.signExtend 64)
    ∧ does (.slli n gd ga sh) (a <<< sh.toNat) ∧ does (.srli n gd ga sh) (a >>> sh.toNat) ∧ does (.srai n gd ga sh) (a.sshiftRight sh.toNat)
    ∧ does (.limm n gd long) (long.signExtend 64)
    ∧ does (.limmh n gd long) ((gReg (coreOf s n) gd <<< 21) ||| long.setWidth 64)

/-- R263 with R243 and R258: multiply and divide. The quotients and remainders are said by what division means: a signed quotient rounds toward 0,
a signed remainder has the sign of ga, and no divisor raises an exception. -/
def Obligations.FalganMultiplyDivideResults : Prop :=
  ∀ (s : State) (n gd ga gb : Fin 64), CoreRuns s n →
    let a := gReg (coreOf s n) ga
    let b := gReg (coreOf s n) gb
    let does := fun (i : Instr) (v : Word) => Completes (exec i s) s (Retires s n gd v ((coreOf s n).pc + 4))
    (∃ lo hu hs : Word, does (.mul n gd ga gb) lo ∧ does (.mulhu n gd ga gb) hu ∧ does (.mulhs n gd ga gb) hs
      ∧ a.toNat * b.toNat = hu.toNat * 2 ^ 64 + lo.toNat ∧ a.toInt * b.toInt = hs.toInt * 2 ^ 64 + lo.toNat)
    ∧ (b = 0 → does (.divu n gd ga gb) (BitVec.allOnes 64) ∧ does (.remu n gd ga gb) a ∧ does (.divs n gd ga gb) (BitVec.allOnes 64)
      ∧ does (.rems n gd ga gb) a)
    ∧ (b ≠ 0 → ∃ q r : Word, does (.divu n gd ga gb) q ∧ does (.remu n gd ga gb) r
      ∧ a.toNat = q.toNat * b.toNat + r.toNat ∧ r.toNat < b.toNat)
    ∧ (b ≠ 0 → ∃ q r : Word, does (.divs n gd ga gb) q ∧ does (.rems n gd ga gb) r
      ∧ (a.toInt = -2 ^ 63 ∧ b.toInt = -1 → q.toInt = -2 ^ 63 ∧ r = 0)
      ∧ (¬ (a.toInt = -2 ^ 63 ∧ b.toInt = -1) → a.toInt = q.toInt * b.toInt + r.toInt ∧ r.toInt.natAbs < b.toInt.natAbs
          ∧ (0 ≤ a.toInt → 0 ≤ r.toInt) ∧ (a.toInt ≤ 0 → r.toInt ≤ 0)))

/-- R264 with R243, R250, R254 and R266: the loads. The address is ga plus the sign-extended immediate. Where checks 4 and 5 of R274 find nothing, a load
from a memory that carries SECDED (local memories, core windows, shared memory; no error found) reads the bytes, lowest first, zero-extended;
a load from device control space reads the bytes of the register's word; both retire. A load through the aperture becomes a request of the line's
bytes for which the core waits; behind an earlier store to the same line it is held (R254). -/
def Obligations.FalganLoads : Prop :=
  ∀ (s : State) (n gd ga : Fin 64) (imm : BitVec 15), CoreRuns s n →
    let c := coreOf s n
    let a := (gReg c ga + imm.signExtend 64).toNat
    ∀ p ∈ [(Instr.ldb n gd ga imm 0, 1), (.ldh n gd ga imm 0, 2), (.ldw n gd ga imm 0, 4), (.ldd n gd ga imm 0, 8)],
      accFault s n a p.2 false = none →
        (∀ x, memAddr n a = some x → rangeOf a ≠ some .aper → badWord s x = false →
          Completes (exec p.1 s) s (Retires s n gd (BitVec.ofNat 64 (leNat (memRead s.flg.mem x p.2))) (c.pc + 4)))
        ∧ (memAddr n a = none → rangeOf a ≠ some .aper →
          Completes (exec p.1 s) s (Retires s n gd
            (BitVec.ofNat 64 ((devWord s (a / 8 * 8)).toNat / 2 ^ (8 * (a % 8)) % 2 ^ (8 * p.2))) (c.pc + 4)))
        ∧ (rangeOf a = some .aper → ∃ r : Req,
            r.id = s.next ∧ r.who = .core n (apDa c a % 64) p.2 ∧ r.op = .rdI ∧ r.dom = a / 2 ^ 34 % 4096 ∧ r.da = apDa c a / 64 * 64
            ∧ exec p.1 s = .next (done
                (if storeTo s n r.dom r.da && !(decide (r.mode = .scoh)) then
                  corePut n { c with busy := .load r.id gd a } (reqAdd { r with phase := .storeWait } (takeNext s))
                 else dispatchReq r (corePut n { c with busy := .load r.id gd a } (reqAdd r (takeNext s))))))

/-- R264 with R254 and R266: the stores. The low bytes of gs go to the bytes at the address, lowest first; STD rewrites its word and clears an
error it carried; every byte outside the stored ones reads as before. A store to device control space retires with its register's effect. A store
through the aperture retires and becomes a partial write of its line's bytes. -/
def Obligations.FalganStores : Prop :=
  ∀ (s : State) (n gs ga : Fin 64) (imm : BitVec 15), CoreRuns s n →
    let c := coreOf s n
    let a := (gReg c ga + imm.signExtend 64).toNat
    let v := (gReg c gs).toNat
    ∀ p ∈ [(Instr.stb n gs ga imm 0, 1), (.sth n gs ga imm 0, 2), (.stw n gs ga imm 0, 4), (.std n gs ga imm, 8)],
      accFault s n a p.2 true = none →
        (∀ x, memAddr n a = some x → rangeOf a ≠ some .aper → (p.2 = 8 ∨ badWord s x = false) →
          Completes (exec p.1 s) s (fun u =>
            Retires { s with flg := { s.flg with
                mem := memWrite s.flg.mem x (leBytes p.2 v)
                bad := if p.2 = 8 then s.flg.bad.filter (fun k => !(k == x)) else s.flg.bad } } n 0 0 (c.pc + 4) u
            ∧ leNat (memRead u.flg.mem x p.2) = v % 256 ^ p.2
            ∧ ∀ k, ¬ (x ≤ k ∧ k < x + p.2) → memByte u.flg.mem k = memByte s.flg.mem k))
        ∧ (memAddr n a = none → rangeOf a = some .dev → a < 0x2C000000 →
            exec p.1 s = .next (done (retire n (devStore (some n) a (BitVec.ofNat 64 (v % 2 ^ (8 * p.2))) s))))
        ∧ (rangeOf a = some .aper → ∃ r : Req,
            r.id = s.next ∧ r.who = .core n (apDa c a % 64) p.2 ∧ r.op = .wrPtl ∧ r.dom = a / 2 ^ 34 % 4096 ∧ r.da = apDa c a / 64 * 64
            ∧ r.data = BitVec.ofNat 512 (v % 2 ^ (8 * p.2) * 2 ^ (8 * (apDa c a % 64))) ∧ r.mask = maskAt (apDa c a % 64) p.2
            ∧ exec p.1 s = .next (done (dispatchReq r
                (retire n (corePut n { c with stores := c.stores ++ [r.id] } (reqAdd r (takeNext s)))))))

/-- R267: the local atomics, 32 and 64 bits. The word at ga in local data memory takes the new value, gd receives the old one zero-extended, and every
byte outside the word reads as before. LCAS compares with gd and stores gb where they are equal. -/
def Obligations.FalganLocalAtomics : Prop :=
  ∀ (s : State) (n gd ga gb : Fin 64) (w32 : Bool), CoreRuns s n →
    let c := coreOf s n
    let a := (gReg c ga).toNat
    let k := if w32 then 4 else 8
    let x := coreWin n + 0x40000 + (a - 0x100000)
    let m := 2 ^ (8 * k)
    let old := leNat (memRead s.flg.mem x k)
    let b := (gReg c gb).toNat % m
    atomFault s n a k = none → badWord s x = false →
      ∀ p ∈ [(Instr.ladd n gd ga gb w32 0, (old + b) % m), (.land n gd ga gb w32 0, old &&& b), (.lor n gd ga gb w32 0, old ||| b),
          (.lxor n gd ga gb w32 0, old ^^^ b), (.lswap n gd ga gb w32 0, b), (.lcas n gd ga gb w32 0, if old = (gReg c gd).toNat % m then b else old)],
        Completes (exec p.1 s) s (fun u =>
          Retires { s with flg := { s.flg with mem := memWrite s.flg.mem x (leBytes k p.2) } } n gd (BitVec.ofNat 64 old) (c.pc + 4) u
          ∧ leNat (memRead u.flg.mem x k) = p.2
          ∧ ∀ i, ¬ (x ≤ i ∧ i < x + k) → memByte u.flg.mem i = memByte s.flg.mem i)

/-- R268 and R269: a branch whose condition holds goes to PC plus four times its sign-extended offset, one whose condition fails goes on; BRA (ga and gb
0) always goes. JMP and JAL do so with off27, JAL leaving PC + 4 in g62; JR and JALR go to ga, which JALR reads before it writes gd.
None changes anything else. A target that is not aligned raises FETCH_MISALIGN with the jump's own PC and the target (a frame being free),
and JALR then writes no register. -/
def Obligations.FalganBranchesAndJumps : Prop :=
  ∀ (s : State) (n gd ga gb : Fin 64) (off : BitVec 12) (far : BitVec 27), CoreRuns s n →
    let c := coreOf s n
    let a := gReg c ga
    let b := gReg c gb
    let tgt : Word := BitVec.ofNat 64 c.pc + 4 * off.signExtend 64
    let toFar : Word := BitVec.ofNat 64 c.pc + 4 * far.signExtend 64
    (∀ p ∈ [(Instr.beq n ga gb off, a = b), (.bne n ga gb off, a ≠ b), (.blt n ga gb off, a.toInt < b.toInt), (.bge n ga gb off, b.toInt ≤ a.toInt),
        (.bltu n ga gb off, a.toNat < b.toNat), (.bgeu n ga gb off, b.toNat ≤ a.toNat), (.bra n 0 0 off, True)],
      (p.2 → Completes (exec p.1 s) s (Retires s n 0 0 tgt.toNat)) ∧ (¬ p.2 → Completes (exec p.1 s) s (Retires s n 0 0 (c.pc + 4))))
    ∧ Completes (exec (.jmp n far) s) s (Retires s n 0 0 toFar.toNat)
    ∧ Completes (exec (.jal n far) s) s (Retires s n 62 (BitVec.ofNat 64 (c.pc + 4)) toFar.toNat)
    ∧ (a.toNat % 4 = 0 → Completes (exec (.jr n 0 ga 0) s) s (Retires s n 0 0 a.toNat)
        ∧ Completes (exec (.jalr n gd ga 0) s) s (Retires s n gd (BitVec.ofNat 64 (c.pc + 4)) a.toNat))
    ∧ (a.toNat % 4 ≠ 0 → c.depth < 8 →
        ∀ i ∈ [Instr.jr n 0 ga 0, .jalr n gd ga 0], Completes (exec i s) s (Enters s n false 0x03 0 c.pc a.toNat))

/-- R255, R257, R258, R270 and R275: CGET of each control register, at P1, and at P2 for those that P2 may read, returns the fields of the table in their
places with every reserved field 0; EPC, CAUSE and BADADDR are views of the top entry frame and read 0 with no frame in use.
R255, R256, R258 and R275: CSET at P1 returns in gd what CGET reads and writes the fields of the table: STATUS its RUNPRI, IE and, where the value is
at most 8, DEPTH; a read-only register, and a frame view with no frame in use, keep their values; STEPS stands at the value written. -/
def Obligations.FalganControlRegisters : Prop :=
  (∀ (s : State) (n gd : Fin 64), CoreRuns s n →
      let c := coreOf s n
      let top := fun k => if c.depth = 0 then (0 : Word) else ldWord s n (0x103F00 + 32 * (c.depth - 1) + 8 * k)
      ∀ p ∈ [((0x000 : BitVec 14), BitVec.ofNat 64 n), (0x001, BitVec.ofNat 64 (c.runpri * 2 ^ 16 + c.depth * 2 ^ 8 + 2 * b2n c.ie + b2n c.p2)),
          (0x002, BitVec.ofNat 64 ((top 0).toNat / 4 % 2 ^ 46 * 4)),
          (0x003, BitVec.ofNat 64 ((top 2).toNat / 2 ^ 63 * 2 ^ 63 + (top 2).toNat % 2 ^ 16)), (0x004, BitVec.ofNat 64 ((top 3).toNat % 2 ^ 48)),
          (0x005, BitVec.ofNat 64 c.thresh), (0x006, BitVec.ofNat 64 c.tvec), (0x007, c.scratch), (0x008, BitVec.ofNat 64 c.apbase),
          (0x010, BitVec.ofNat 64 s.time), (0x011, c.steps)],
        (c.p2 = false ∨ p.1 ∈ [(0x000 : BitVec 14), 0x001, 0x010, 0x011]) →
          Completes (exec (.cget n gd 0 p.1) s) s (Retires s n gd p.2 (c.pc + 4)))
  ∧ (∀ (s : State) (n gd ga : Fin 64), CoreRuns s n → (coreOf s n).p2 = false →
      let c := coreOf s n
      let v := gReg c ga
      let x := v.toNat
      let f := 0x103F00 + 32 * (c.depth - 1)
      let frame := fun (k : Nat) (w : Word) => if c.depth = 0 then s else stWord n (f + 8 * k) w s
      (∀ p ∈ [((0x000 : BitVec 14), CrName.coreId, s), (0x010, .time, s),
          (0x001, .status, corePut n { c with
            runpri := x / 2 ^ 16 % 16, depth := if x / 2 ^ 8 % 16 ≤ 8 then x / 2 ^ 8 % 16 else c.depth, ie := x / 2 % 2 == 1 } s),
          (0x002, .epc, frame 0 (BitVec.ofNat 64 (x / 4 % 2 ^ 46 * 4))),
          (0x003, .cause, frame 2 (BitVec.ofNat 64 (x / 2 ^ 63 % 2 * 2 ^ 63 + x % 2 ^ 16))),
          (0x004, .badaddr, frame 3 (BitVec.ofNat 64 (x % 2 ^ 48))),
          (0x005, .thresh, corePut n { c with thresh := x % 16 } s),
          (0x006, .tvec, corePut n { c with tvec := x / 2 ^ 8 % 2 ^ 40 * 2 ^ 8 } s),
          (0x007, .scratch, corePut n { c with scratch := v } s),
          (0x008, .apbase, corePut n { c with apbase := x % 2 ^ 12 } s)],
        Completes (exec (.cset n gd ga p.1) s) s (Retires p.2.2 n gd (crGet s n p.2.1) (c.pc + 4)))
      ∧ Completes (exec (.cset n gd ga 0x011) s) s (fun u =>
          Retires (corePut n { c with steps := v - 1 } s) n gd c.steps (c.pc + 4) u ∧ (coreOf u n).steps = v))

/-- R260, R264, R269, R272, R273 and R274: where an instruction raises ILLEGAL (a nonzero bit in a field it does not use, ERET with no frame), PRIV (an
instruction of P1 at P2) or a misalignment, it takes the entry of R276 with the cause, the address and the PC of the table, and has no other
effect. BADADDR of ILLEGAL and PRIV is the instruction word of R259. -/
def Obligations.FalganExceptionsTaken : Prop :=
  ∀ (s : State) (n gd ga gb : Fin 64) (imm : BitVec 15) (sh : BitVec 13) (cr : BitVec 14) (off : BitVec 12), CoreRuns s n → (coreOf s n).depth < 8 →
    let c := coreOf s n
    let a := (gReg c ga + imm.signExtend 64).toNat
    let rr := fun cls fn => cls * 2 ^ 27 + gd.val * 2 ^ 21 + ga.val * 2 ^ 15 + gb.val * 2 ^ 9 + fn
    let takes := fun (i : Instr) (code detail eaddr : Nat) => Completes (exec i s) s (Enters s n false code detail c.pc eaddr)
    (gb ≠ 0 → ∀ p ∈ [(Instr.clz n gd ga gb, rr 0 0xB), (.ctz n gd ga gb, rr 0 0xC), (.popc n gd ga gb, rr 0 0xD), (.jr n gd ga gb, rr 0x1B 1),
        (.jalr n gd ga gb, rr 0x1B 2), (.intclaim n gd ga gb, rr 0x1D 3), (.intdone n gd ga gb, rr 0x1D 4), (.trap n gd ga gb, rr 0x1F 1),
        (.eret n gd ga gb 0, rr 0x1F 2), (.fenceL n gd ga gb, rr 0x1F 3), (.fenceF n gd ga gb, rr 0x1F 4), (.gsync n gd ga gb, rr 0x1F 5),
        (.msync n gd ga gb, rr 0x1F 6), (.halt n gd ga gb, rr 0x1F 7)], takes p.1 1 0 p.2)
    ∧ (64 ≤ sh.toNat → ∀ p ∈ [(Instr.slli n gd ga sh, 0), (.srli n gd ga sh, 1), (.srai n gd ga sh, 2)],
        takes p.1 1 0 (5 * 2 ^ 27 + gd.val * 2 ^ 21 + ga.val * 2 ^ 15 + (p.2 * 2 ^ 13 + sh.toNat)))
    ∧ (¬ (ga = 0 ∧ gb = 0) → takes (.bra n ga gb off) 1 0 (0x18 * 2 ^ 27 + ga.val * 2 ^ 21 + gb.val * 2 ^ 15 + 7 * 2 ^ 12 + off.toNat))
    ∧ (crOf cr.toNat = none → takes (.cget n gd ga cr) 1 0 (0x11 * 2 ^ 27 + gd.val * 2 ^ 21 + ga.val * 2 ^ 15 + cr.toNat)
        ∧ takes (.cset n gd ga cr) 1 0 (0x11 * 2 ^ 27 + gd.val * 2 ^ 21 + ga.val * 2 ^ 15 + (2 ^ 14 + cr.toNat)))
    ∧ (c.depth = 0 → takes (.eret n 0 0 0 0) 1 0 (0x1F * 2 ^ 27 + 2))
    ∧ (c.p2 = true →
        (∀ r, crOf cr.toNat = some r → takes (.cset n gd ga cr) 2 0 (0x11 * 2 ^ 27 + gd.val * 2 ^ 21 + ga.val * 2 ^ 15 + (2 ^ 14 + cr.toNat)))
        ∧ (0 < c.depth → takes (.eret n 0 0 0 0) 2 0 (0x1F * 2 ^ 27 + 2))
        ∧ takes (.gsync n gd 0 0) 2 0 (0x1F * 2 ^ 27 + gd.val * 2 ^ 21 + 5) ∧ takes (.halt n 0 0 0) 2 0 (0x1F * 2 ^ 27 + 7)
        ∧ takes (.intclaim n gd ga 0) 2 0 (0x1D * 2 ^ 27 + gd.val * 2 ^ 21 + ga.val * 2 ^ 15 + 3)
        ∧ takes (.intdone n gd ga 0) 2 0 (0x1D * 2 ^ 27 + gd.val * 2 ^ 21 + ga.val * 2 ^ 15 + 4))
    ∧ (∀ p ∈ [(Instr.ldh n gd ga imm 0, 2), (.ldw n gd ga imm 0, 4), (.ldd n gd ga imm 0, 8)], a % p.2 ≠ 0 → takes p.1 4 0 a)
    ∧ (∀ p ∈ [(Instr.sth n gd ga imm 0, 2), (.stw n gd ga imm 0, 4), (.std n gd ga imm, 8)], a % p.2 ≠ 0 → takes p.1 5 0 a)

/-- R272 and R276: TRAP retires and enters with the code in EADDR and the next instruction's PC. R275: ERET in P1 with a frame in use, found free of
errors, frees the top frame and resumes at its PC with its MODE and IE; the frame's bytes stay. R278: an interrupt due at a boundary
enters at TVEC + 0x100 with the next instruction's PC. -/
def Obligations.FalganTrapReturnAndInterrupt : Prop :=
  ∀ (s : State) (n ga : Fin 64), CoreRuns s n →
    let c := coreOf s n
    let f := 0x103F00 + 32 * (c.depth - 1)
    let sv := ldWord s n (f + 8)
    (c.depth < 8 → Completes (exec (.trap n 0 ga 0) s) s
      (Enters (corePut n { c with steps := c.steps + 1 } s) n false 0x0C 0 (c.pc + 4) ((gReg c ga).toNat % 2 ^ 48)))
    ∧ (0 < c.depth → c.p2 = false → frameBad s n f = false → Completes (exec (.eret n 0 0 0 0) s) s
      (Retires (corePut n { c with depth := c.depth - 1, p2 := sv.getLsbD 0, ie := sv.getLsbD 1 } s) n 0 0
        ((ldWord s n f).toNat / 4 % 2 ^ 46 * 4)))
    ∧ (c.ie = true → c.depth < 8 → (∃ p, deliverable s n = some p) →
        Completes (exec (.interruptEntry n) s) s (Enters s n true 0x20 0 c.pc 0))

/-- R275 and R276: what an entry leaves. The four words of the frame that DEPTH named read back as the return PC, the MODE and IE of before, the cause and
the address; every byte outside the frame, every other core and every general register are as before; the core runs at P1 with IE 0 at
its handler. -/
def Obligations.FalganEntryFrameHolds : Prop :=
  ∀ (s u : State) (n : Fin 64) (int : Bool) (code detail ret eaddr : Nat), (coreOf s n).depth < 8 → code < 256 → detail < 256 →
    Enters s n int code detail ret eaddr u →
      let c := coreOf s n
      let f := 0x103F00 + 32 * c.depth
      ldWord u n f = BitVec.ofNat 64 (ret / 4 * 4) ∧ ldWord u n (f + 8) = BitVec.ofNat 64 (b2n c.p2 + 2 * b2n c.ie)
      ∧ ldWord u n (f + 16) = BitVec.ofNat 64 (code + 2 ^ 8 * detail + 2 ^ 63 * b2n int) ∧ ldWord u n (f + 24) = BitVec.ofNat 64 (eaddr % 2 ^ 48)
      ∧ (∀ a, ¬ (coreWin n + 0x40000 + (f - 0x100000) ≤ a ∧ a < coreWin n + 0x40000 + (f - 0x100000) + 32) →
          memByte u.flg.mem a = memByte s.flg.mem a)
      ∧ (coreOf u n).depth = c.depth + 1 ∧ (coreOf u n).p2 = false ∧ (coreOf u n).ie = false
      ∧ (coreOf u n).pc = (if int then c.tvec + 0x100 else c.tvec) ∧ (∀ k, gReg (coreOf u n) k = gReg c k)
      ∧ (∀ m, m ≠ n.val → coreOf u m = coreOf s m)

/-- R275: an entry followed by ERET of an undisturbed frame resumes what the entry left: the return PC, MODE, IE and DEPTH. -/
def Obligations.FalganEntryThenReturnResumes : Prop :=
  ∀ (s u : State) (n : Fin 64) (int : Bool) (code detail ret eaddr : Nat), (coreOf s n).depth < 8 → ret < 2 ^ 48 →
    Enters s n int code detail ret eaddr u → CoreRuns u n → frameBad u n (0x103F00 + 32 * (coreOf s n).depth) = false →
      Completes (exec (.eret n 0 0 0 0) u) u (fun t =>
        (coreOf t n).pc = ret / 4 * 4 ∧ (coreOf t n).p2 = (coreOf s n).p2 ∧ (coreOf t n).ie = (coreOf s n).ie
        ∧ (coreOf t n).depth = (coreOf s n).depth ∧ (∀ a, memByte t.flg.mem a = memByte u.flg.mem a))

/-- R277: an entry that finds eight frames in use writes no frame and faults the core with the code of the entry not taken and its PC; FLG_CORE_FAULT
(source 160) is latched. Shown for TRAP, and for an instruction with a nonzero bit it does not use. Memory, the other cores and everything
outside the interrupt and fault chapters stay (`Leaves`). -/
def Obligations.FalganNinthEntryFaultsCore : Prop :=
  ∀ (s : State) (n ga : Fin 64), CoreRuns s n → (coreOf s n).depth = 8 →
    let c := coreOf s n
    let faulted := fun (c' : Core) (code : Nat) =>
      { c' with st := .faulted, busy := .none, stores := [], ask := none, smp := none, statPc := c.pc, fcode := code, fdetail := 0 }
    (∃ u, exec (.trap n 0 ga 0) s = .next (done u) ∧ (fltOf u 160).latch = true ∧ Leaves s n (faulted { c with steps := c.steps + 1 } 0x0C) u)
    ∧ (∃ u, exec (.fenceL n 1 0 0) s = .next (done u) ∧ (fltOf u 160).latch = true ∧ Leaves s n (faulted c 0x01) u)

/-- R272, R78, R191, R245 and R248: FENCE.L, and FENCE.F with no store outstanding, retire; FENCE.F with stores outstanding waits. GSYNC and
MSYNC join their barrier's queue and wait for it. HALT retires and, its stores complete, the core is HALTED with its PC shown; with stores
outstanding it first waits for them. -/
def Obligations.FalganFencesBarriersAndHalt : Prop :=
  ∀ (s : State) (n gd : Fin 64), CoreRuns s n →
    let c := coreOf s n
    let next := c.pc + 4
    Completes (exec (.fenceL n 0 0 0) s) s (Retires s n 0 0 next)
    ∧ (c.stores = [] → Completes (exec (.fenceF n 0 0 0) s) s (Retires s n 0 0 next))
    ∧ (c.stores ≠ [] → Completes (exec (.fenceF n 0 0 0) s) s (fun u => u = corePut n { c with busy := .fence } s))
    ∧ (c.p2 = false → Completes (exec (.gsync n gd 0 0) s) s
        (fun u => u = corePut n { c with busy := .gsync gd } { s with gate := { s.gate with gsyncs := s.gate.gsyncs ++ [n.val] } }))
    ∧ Completes (exec (.msync n gd 0 0) s) s
        (fun u => u = corePut n { c with busy := .msync gd } { s with dlr := { s.dlr with msyncs := s.dlr.msyncs ++ [n.val] } })
    ∧ (c.p2 = false → c.stores = [] → ∃ u, exec (.halt n 0 0 0) s = .next (done u)
        ∧ Leaves s n { c with st := .halted, pc := next, steps := c.steps + 1, statPc := next } u)
    ∧ (c.p2 = false → c.stores ≠ [] → Completes (exec (.halt n 0 0 0) s) s
        (Counted (corePut n { c with pc := next, steps := c.steps + 1, busy := .leave .halted false } s)))

/-- R245, R246 and R248: FLG_CORE_CTL. RESET of a core that is out of RESET, at an instruction boundary with its stores complete, gives every control
and general register its reset value and keeps the memories; START of a core in RESET begins at PC 0 and has no effect in any other
state; HALTREQ halts a core at its boundary, or ends its WAIT or SLEEP without retiring it. -/
def Obligations.FalganCoreControl : Prop :=
  ∀ (s : State) (n : Fin 64),
    let c := coreOf s n
    let stopped := { c with st := .halted, busy := .none, stores := [], ask := none, statPc := c.pc, smp := none }
    (c.st = .reset → Completes (exec (.coreReset n) s) s (fun u => u = s))
    ∧ (c.st = .wait ∨ c.st = .sleep ∨ c.st = .halted ∨ c.st = .faulted ∨ (c.st = .run ∧ c.busy = .none ∧ c.stores = []) →
        ∃ u, exec (.coreReset n) s = .next (done u) ∧ Leaves s n {} u ∧ u.flg.mem = s.flg.mem)
    ∧ (c.st = .reset → Completes (exec (.coreStart n) s) s (fun u => u = corePut n { st := .run } s))
    ∧ (c.st ≠ .reset → Completes (exec (.coreStart n) s) s (fun u => u = s))
    ∧ (c.st = .wait ∨ c.st = .sleep ∨ (c.st = .run ∧ c.busy = .none ∧ c.stores = []) →
        ∃ u, exec (.coreHaltreq n) s = .next (done u) ∧ Leaves s n stopped u)
    ∧ (c.st = .reset ∨ c.st = .halted ∨ c.st = .faulted → Completes (exec (.coreHaltreq n) s) s (fun u => u = s))

/-- R335, R336 and R338: WAIT. A reserved bit of ga answers ST_INVALID, a deadline already reached ST_TIMEOUT; otherwise, with no ending condition,
the core stops in WAIT and keeps what it watches. When an ending condition holds and no watch does (an interrupt is deliverable), the
wait retires with ST_OK; at its deadline it retires with ST_TIMEOUT, the device time having reached it. SLEEP needs ga 0, answers
ST_ABORTED_BY_WAKE where a wake source is already pending, and stops a core other than core 0 in SLEEP.
R335 to R338: how WAIT and SLEEP end. The core runs again and retires with its status in the gd it named. -/
def Obligations.FalganWaitAndSleep : Prop :=
  (∀ (s : State) (n gd ga gb : Fin 64), CoreRuns s n →
      let c := coreOf s n
      let v := gReg c ga
      let d := (gReg c gb).toNat
      let w0 : Option Nat := if v.getLsbD 15 then some (v.toNat % 2 ^ 13) else none
      let w1 : Option Nat := if v.getLsbD 31 then some (v.toNat / 2 ^ 16 % 2 ^ 13) else none
      let rsv := v.toNat / 2 ^ 32 ≠ 0 ∨ v.toNat / 2 ^ 29 % 4 ≠ 0 ∨ v.toNat / 2 ^ 13 % 4 ≠ 0
      let gives := fun (i : Instr) (st : Status) => Completes (exec i s) s (Retires s n gd (BitVec.ofNat 64 st.code) (c.pc + 4))
      (rsv → gives (.wait n gd ga gb) .invalid)
      ∧ (¬ rsv → waitEnds s n w0 w1 = false → d ≠ 0 → d ≤ s.time → gives (.wait n gd ga gb) .timeout)
      ∧ (¬ rsv → waitEnds s n w0 w1 = false → (d = 0 ∨ s.time < d) → Completes (exec (.wait n gd ga gb) s) s
          (fun u => u = corePut n { c with st := .wait, busy := .wait w0 w1 d gd, statPc := c.pc } s))
      ∧ (v ≠ 0 → gives (.sleep n gd ga gb) .invalid)
      ∧ (v = 0 → (wakeSource s n).isSome → gives (.sleep n gd ga gb) .abortedByWake)
      ∧ (v = 0 → wakeSource s n = none → d ≠ 0 → d ≤ s.time → gives (.sleep n gd ga gb) .timeout)
      ∧ (v = 0 → wakeSource s n = none → (d = 0 ∨ s.time < d) → n ≠ 0 → Completes (exec (.sleep n gd ga gb) s) s
          (fun u => u = corePut n { c with st := .sleep, busy := .sleep d gd, statPc := c.pc } s)))
  ∧ (∀ (s : State) (n : Fin 64) (gd d : Nat) (w0 w1 : Option Nat),
      let c := coreOf s n
      let woken := fun (t : State) (st : Status) => Retires (corePut n { c with st := .run } t) n gd (BitVec.ofNat 64 st.code) (c.pc + 4)
      c.ask = none → c.smp = none →
        (c.busy = .wait w0 w1 d gd → (deliverable s n).isSome → watchHolds s n w0 = false → watchHolds s n w1 = false →
          Completes (exec (.waitEnd n) s) s (woken s .ok))
        ∧ (c.busy = .wait w0 w1 d gd → watchHolds s n w0 = true → watchHolds s n w1 = false →
          (∀ k, w0 = some k → srcEdge k (srcOf s k) = true →
            Completes (exec (.waitEnd n) s) s (woken (srcPut k { srcOf s k with st := .idle } s) .ok)))
        ∧ (c.busy = .wait w0 w1 d gd → d ≠ 0 → waitEnds s n w0 w1 = false → s.time < d → s.pmu.cnts = [] →
          Completes (exec (.waitSleepDeadline n) s) s (woken { s with time := d } .timeout))
        ∧ (c.busy = .sleep d gd → (wakeSource s n).isSome → s.pwr.idle = false → Completes (exec (.sleepWake n) s) s (woken s .ok)))

/-- R329, R331, R332 and R333: INTCLAIM takes the deliverable source, highest priority first: it is ACTIVE and claimed by the core, its number
and priority stand in the word at ga, the old RUNPRI is kept under it and the priority becomes RUNPRI; with nothing deliverable the word is 0
and the answer ST_NOT_READY. INTDONE of the source claimed last gives the core its RUNPRI back and completes the source: PENDING again where
it fired meanwhile or its level still holds (the case that a source is left with no core in service to take it is
stated with R330). Any other source answers ST_CONFLICT. -/
def Obligations.FalganClaimAndComplete : Prop :=
  ∀ (s : State) (n gd ga : Fin 64), CoreRuns s n → (coreOf s n).p2 = false →
    let c := coreOf s n
    let a := (gReg c ga).toNat
    let give := fun (t : State) (st : Status) => Retires t n gd (BitVec.ofNat 64 st.code) (c.pc + 4)
    (¬ (a % 8 = 0 ∧ 0x100000 ≤ a ∧ a + 8 ≤ 0x140000) → Completes (exec (.intclaim n gd ga 0) s) s (give s .invalid))
    ∧ (a % 8 = 0 → 0x100000 ≤ a → a + 8 ≤ 0x140000 → (sget [] s.icu.claims n).length < 15 →
        (deliverable s n = none → Completes (exec (.intclaim n gd ga 0) s) s (give (stWord n a 0 s) .notReady))
        ∧ (∀ k p, deliverable s n = some (k, p) → Completes (exec (.intclaim n gd ga 0) s) s
            (give (stWord n a (BitVec.ofNat 64 (2 ^ 63 + p * 2 ^ 16 + k)) (corePut n { c with runpri := p }
              (stackPut n ((k, c.runpri) :: stackIcu s n) (srcPut k { srcOf s k with st := .active, claimer := n } s)))) .ok)))
    ∧ (∀ m saved t, (sget [] s.icu.claims n).filter (fun p => stillClaimed s n p.1) = (m, saved) :: t →
        (m ≠ a % 8192 → Completes (exec (.intdone n gd ga 0) s) s (give s .conflict))
        ∧ (m = a % 8192 →
            let x := srcOf s m
            let t := corePut n { c with runpri := saved } (stackPut n t (srcPut m { x with
              st := if x.st = .activePending ∨ x.levelIn = true then .pending else .idle } s))
            isStranded t (srcOf t m) = false → Completes (exec (.intdone n gd ga 0) s) s
              (give { t with icu := { t.icu with stranded := t.icu.stranded.filter (fun k => !(k == m)) } } .ok)))
    ∧ ((sget [] s.icu.claims n).filter (fun p => stillClaimed s n p.1) = [] → Completes (exec (.intdone n gd ga 0) s) s (give s .conflict))

/-- R314 to R322: the ring instructions of a core that may use an enabled ring. QPUSH of a full ring answers ST_NO_SPACE and changes nothing; otherwise
the entry block goes to position W, W goes on by one modulo 2^32, and the position stands behind the block. QPOP and QPEEK of a ring with nothing
unread answer ST_NOT_READY; otherwise the entry at RD and its position go to the block, and QPOP moves RD on by one. QMARK marks RD, QREWIND goes
back to the mark, QREL releases up to a position at or before RD and refuses one beyond it, QSTAT stores four words. Each answers in gd; beside the
ring, the block and the core, only counters, interrupts, reports and notifications change.
R319: what a ring instruction answers without touching the ring: ST_INVALID for a ring number above 1,023 or a ring that is not enabled, ST_DENIED for a
ring that the core may not use at P2 or whose portal belongs to the other side. -/
def Obligations.RingInstructions : Prop :=
  (∀ (s : State) (n gd ga gb : Fin 64), CoreRuns s n →
      let c := coreOf s n
      let k := (gReg c ga).toNat
      let b := (gReg c gb).toNat
      let r := ringOf s k
      let ends := fun (i : Instr) (st : Status) (t : State) =>
        ∃ u, exec i s = .next (done u) ∧ Signals (corePut n (retiredCore c gd (BitVec.ofNat 64 st.code) (c.pc + 4)) t) u
      let copied := stWords n b ((List.range 8).map (fun i => BitVec.ofNat 64 ((sget 0 r.ents r.rd).toNat / 2 ^ (64 * i))) ++ [BitVec.ofNat 64 r.rd]) s
      let p := b % 2 ^ 32
      k < 1024 → r.en = true → (c.p2 = false ∨ (r.p2en = true ∧ r.p2core = n)) →
        (b % 64 = 0 → 0x100000 ≤ b → b + 128 ≤ 0x140000 →
          (r.portal ≠ 1 → r.portal ≠ 3 →
            (posDiff r.w r.rel = ringCap r → ends (.qpush n gd ga gb) .noSpace s)
            ∧ (posDiff r.w r.rel ≠ ringCap r →
                let r' := ringPushE s.time (BitVec.ofNat 512 (leNat (memRead s.flg.mem (coreWin n + 0x40000 + (b - 0x100000)) 64))) r
                ends (.qpush n gd ga gb) .ok (stWord n (b + 64) (BitVec.ofNat 64 r.w) (ringPut k r' s))
                ∧ r'.w = (r.w + 1) % 2 ^ 32 ∧ r'.rd = r.rd ∧ r'.rel = r.rel ∧ r'.mark = r.mark
                ∧ ∀ j, sget 0 r'.ents j = if j = r.w then BitVec.ofNat 512 (leNat (memRead s.flg.mem (coreWin n + 0x40000 + (b - 0x100000)) 64))
                    else sget 0 r.ents j))
          ∧ (r.portal ≠ 2 → r.portal ≠ 4 →
            (r.rd = r.w → ends (.qpop n gd ga gb) .notReady s ∧ ends (.qpeek n gd ga gb) .notReady s)
            ∧ (r.rd ≠ r.w → r.bad.contains r.rd = false →
                ends (.qpeek n gd ga gb) .ok copied
                ∧ ∃ tm, ends (.qpop n gd ga gb) .ok (ringPut k { r with rd := (r.rd + 1) % 2 ^ 32, fired := false, timer := tm } copied))))
        ∧ (r.portal ≠ 2 → r.portal ≠ 4 →
            ends (.qmark n gd ga 0) .ok (ringPut k { r with mark := r.rd } s)
            ∧ (∃ tm f, ends (.qrewind n gd ga 0) .ok (ringPut k { r with rd := r.mark, timer := tm, fired := f } s))
            ∧ (posDiff r.rd r.rel < posDiff p r.rel → ends (.qrel n gd ga gb) .invalid s)
            ∧ (posDiff p r.rel ≤ posDiff r.rd r.rel → ends (.qrel n gd ga gb) .ok (ringPut k (ringRelease p r) s) ∧ (ringRelease p r).rel = p))
        ∧ (b % 8 = 0 → 0x100000 ≤ b → b + 32 ≤ 0x140000 → ends (.qstat n gd ga gb) .ok (stWords n b
            [BitVec.ofNat 64 (r.w * 2 ^ 32 + r.rd), BitVec.ofNat 64 (r.rel * 2 ^ 32 + r.mark), BitVec.ofNat 64 (ringCap r * 2 ^ 32 + r.spilled.length),
              BitVec.ofNat 64 (b2n (r.timer != 0) * 4 + b2n (decide (r.wmark ≤ ringUnread r)) * 2 + 1)] s)))
  ∧ (∀ (s : State) (n gd ga gb : Fin 64), CoreRuns s n →
      let c := coreOf s n
      let k := (gReg c ga).toNat
      let r := ringOf s k
      let gives := fun (i : Instr) (st : Status) => Completes (exec i s) s (Retires s n gd (BitVec.ofNat 64 st.code) (c.pc + 4))
      let all := [Instr.qpush n gd ga gb, .qpop n gd ga gb, .qpeek n gd ga gb, .qmark n gd ga gb, .qrewind n gd ga gb, .qrel n gd ga gb, .qstat n gd ga gb]
      ((1024 ≤ k ∨ r.en = false) → ∀ i ∈ all, gives i .invalid)
      ∧ (k < 1024 → r.en = true → c.p2 = true → ¬ (r.p2en = true ∧ r.p2core = n) → gives (.qrel n gd ga gb) .denied ∧ gives (.qmark n gd ga 0) .denied)
      ∧ (k < 1024 → r.en = true → r.portal = 2 ∨ r.portal = 4 →
          gives (.qrel n gd ga gb) .denied ∧ gives (.qmark n gd ga 0) .denied ∧ gives (.qrewind n gd ga 0) .denied))

/-- R314, R322, R325, R328 to R330, R340: QRING_CFG word 0 enables a disabled ring whose configuration passes the checks, with every position 0 and no entry,
and notes the failed check in CFGERR otherwise; disabling discards every entry. The idle timer's end fires the ring's idle source at the time it
ends and stops the timer. PENDCLR takes PENDING to IDLE and ACTIVE-AND-PENDING to ACTIVE; a store to ICU_SWSET fires its software source.
R329 and R340: PENDCLR and ICU_SWSET, each acting on its source alone. -/
def Obligations.RingAndInterruptRegisters : Prop :=
  (∀ (s : State) (k : Nat) (v : Word), k < 1024 →
      let r := ringOf s k
      let val := v.toNat
      let asked : Ring := { idle := r.idle, wmark := r.wmark, spDepth := r.spDepth, spBase := r.spBase, poisonN := r.poisonN, cfgErr := r.cfgErr
                            spill := v.getLsbD 62, portal := val / 2 ^ 59 % 8, depth := val / 2 ^ 55 % 16, p2en := v.getLsbD 54
                            p2core := val / 2 ^ 48 % 64, dom := val / 2 ^ 36 % 4096, base := val % 2 ^ 13 }
      (r.en = false → ringCheck s k asked = 0 → ∃ u, exec (.qringEnable k v) s = .next (done u)
          ∧ Signals (ringPut k { asked with en := true, cfgErr := 0 } s) u)
      ∧ (r.en = false → ringCheck s k asked ≠ 0 → ∃ u, exec (.qringEnable k v) s = .next (done u)
          ∧ Signals (ringPut k { asked with cfgErr := ringCheck s k asked } s) u)
      ∧ (r.en = true → ∃ u, exec (.qringDisable k v) s = .next (done u)
          ∧ Signals (ringPut k { r.cleared with p2en := v.getLsbD 54, p2core := val / 2 ^ 48 % 64 } s) u
          ∧ r.cleared.w = 0 ∧ r.cleared.rd = 0 ∧ r.cleared.ents = [] ∧ r.cleared.en = false)
      ∧ (r.en = true → r.timer ≠ 0 → s.pmu.cnts = [] → ∃ u, exec (.ringIdleExpire k) s = .next (done u)
          ∧ Reported (ringPut k { r with timer := 0, fired := true } { s with time := max s.time (r.timer - 1 + r.idle * 1000) }) u
          ∧ (srcEdge (1024 + k) (srcOf s (1024 + k)) = true → (srcOf u (1024 + k)).st = (srcOf s (1024 + k)).st.fire)))
  ∧ (∀ (s : State) (k : Nat),
      let sw := 7264 + k % 64
      let plain := fun (t : State) (k : Nat) => { t with icu := { t.icu with stranded := t.icu.stranded.filter (fun j => !(j == k)) } }
      (k < 8192 → Completes (exec (.pendclr k) s) s (fun u => u = plain (srcPut k { srcOf s k with
          st := match (srcOf s k).st with | .pending => .idle | .activePending => .active | st => st } s) k))
      ∧ (srcEdge sw (srcOf s sw) = true →
          let t := srcPut sw { srcOf s sw with st := match (srcOf s sw).st with | .idle => .pending | .active => .activePending | st => st } s
          (isStranded t (srcOf t sw) = false → Completes (exec (.icuSwset k) s) s (fun u => u = plain t sw))
          ∧ (isStranded t (srcOf t sw) = true → s.icu.stranded.contains sw = false → ∃ u, exec (.icuSwset k) s = .next (done u)
              ∧ Reported s u ∧ (fltOf u 165).latch = true)))

/-- R78, R191 and R294: a Gate barrier that retires is the oldest one: the generation rises, every released slot is free again, and its core retires with
ST_OK in gd. A placement barrier that retires leaves no translation that differs from the map, and its core retires likewise. A barrier of the
management path is answered instead. -/
def Obligations.BarriersRetire : Prop :=
  ∀ (s : State) (n : Nat) (gd : Nat) (t : List Nat), n < 64 → (coreOf s n).st = .run → (coreOf s n).ask = none → (coreOf s n).smp = none →
    let next := (coreOf s n).pc + 4
    (s.gate.gsyncs = n :: t → (coreOf s n).busy = .gsync gd → Completes (exec .gsyncRetire s) s (fun u =>
        ∃ rs, Retires { s with gate := { s.gate with gsyncs := t, gen := (s.gate.gen + 1) % 2 ^ 32, rules := rs } } n gd 0 next u
          ∧ ∀ k, (sget {} rs k).freed = false))
    ∧ (s.dlr.msyncs = n :: t → (coreOf s n).busy = .msync gd → Completes (exec .msyncRetire s) s (
        Retires { s with dlr := { s.dlr with msyncs := t, tlb := s.dlr.tlb.map (fun p => (p.1, mapOf s p.1)) } } n gd 0 next))
    ∧ (s.dlr.msyncs = 64 :: t → Completes (exec .msyncRetire s) s (fun u =>
        u = { s with dlr := { s.dlr with msyncs := t, tlb := s.dlr.tlb.map (fun p => (p.1, mapOf s p.1)) }, out := .resp .mgmt 0 [] :: s.out }))

/-- R66, R67, R76, R79, R293 and R294: what each accepted form of GATESET and GATECLR does to the rule slots and the list heads. WRITE
replaces a rule of the list in place, with GEN one higher; STAGE puts a free slot at the front of a new staged chain or behind LINK in one; INSERT puts
it at the head of the list or behind LINK; SWAP puts a staged chain in the list's place and answers the old list's head, the old rules becoming
staged; PIN sets the list's PIN; UNLINK takes a rule out of its list and FREE a staged chain apart, their slots being released until the next
GSYNC. gd answers ST_OK, DONE is 0, and nothing else changes but event counters. -/
def Obligations.GateRuleOperations : Prop :=
  ∀ (s : State) (n gd ga : Fin 64),
    let a := (gReg (coreOf s n) ga).toNat
    let e := fxEnvOf s n gd ga 6 0 0
    let e2 := fxEnvOf s n gd ga 2 0 0
    let ends := fun (i : Instr) (e : FxEnv) (t : State) (outs : List (Nat × Word)) =>
      ∃ u, exec i s = .next (done u) ∧ FxEnds t e n gd a .ok outs 0 u
    let img := fun (old : Rule) => { old with
      das := bit (e.word 1) 62, dom := fld (e.word 1) 56 45, p3 := fld (e.word 1) 15 12, p2 := fld (e.word 1) 11 8, p1 := fld (e.word 1) 7 4
      p0 := fld (e.word 1) 3 0, start := fld (e.word 2) 47 6 * 64, limit := fld (e.word 3) 47 6 * 64, gen := (old.gen + 1) % 256 }
    let rule := fld (e.word 4) 45 32
    let link := fld (e.word 4) 29 16
    let after := bit (e.word 4) 30
    let list := if bit (e.word 1) 62 then 4096 else fld (e.word 1) 56 45
    let h := headOf s list
    let r := ruleOf s rule
    let l := ruleOf s link
    let free := r.valid = false ∧ r.freed = false
    let rule2 := fld (e2.word 1) 45 32
    let list2 := if bit (e2.word 1) 62 then 4096 else fld (e2.word 1) 57 46
    let h2 := headOf s list2
    let x := ruleOf s rule2
    (FxRuns s n gd ga 0 0 (gateForm 1) → gateCheck (gateForm 1) true e s = none → (listSlots s list).contains rule = true →
        ends (.gatesetWrite n gd ga) e (rulePut rule (img r) s) [])
    ∧ (FxRuns s n gd ga 0 0 (gateForm 2) → gateCheck (gateForm 2) true e s = none → free →
        (after = false → ends (.gatesetStage n gd ga) e
          (rulePut rule { img r with valid := true, staged := true, last := true, next := 0 } s) [])
        ∧ (after = true → stagedAs e l = true → (stagedSlots s (chainHead s 256 link)).length < 256 → ends (.gatesetStage n gd ga) e
          (rulePut rule { img r with valid := true, staged := true, last := l.last, next := l.next } (rulePut link { l with last := false, next := rule } s)) []))
    ∧ (FxRuns s n gd ga 0 0 (gateForm 3) → gateCheck (gateForm 3) true e s = none → free → h.count < 256 → pinOver s list (h.count + 1) = false →
        (after = false → ends (.gatesetInsert n gd ga) e
          (headPut list { h with count := h.count + 1, head := rule }
            (rulePut rule { img r with valid := true, staged := false, last := h.count == 0, next := if h.count = 0 then 0 else h.head } s)) [])
        ∧ (after = true → (listSlots s list).contains link = true → ends (.gatesetInsert n gd ga) e
          (headPut list { h with count := h.count + 1 }
            (rulePut rule { img r with valid := true, staged := false, last := l.last, next := l.next } (rulePut link { l with last := false, next := rule } s))) []))
    ∧ (FxRuns s n gd ga 0 0 (gateForm 4) → gateCheck (gateForm 4) false e s = none → stagedHead s rule = true → stagedAs e r = true →
        pinOver s list (stagedSlots s rule).length = false →
        ends (.gatesetSwap n gd ga) e
          (headPut list { h with count := (stagedSlots s rule).length, head := rule } (setStaged true (listSlots s list) (setStaged false (stagedSlots s rule) s)))
          [(5, if h.count = 0 then 0 else BitVec.ofNat 64 (2 ^ 14 + h.head))])
    ∧ (FxRuns s n gd ga 0 0 (gateForm 5) → gateCheck (gateForm 5) false e s = none →
        (bit (e.word 4) 0 = false ∨ h.pin = true ∨ pinnedRules s + h.count ≤ 2048) →
        ends (.gatesetPin n gd ga) e (headPut list { h with pin := bit (e.word 4) 0 } s) [])
    ∧ (FxRuns s n gd ga 0 0 (gateclrForm 1) → fxCheck (gateclrForm 1) (e2.das && !(e2.cdom == 0)) e2.cdom e2 s = none →
        (listSlots s list2).contains rule2 = true →
        let before := (listSlots s list2).find? (fun k => !(ruleOf s k).last && ((ruleOf s k).next == rule2))
        let released := fun (t : State) => rulePut rule2 { gen := (ruleOf t rule2).gen, freed := true } t
        (before = none → ends (.gateclrUnlink n gd ga) e2 (released (headPut list2 { h2 with count := h2.count - 1, head := x.next } s)) [])
        ∧ (∀ k, before = some k → ends (.gateclrUnlink n gd ga) e2
            (released (headPut list2 { h2 with count := h2.count - 1 } (rulePut k { ruleOf s k with last := x.last, next := x.next } s))) []))
    ∧ (FxRuns s n gd ga 0 0 (gateclrForm 2) → fxCheck (gateclrForm 2) (e2.das && !(e2.cdom == 0)) e2.cdom e2 s = none →
        stagedHead s rule2 = true → x.das = bit (e2.word 1) 62 → x.dom = fld (e2.word 1) 57 46 →
        ends (.gateclrFree n gd ga) e2
          ((stagedSlots s rule2).foldl (fun t k => rulePut k { gen := (ruleOf t k).gen, freed := true } t) s) [])

/-- R44, R51, R216, R289 to R291 and R309: the forms of BIND that act on a domain. CREATE makes a FREE domain ACTIVE with its map base, QoS profile,
KMD mark and three region sizes; QUIESCE stops one virtual switch or, with ALL, the whole domain, and RESUME undoes exactly that; CONSTRAINT
replaces the whole constraint record; WALL sets the ways where nothing of another domain is left in them, and waits where something is;
RETIRE makes the domain RETIRING, drains its windows, and releases the blocks it holds. Where QUIESCE and RETIRE name a domain with running moves,
those end first (`domLeft`). -/
def Obligations.DomainOperations : Prop :=
  ∀ (s : State) (n gd ga : Fin 64),
    let env := fun (f : FxForm) => fxEnvOf s n gd ga f.words 0 0
    let does := fun (i : Instr) (f : FxForm) (t : State) => FxDoes s i (env f) n gd ga .ok [] 0 t
    let passes := fun (f : FxForm) (inv : Bool) => FxRuns s n gd ga 0 0 f ∧ fxCheck f inv (env f).dom (env f) s = none
    (passes fBindCreate false →
      let e := env fBindCreate
      let d := domOf s e.dom
      let base := fld (e.word 2) 59 42
      let p := fld (e.word 3) 56 38
      let c := fld (e.word 3) 37 19
      let q := fld (e.word 3) 18 0
      p + c + q ≤ 2 ^ 18 → base + (p + c + q) ≤ 2 ^ 18 →
      (d.st = .free ∨ e.dom = 0 ∧ d.kmd = false) → (e.dom = 0 → bit (e.word 2) 33 = true) →
      (∀ x ∈ s.dom.doms, x.1 ≠ e.dom → x.2.valid = true → x.2.mapBase + spanOf x.2 ≤ base ∨ base + (p + c + q) ≤ x.2.mapBase) →
      does (.bindCreate n gd ga) fBindCreate (domPut e.dom { d with
        valid := true, st := .active, mapBase := base, qos := fld (e.word 2) 41 34, kmd := bit (e.word 2) 33
        privSize := p, scohSize := c, sncoSize := q } s))
    ∧ (let e := env fBindQuiesce
      let d := domOf s e.dom
      (passes fBindQuiesce false → bit (e.word 1) 6 = false → e.dom ≠ 0 → d.st = .active → d.quiesced.contains e.vcs = false →
        does (.bindQuiesce n gd ga) fBindQuiesce (domPut e.dom { d with quiesced := d.quiesced ++ [e.vcs] } s))
      ∧ (passes fBindQuiesce false → bit (e.word 1) 6 = true → e.vcs = 0 → e.dom ≠ 0 → d.st = .active →
        does (.bindQuiesce n gd ga) fBindQuiesce (domLeft e.dom (domPut e.dom { d with st := .quiescing } s))))
    ∧ (let e := env fBindResume
      let d := domOf s e.dom
      (passes fBindResume false → bit (e.word 1) 6 = false → d.st ≠ .free → d.quiesced.contains e.vcs = true →
        does (.bindResume n gd ga) fBindResume (domPut e.dom { d with quiesced := d.quiesced.filter (fun v => v != e.vcs) } s))
      ∧ (passes fBindResume false → bit (e.word 1) 6 = true → e.vcs = 0 → d.st = .quiescing →
        does (.bindResume n gd ga) fBindResume (domPut e.dom { d with st := .active } s)))
    ∧ (let e := env fBindConstraint
      let w := e.word 2
      let pin := fld w 63 60
      let fill := fld w 59 56
      passes fBindConstraint false → (pin ≤ 8 ∨ pin = 15) → (fill ≤ 8 ∨ fill = 15) → (domOf s e.dom).st ≠ .free →
        (pin = 8 → extParcels s e.dom ≤ fld w 27 0) →
        does (.bindConstraint n gd ga) fBindConstraint { s with dlr := { s.dlr with con := sset {} s.dlr.con e.dom {
          pinTier := pin, fill := fill, duplex := bit w 55, heatOff := bit w 54, migCap := fld w 51 40, quota := fld w 27 0
          devset := (e.word 3).toNat + (e.word 4).toNat * 2 ^ 64 + (e.word 5).toNat * 2 ^ 128 + (e.word 6).toNat * 2 ^ 192 } } })
    ∧ (let e := env fBindWall
      let d := domOf s e.dom
      let v := fld (e.word 2) 15 0
      let t := wallEvict e.dom (domPut e.dom { d with wall := v } s)
      passes fBindWall false → d.st ≠ .free → v &&& walledWays s e.dom = 0 → popCount 16 (v ||| walledWays s e.dom) ≤ 12 →
        (wallPending t e.dom = false → does (.bindWall n gd ga) fBindWall t)
        ∧ (wallPending t e.dom = true → exec (.bindWall n gd ga) s = .next (done (corePut n { coreOf t n with
            busy := .fx gd (gReg (coreOf s n) ga).toNat [e.dom] } t))))
    ∧ (let e := env fBindRetire
      let d := domOf s e.dom
      let t := domPut e.dom { d with st := .retiring, retireSlot := some e.slot, scrubbed := 0 } (slotTake e.slot n 1 (e.word 1) s)
      let v := { t with dom := { t.dom with wins := t.dom.wins.map (fun p =>
        if p.2.valid = true ∧ p.2.dom = e.dom ∧ p.2.slot = none then (p.1, { p.2 with drain := true, slot := some 4096 }) else p) } }
      passes fBindRetire false → d.st ≠ .free → e.dom ≠ 0 → d.hosts = 0 →
        does (.bindRetire n gd ga) fBindRetire (releaseStart e.dom (domBlocks v e.dom) false (domLeft e.dom v)))

/-- R35, R44, R47, R57, R291, R309 and R563: the forms of BIND and UNBIND that act on vPPBs and pool devices. A KMD instance bound to a vPPB raises its
domain's HOSTS, a pass-through target takes the port or LD; either is announced to the host as a hot-add, its removal as a hot-remove. A pool
device takes the lowest free index and is SCRUBBING until its capacity is scrubbed; EVACUATE makes an ACTIVE one EVACUATING and promises room
for what it holds; an ABSENT one gives its index up.
R38, R39, R41, R44, R46, R141, R292 and R309: windows. WINSET fills the lowest free slot, whose GEN rises, answers the slot in word 3 and
raises WIN_COUNT; WINCLR marks the window as draining and takes a result slot; when the requests under it have ended, its slot is
cleared but for GEN, WIN_COUNT falls and the result is posted; while one has not, nothing happens. A decoder commit that its
checks pass keeps the decoder and fills one window over it, and one that fails leaves windows and decoders alone; the host hears which. -/
def Obligations.TargetAndWindowOperations : Prop :=
  (∀ (s : State) (n gd ga : Fin 64) (lds cap : Nat),
      let env := fun (f : FxForm) => fxEnvOf s n gd ga f.words 0 0
      let passes := fun (f : FxForm) => FxRuns s n gd ga 0 0 f ∧ fxCheck f false 0 (env f) s = none
      (let e := fxEnvOf s n gd ga fBindVppb.words lds 0
        let d := domOf s e.dom
        let put := fun (x : VTarget) => vppbPut e.vcs e.vppb (some x) s
        let x := (fld (e.word 1) 23 17, if bit (e.word 1) 12 = true then some (fld (e.word 1) 16 13) else none)
        let does := fun (t : State) => FxDoes s (.bindVppb n gd ga lds) e n gd ga .ok [] 0 (hotPlug e.vcs e.vppb 2 t)
        FxRuns s n gd ga lds 0 fBindVppb → fxCheck fBindVppb false e.dom e s = none → d.st ≠ .free →
        (∃ port, portOfVcs? s e.vcs = some port ∧ (e.dom = 0 → fld (e.word 1) 11 10 = 0 → fmPort? s = some port)) →
        sget none s.dom.vppb (e.vcs * 256 + e.vppb) = none → vppbsBound s < 1024 →
        (fld (e.word 1) 11 10 = 0 → d.kmd = true → d.hosts < 64 → (presenters s e.dom).contains e.vcs = false →
          does (domPut e.dom { d with hosts := d.hosts + 1 } (put (.kmd e.dom))))
        ∧ (fld (e.word 1) 11 10 = 1 → portRole s x.1 = 2 → noLd x lds = false → placeTaken s x = false → exported s x.1 = false →
          does (put (match x.2 with | some l => .ld x.1 l | none => .port x.1))))
      ∧ (let e := fxEnvOf s n gd ga fBindPooldev.words lds cap
        let x := (fld (e.word 1) 23 17, if bit (e.word 1) 12 = true then some (fld (e.word 1) 16 13) else none)
        FxRuns s n gd ga lds cap fBindPooldev → fxCheck fBindPooldev false 0 e s = none → portRole s x.1 = 2 → linkUp s x.1 = true →
        (cxpOf s x.1).mem = true → (cxpOf s x.1).cache = false → noLd x lds = false → placeTaken s x = false → exported s x.1 = false →
        ∀ k, freeDev s = some k → 0 < cap →
          FxDoes s (.bindPooldev n gd ga lds cap) e n gd ga .ok [] 0 (devPut k {
            bound := true, st := .scrubbing, port := x.1, ld := x.2, rank := fld (e.word 1) 9 7, cap := min cap (2 ^ 28)
            slot := some e.slot } (slotTake e.slot n 1 (e.word 1) s)))
      ∧ (let e := env fBindEvacuate
        let k := fld (e.word 1) 31 24
        let t := slotTake e.slot n 1 (e.word 1) s
        passes fBindEvacuate → (devOf s k).st = .active → evLacks s k = false →
          FxDoes s (.bindEvacuate n gd ga) e n gd ga .ok [] 0
            (devPut k { devOf t k with st := .evacuating, evSlot := some e.slot, evProm := (naming s k).length, moved := 0 }
              { t with dlr := { t.dlr with promises := t.dlr.promises + (naming s k).length } }))
      ∧ (let e := env fUnbindVppb
        let does := fun (t : State) => FxDoes s (.unbindVppb n gd ga) e n gd ga .ok [] 0 t
        passes fUnbindVppb →
        (∀ d, sget none s.dom.vppb (e.vcs * 256 + e.vppb) = some (.kmd d) →
          (∀ w ∈ s.dom.wins, w.2.valid = true → w.2.vcs = e.vcs → w.2.dom ≠ d) →
          does (hotPlug e.vcs e.vppb 3 (let t := domPut d { domOf s d with hosts := (domOf s d).hosts - 1 } (vppbPut e.vcs e.vppb none s)
            { t with dom := { t.dom with
              decoders := t.dom.decoders.filter (fun c => !(c.vcs == e.vcs && c.dom == d))
              offers := t.dom.offers.map (fun o => if o.dom = d then { o with waiting := o.waiting.filter (fun v => !(v == e.vcs)) } else o) } })))
        ∧ (∀ x, sget none s.dom.vppb (e.vcs * 256 + e.vppb) = some x → (∀ d, x ≠ .kmd d) →
          does (hotPlug e.vcs e.vppb 3 (vppbPut e.vcs e.vppb none s))))
      ∧ (let e := env fUnbindPooldev
        let k := fld (e.word 1) 31 24
        passes fUnbindPooldev → (devOf s k).bound = true → (devOf s k).st = .absent →
          FxDoes s (.unbindPooldev n gd ga) e n gd ga .ok [] 0 (devPut k {} s)))
  ∧ (∀ (s : State) (n gd ga : Fin 64),
      let filled := fun (k : Nat) (w : Window) (t : State) =>
        domPut w.dom { domOf t w.dom with winCount := (domOf t w.dom).winCount + 1 } { t with dom := { t.dom with
          wins := sput t.dom.wins k { w with valid := true, drain := false, gen := ((sget {} t.dom.wins k).gen + 1) % 256, slot := none } } }
      (let e := fxEnvOf s n gd ga fWinset.words 0 0
        let w := winImage (e.word 1) (e.word 2)
        FxRuns s n gd ga 0 0 fWinset → fxCheck fWinset (winInvalid s (fld (e.word 1) 62 61) w) w.dom e s = none →
        (domOf s w.dom).st = .active →
        (∃ c ∈ s.dom.decoders, c.vcs = w.vcs ∧ c.dom = w.dom ∧ c.dec = w.dec ∧ c.hpa ≤ w.hpa ∧ w.hpa + w.size ≤ c.hpa + c.size) →
        (∀ p ∈ s.dom.wins, p.2.valid = true → p.2.vcs = w.vcs → rangesMeet w.hpa w.size p.2.hpa p.2.size = false) →
        (w.mode = .priv → ∀ p ∈ s.dom.wins, p.2.valid = true → p.2.dom = w.dom → rangesMeet w.da w.size p.2.da p.2.size = false) →
        ∀ k, freeWin s = some k → FxDoes s (.winset n gd ga) e n gd ga .ok [(3, word k)] 0 (filled k w s))
      ∧ (let e := fxEnvOf s n gd ga fWinclr.words 0 0
        let k := fld (e.word 1) 15 0
        let w := sget {} s.dom.wins k
        let t := slotTake e.slot n 4 (e.word 1) s
        FxRuns s n gd ga 0 0 fWinclr → fxCheck fWinclr (!(bit (e.word 1) 24) && !(fld (e.word 1) 23 16 == 0)) 0 e s = none →
        w.valid = true → w.slot = none → (bit (e.word 1) 24 = true → w.gen = fld (e.word 1) 23 16) →
          FxDoes s (.winclr n gd ga) e n gd ga .ok [] 0
            { t with dom := { t.dom with wins := sput t.dom.wins k { sget {} t.dom.wins k with drain := true, slot := some e.slot } } })
      ∧ (∀ k : Nat,
        let w := sget {} s.dom.wins k
        (∀ p, w.valid = true → w.drain = true → w.slot = some p → (∀ r ∈ s.reqs, r.win ≠ some k) →
          exec (.winclrDrainDone k) s = .next (done (slotPost p .ok 0 (domPut w.dom { domOf s w.dom with winCount := (domOf s w.dom).winCount - 1 }
            { s with dom := { s.dom with wins := sset {} s.dom.wins k { gen := w.gen } } }))))
        ∧ ((∃ r ∈ s.reqs, r.win = some k) → exec (.winclrDrainDone k) s = .next (done s)))
      ∧ (∀ (vcs dom dec hpa size da port : Nat) (bi : Bool),
        let d := domOf s dom
        let r := regionOf d (da / 2 ^ 28)
        let ok := hpa % 2 ^ 28 = 0 ∧ size % 2 ^ 28 = 0 ∧ da % 2 ^ 28 = 0 ∧ size ≠ 0 ∧ r ≠ none ∧ r = regionOf d ((da + size) / 2 ^ 28 - 1)
          ∧ (r = some .scoh → bi = true ∧ (cxpOf s port).flit ≠ 1)
        let w : Window := { valid := false, mode := r.getD .priv, dom := dom, vcs := vcs, dec := dec, hpa := hpa / 2 ^ 28, size := size / 2 ^ 28, da := da / 2 ^ 28 }
        let t := { s with dom := { s.dom with decoders := s.dom.decoders.filter (fun x => !(x.vcs == vcs && x.dom == dom && x.dec == dec))
          ++ [{ vcs := vcs, dom := dom, dec := dec, hpa := hpa / 2 ^ 28, size := size / 2 ^ 28, da := da / 2 ^ 28 }] } }
        portOfVcs? s vcs = some port → (presenters s dom).contains vcs = true → dec < 8 →
        (∀ k, ok → winInvalid t (r.getD .priv).code w = false → winPlace w t = .ok k →
          exec (.hdmDecoderCommit vcs dom dec hpa size da bi) s = .next (done (respond (.cfg port) 0 [] (filled k w t))))
        ∧ (¬ ok ∨ winInvalid t (r.getD .priv).code w = true ∨ (∃ st, winPlace w t = .error st) →
          exec (.hdmDecoderCommit vcs dom dec hpa size da bi) s = .next (done (respond (.cfg port) 1 [] s)))))

/-- R187, R191, R192, R201, R202, R208, R209 and R295 to R299: the placement operations. The range forms of PMAPSET write entries in parcel order
until one is refused: the status names the refusal (ST_CONFLICT for an entry that does not fit or whose GEN differs, ST_BUSY for a
running move) and DONE counts the entries written. EXTEND makes entries ZERO with EXT and the domain's TAG and takes promises, RELEASE returns
them to their reset value but for GEN, PIN sets PIN. PMAPGET reads an entry or the leg counts. MOVE START queues the move, CANCEL posts the
end of a queued one or aborts a running one; MOVESTAT reads where a move stands, and acknowledges; HEAT reads or sets COUNT and WMIX. -/
def Obligations.PlacementOperations : Prop :=
  ∀ (s : State) (n gd ga : Fin 64),
    let env := fun (f : FxForm) => fxEnvOf s n gd ga f.words 0 0
    let range := fun (i : Instr) (f : FxForm) (cond : MapEntry → Prop) (write : Nat → Nat → State → State) =>
      let e := env f
      let m := fun (j : Nat) => mapOf s (mapIdx s e.pdom (e.parcel + j))
      let fits := fun (j : Nat) => (e.genv = true → (m j).gen = e.pgen) ∧ cond (m j)
      let after := fun (k : Nat) => (List.range k).foldl (fun t j => write e.pdom (mapIdx s e.pdom (e.parcel + j)) t) s
      let does := fun (st : Status) (k : Nat) => FxDoes s i e n gd ga st [] k (after k)
      FxRuns s n gd ga 0 0 f → pmapCheck f e s = none → e.parcel + e.count ≤ spanOf (domOf s e.pdom) * 1024 →
      ∀ k ≤ e.count, (∀ j < k, fits j ∧ (m j).ms = .none) →
        (k = e.count → does .ok k)
        ∧ (k < e.count → ¬ fits k → does .conflict k)
        ∧ (k < e.count → fits k → (m k).ms ≠ .none → e.force = false → does .busy k)
    ((let d := (env fExtend).pdom
      (domOf s d).st = .active → s.dlr.promises + promiseOf s d * (env fExtend).count ≤ poolFree s →
        range (.pmapsetExtend n gd ga) fExtend (fun m => m.ext = false) (fun d i t =>
          mapSlow i { gen := ((mapOf t i).gen + 1) % 65536, ext := true, tag := d }
            { t with dlr := { t.dlr with promises := t.dlr.promises + promiseOf s d } })))
    ∧ ((domOf s (env fRelease).pdom).st ≠ .free →
        range (.pmapsetRelease n gd ga) fRelease (fun m => m.tag = (env fRelease).pdom) releaseOne)
    ∧ ((domOf s (env fPin).pdom).st ≠ .free → (domOf s (env fPin).pdom).st ≠ .retiring →
        range (.pmapsetPin n gd ga) fPin (fun m => m.tag = (env fPin).pdom ∧ m.ext = true) (fun _ i t =>
          mapSlow i { mapOf t i with gen := ((mapOf t i).gen + 1) % 65536, pin := bit ((env fPin).word 1) 61 } t))
    ∧ (let e := env fEntry
      let m := mapOf s (mapIdx s e.pdom e.parcel)
      FxRuns s n gd ga 0 0 fEntry → fxCheck fEntry false e.pdom e s = none → (domOf s e.pdom).st ≠ .free →
      e.parcel < spanOf (domOf s e.pdom) * 1024 →
        FxDoes s (.pmapgetEntry n gd ga) e n gd ga .ok [(2, (mapWords m).1), (3, (mapWords m).2)] 0 s)
    ∧ (let e := env fLegs
      let l := legsOf s (fld (e.word 1) 7 0) e.pdom
      FxRuns s n gd ga 0 0 fLegs → fxCheck fLegs false e.pdom e s = none → (devOf s (fld (e.word 1) 7 0)).bound = true →
        FxDoes s (.pmapgetLegs n gd ga) e n gd ga .ok [(2, word (l.1 * 2 ^ 28 + l.2))] 0 s)
    ∧ (let e := env fStart
      let i := mapIdx s e.pdom e.parcel
      let m := mapOf s i
      let t := slotTake e.slot n 0x12 (e.word 1) s
      FxRuns s n gd ga 0 0 fStart → fxCheck fStart (genUnused e) e.pdom e s = none → (domOf s e.pdom).st = .active →
      e.parcel < spanOf (domOf s e.pdom) * 1024 → m.kind ≠ .zero → m.kind ≠ .poisoned → m.tag = e.pdom → m.ext = true → m.ms = .none →
      (e.genv = true → m.gen = e.pgen) → (e.p2 = true → m.pin = false) →
      (∀ q ∈ s.dlr.moves, q.idx ≠ i) → s.dlr.moves.length < 256 →
      ∀ tg, moveTarget (e.word 2) = some tg → moveMisfit m tg = false → moveForbidden s (conOf s e.pdom) tg = false →
        (moveDevs s e.pdom tg).isSome = true →
        FxDoes s (.moveStart n gd ga) e n gd ga .ok [] 0 { t with dlr := { t.dlr with
          moves := t.dlr.moves ++ [{ dom := e.pdom, idx := i, tgt := tg, high := bit (e.word 2) 60, gen := m.gen, slot := e.slot, p2 := e.p2 }] } })
    ∧ (let e := env fCancel
      let i := mapIdx s e.pdom e.parcel
      let does := fun (t : State) => FxDoes s (.moveCancel n gd ga) e n gd ga .ok [] 0 t
      FxRuns s n gd ga 0 0 fCancel → fxCheck fCancel false e.pdom e s = none →
      (∀ q, s.dlr.moves.find? (fun q => q.idx == i) = some q → (e.p2 = true → q.p2 = true) →
        does (movePost q.slot q.dom .conflict 1 (mapOf s i).gen 0
          { s with dlr := { s.dlr with moves := s.dlr.moves.filter (fun x => !(x.idx == i)) } }))
      ∧ (∀ k c, (∀ q ∈ s.dlr.moves, q.idx ≠ i) → carOn s i = some (k, c) → (e.p2 = true → c.p2 = true) → does (moveAbort k 1 s)))
    ∧ (let e := env fMovestat
      let x := slotOf s e.slot
      let does := fun (st : Status) (a b c : Word) (t : State) => FxDoes s (.movestat n gd ga) e n gd ga st [(2, a), (3, b), (4, c)] 0 t
      FxRuns s n gd ga 0 0 fMovestat → fxCheck fMovestat false 0 e s = none → x.op = 0x12 →
      (x.st = 1 → does .notReady (movePhase s e.slot) 0 0 s)
      ∧ (x.st = 2 → bit (e.word 1) 0 = false → does .ok (movePhase s e.slot) ((slotWords x).getD 0 0) x.detail s)
      ∧ (x.st = 2 → bit (e.word 1) 0 = true →
        does .ok (movePhase s e.slot) ((slotWords x).getD 0 0) x.detail (slotPut e.slot { x with st := 0 } s)))
    ∧ (let e := env fHeatRead
      let i := mapIdx s e.pdom e.parcel
      let does := fun (w : Word) => FxDoes s (.heatRead n gd ga) e n gd ga .ok [(2, w)] 0 s
      FxRuns s n gd ga 0 0 fHeatRead → fxCheck fHeatRead false e.pdom e s = none → e.parcel < spanOf (domOf s e.pdom) * 1024 →
      (∀ h, sfind? s.dlr.hcache i = some h → does (word (h.rd * 2 ^ 50 + h.wr * 2 ^ 34 + h.count * 2 ^ 2 + h.wmix)))
      ∧ (sfind? s.dlr.hcache i = none → does (word ((sget (0, 0) s.dlr.heat i).1 * 2 ^ 2 + (sget (0, 0) s.dlr.heat i).2))))
    ∧ (let e := env fHeatSet
      let i := mapIdx s e.pdom e.parcel
      let c := fld (e.word 2) 15 2
      let w := fld (e.word 2) 1 0
      let does := fun (t : State) => FxDoes s (.heatSet n gd ga) e n gd ga .ok [] 0 t
      FxRuns s n gd ga 0 0 fHeatSet → fxCheck fHeatSet false e.pdom e s = none → e.parcel < spanOf (domOf s e.pdom) * 1024 →
      (∀ h, sfind? s.dlr.hcache i = some h →
        does { s with dlr := { s.dlr with hcache := sput s.dlr.hcache i { h with count := c, wmix := w, rd := 0, wr := 0 } } })
      ∧ (sfind? s.dlr.hcache i = none → does { s with dlr := { s.dlr with heat := sset (0, 0) s.dlr.heat i (c, w) } }))

/-- R201, R203 to R212: how a queued move runs. An idle Caravan takes the next move, high priority first, or ends it for the first cause that applies;
each chunk writes its 16 lines to the destination, with their poison, and moves CURSOR; the flip writes the entry's new location with GEN + 1
once every access that passed placement earlier is over, and posts ST_OK; SWITCH_MAX aborts the move with CAUSE 4, the entry's GEN as it was
(stated where no request is inside the device, since held accesses then go on); a new allowance lets every paused Caravan go on. -/
def Obligations.MovesRun : Prop :=
  ∀ (s : State),
    (s.dlr.moves = [] → exec .caravanMoveStart s = .next (done s))
    ∧ (∀ q, (s.dlr.moves.find? (fun q => q.high)).orElse (fun _ => s.dlr.moves.head?) = some q →
      let m := mapOf s q.idx
      let t := { s with dlr := { s.dlr with moves := s.dlr.moves.filter (fun x => !(x.idx == q.idx)) } }
      let lost := m.kind = .poisoned ∨ locsOf m ≠ [] ∧ ∀ l ∈ locsOf m, l.1 ≠ 255 ∧ devLost s l.1 = true
      let ends := fun (cause : Nat) (st : Status) => exec .caravanMoveStart s = .next (done (movePost q.slot q.dom st cause m.gen 0 t))
      (pickCaravan s m = none → exec .caravanMoveStart s = .next (done s))
      ∧ (∀ k, pickCaravan s m = some k →
        (lost → ends 3 .faulted)
        ∧ (¬ lost → m.gen ≠ q.gen → ends 1 .conflict)
        ∧ (¬ lost → m.gen = q.gen → (domOf s q.dom).st ≠ .active → ends 5 .denied)
        ∧ (¬ lost → m.gen = q.gen → (domOf s q.dom).st = .active → moveDevs s q.dom q.tgt = none → ends 7 .noSpace)
        ∧ (¬ lost → m.gen = q.gen → (domOf s q.dom).st = .active → ∀ ds ls v, moveDevs s q.dom q.tgt = some ds → takeAll ds t = some (ls, v) →
          exec .caravanMoveStart s = .next (done (carPut k { carOf v k with
            st := .copying, cursor := 0, flight := mayCopy v q.dom, dom := q.dom, idx := q.idx, slot := q.slot, tgt := some q.tgt
            dest := ls, drain := [], start := v.time, high := q.high, p2 := q.p2, synced := [] }
            (mapNow q.idx { m with ms := .copying, car := k } v))))))
    ∧ (∀ (k : Nat) (lines : List Line) (poison err : Nat),
      let c := carOf s k
      let t := wake (fun p => decide (p = .chunkHold c.idx))
        (carPut k { c with cursor := c.cursor + 16, flight := false } (meterBytes c.dom 1024 (copyChunk c lines poison s)))
      (c.st ≠ .copying ∨ c.flight = false → exec (.chunkComplete k lines poison err) s = .next (done s))
      ∧ (c.st = .copying → c.flight = true →
        (err = 2 ∨ err = 6 → exec (.chunkComplete k lines poison err) s = .next (done (moveAbort k err s)))
        ∧ (err ≠ 2 → err ≠ 6 → c.cursor + 16 < 4096 →
          exec (.chunkComplete k lines poison err) s = .next (done (carPut k { carOf t k with flight := mayCopy t c.dom, start := t.time } t)))
        ∧ (err ≠ 2 → err ≠ 6 → 4096 ≤ c.cursor + 16 → exec (.chunkComplete k lines poison err) s = .next (done (toSwitching k t)))
        ∧ (∀ d p l, c.dest = [(d, p)] → d ≠ 255 → readLoc s (mapOf s c.idx) = some l → l.1 ≠ 255 →
          ∃ w, (copyChunk c lines poison s).out = w ++ s.out ∧ w.length = 16 ∧ ∀ i < 16, w[15 - i]? = some (.tx (devOf s d).port
            (.devWr (s.next + i) (p * 2 ^ 18 + (c.cursor + i) * 64) (lines.getD i 0) (BitVec.allOnes 64) (poison / 2 ^ i % 2 == 1))))))
    ∧ (∀ k : Nat,
      let c := carOf s k
      let m := mapOf s c.idx
      let busy := (∃ i ∈ c.drain, ∃ r, reqOf s i = some r ∧ inFlight r = true) ∨ ∃ r ∈ s.reqs, r.who = .wback 1 ∧ idxOf s r.dom r.da = c.idx
      (c.st ≠ .switching → exec (.moveFlip k) s = .next (done s))
      ∧ (c.st = .switching → unsynced s c = [] → busy → exec (.moveFlip k) s = .next (done s))
      ∧ (c.st = .switching → unsynced s c = [] → ¬ busy → ∃ t, exec (.moveFlip k) s = .next (done t)
        ∧ mapOf t c.idx = flipEntry c m ∧ (mapOf t c.idx).ms = .none ∧ (mapOf t c.idx).gen = (m.gen + 1) % 65536
        ∧ (∀ i, i ≠ c.idx → mapOf t i = mapOf s i)
        ∧ carOf t k = { done := satAdd (2 ^ 32 - 1) c.done 1, aborted := c.aborted }
        ∧ (c.slot < 4096 → (slotOf s c.slot).st = 1 → (slotOf t c.slot).st = 2 ∧ (slotOf t c.slot).status = .ok)))
    ∧ (∀ k : Nat,
      let c := carOf s k
      let m := mapOf s c.idx
      (c.st ≠ .switching → (c.st ≠ .copying ∨ c.flight = false) → exec (.switchMaxExpire k) s = .next (done s))
      ∧ (c.st = .switching ∨ c.st = .copying ∧ c.flight = true → s.reqs = [] → ∃ t, exec (.switchMaxExpire k) s = .next (done t)
        ∧ mapOf t c.idx = { m with ms := .none, car := 0 } ∧ (∀ i, i ≠ c.idx → mapOf t i = mapOf s i)
        ∧ carOf t k = { done := c.done, aborted := satAdd (2 ^ 32 - 1) c.aborted 1 }
        ∧ (c.slot < 4096 → (slotOf s c.slot).st = 1 → (slotOf t c.slot).st = 2 ∧ (slotOf t c.slot).status = .timeout)))
    ∧ (∃ t, exec .migrationAllowance s = .next (done t) ∧ t.dlr.copied = 0 ∧ t.dlr.copiedD = [] ∧ t.dlr.map = s.dlr.map
      ∧ ∀ k, carOf t k = if (carOf s k).st = .copying ∧ (carOf s k).flight = false
        then { carOf s k with flight := true, start := s.time } else carOf s k)

/-- R190, R193, R194 and R195 to R198: fills of the placement TLB and of ZERO parcels, and heat. A TLB miss brings the entry that the map holds; a fill
takes its backing and writes the entry with GEN + 1, or waits; when FILL_WAIT passes the entry is POISONED and DLR_FILL_FAIL is raised. The
sweep of an epoch halves COUNT and sets WMIX of every parcel that it visits in a valid segment, exactly once, and leaves the others;
a parcel that meets a report condition sends one report (the lowest reason code where several hold is the model's choice, log entry 36, DEDUCED). -/
def Obligations.FillsAndHeat : Prop :=
  ∀ (s : State),
    (∀ i : Nat, i ∉ s.dlr.misses → exec (.placementTlbFill i) s = .next (done s))
    ∧ (∀ i ∈ s.dlr.misses, ∃ t, exec (.placementTlbFill i) s = .next (done t) ∧ sfind? t.dlr.tlb i = some (mapOf s i) ∧ i ∉ t.dlr.misses
      ∧ t.dlr.map = s.dlr.map ∧ ∀ r ∈ s.reqs, r.phase = .tlbFill i → { r with phase := .ready } ∈ t.reqs)
    ∧ (∀ i : Nat, (∀ f ∈ s.dlr.fills, f.idx ≠ i) → exec (.fillCommit i) s = .next (done s) ∧ exec (.fillWaitExpire i) s = .next (done s))
    ∧ (∀ i f, s.dlr.fills.find? (fun f => f.idx == i) = some f →
      (fillChoice s f.dom = none → exec (.fillCommit i) s = .next (done s))
      ∧ (∀ ds ls t, fillChoice s f.dom = some ds → takeAll ds s = some (ls, t) → ∃ u, exec (.fillCommit i) s = .next (done u)
        ∧ mapOf u i = { withLoc (mapOf s i) ls with gen := ((mapOf s i).gen + 1) % 65536 } ∧ (∀ j, j ≠ i → mapOf u j = mapOf s j)
        ∧ u.dlr.promises = s.dlr.promises - promiseOf s f.dom ∧ (∀ g ∈ u.dlr.fills, g.idx ≠ i) ∧ u.dlr.near = t.dlr.near ∧ u.dom = t.dom)
      ∧ (f.stall = true → s.dlr.fills.find? (fun f => f.idx == i && f.stall) = some f → ∃ u, exec (.fillWaitExpire i) s = .next (done u)
        ∧ mapOf u i = { mapOf s i with kind := .poisoned, gen := ((mapOf s i).gen + 1) % 65536 } ∧ (∀ j, j ≠ i → mapOf u j = mapOf s j)
        ∧ u.dlr.promises = s.dlr.promises - promiseOf s f.dom ∧ (fltOf u fDlrFillFail).latch = true
        ∧ (fltOf u fDlrFillFail).count = satAdd (2 ^ 32 - 1) (fltOf s fDlrFillFail).count 1))
    ∧ (let late := s.dlr.epochAt + regFld s aDlrHeatCfg 57 44 * 1000000
      (regFld s aDlrHeatCfg 63 63 = 0 ∨ s.dlr.sweep ≠ 0 → exec .epochEnd s = .next (done s))
      ∧ (regFld s aDlrHeatCfg 63 63 ≠ 0 → s.dlr.sweep = 0 → ∃ t, exec .epochEnd s = .next (done t) ∧ t.dlr = { s.dlr with
        epochs := (s.dlr.epochs + 1) % 2 ^ 32, lastMs := min 16383 ((max s.time late - s.dlr.epochAt) / 1000000), epochAt := max s.time late
        sweep := 1, reports := 0 }))
    ∧ (let heat := fun (t : State) (i : Nat) => match sfind? t.dlr.hcache i with | some h => (h.count, h.wmix) | none => sget (0, 0) t.dlr.heat i
      let mix := fun (i : Nat) => match sfind? s.dlr.hcache i with | some h => wmixOf h.rd h.wr h.wmix | none => (sget (0, 0) s.dlr.heat i).2
      ∀ n : Nat, let lo := s.dlr.sweep - 1
        let hi := min (lo + n) (2 ^ 28)
        (s.dlr.sweep = 0 → exec (.heatSweep n) s = .next (done s))
        ∧ (s.dlr.sweep ≠ 0 → ∃ t, exec (.heatSweep n) s = .next (done t) ∧ t.dlr.sweep = (if hi = 2 ^ 28 then 0 else hi + 1) ∧ t.dlr.map = s.dlr.map
          ∧ ∀ i, heat t i = if lo ≤ i ∧ i < hi ∧ (domOfIdx s i).isSome = true then ((heat s i).1 / 2, mix i) else heat s i)
        ∧ (∀ i d r u, regFld s aDlrHeatCfg 62 62 = 1 → s.dlr.resume ≤ i → s.dlr.reports + 1 < regFld s aDlrHeatCfg 33 17 → domOfIdx s i = some d →
          reportReason s (mapOf s i) (heat s i).1 = some r →
          enginePush (regFld s aDlrHeatCfg 43 34) (reportRec s i d (i - (domOf s d).mapBase * 1024) r (mapOf s i) (heat s i).1 (mix i))
            { s with dlr := { s.dlr with reports := s.dlr.reports + 1 } } = some u →
          (sweepOne i s).ring = u.ring ∧ (sweepOne i s).dlr.reports = s.dlr.reports + 1))

/-- R154, R170 to R175, R300 to R303, R128 and R81: the line operations. SFQUERY answers the entry of the snoop filter and the state of the line cache,
zeros for a line outside every SHARED_COHERENT window, and changes nothing; LINEFLUSH takes its slot and, for such a line, sends the flush to the
home, else posts ST_OK at once; MELD on shared memory reads the target, answers the old value in words 7 and 8 and writes the new one, one
access; MELD on a line of an ACTIVE domain waits for its request, whose answer then fills words 7 and 8 and retires the
instruction. What the Gate refuses ends ST_DENIED, in a locked region ST_LOCKED. -/
def Obligations.LineOperations : Prop :=
  ∀ (s : State) (n gd ga : Fin 64),
    let env := fun (f : FxForm) => fxEnvOf s n gd ga f.words 0 0
    let passes := fun (f : FxForm) (bad : Bool) => FxRuns s n gd ga 0 0 f ∧
      fxCheck (lineForm f s (env f)) bad (refDom (lineRef s (env f))) (env f) s = none
    (let e := env fSfquery
      let does := fun (a b : Word) => FxDoes s (.sfquery n gd ga) e n gd ga .ok [(2, a), (3, b)] 0 s
      passes fSfquery (lineBad s e) →
      (∀ a, lineRef s e = .shm a → does 0 0)
      ∧ (∀ d a, lineRef s e = .da d a → scohWindow s d a = false → does 0 0)
      ∧ (∀ d a, lineRef s e = .da d a → scohWindow s d a = true →
        let k := keyOf d a
        let l := lcOf s k
        let dirty := match l with | some x => x.dirty | none => false
        let poison := match l with | some x => x.poison | none => false
        does (sfWord s k) (word (b2n (!keyElse s k) * 2 ^ 63 + b2n dirty * 2 ^ 62 + b2n poison * 2 ^ 61 + sliceOf k * 2 ^ 50 + keyS k / 64 * 2 ^ 37))))
    ∧ (let e := env fLineflush
      let t := slotTake e.slot n 0x19 (e.word 1) s
      passes fLineflush (lineBad s e) →
      (∀ v, refDeny s e (lineRef s e) [.w] = some v → ∃ u, FxDoes s (.lineflush n gd ga) e n gd ga (if v = .locked then .locked else .denied) [] 0 u)
      ∧ (refDeny s e (lineRef s e) [.w] = none →
        (∀ d a, lineRef s e = .da d a → scohWindow s d a = true →
          let q := mkReq t.next (.flush e.slot) (if bit (e.word 2) 0 then .flushInv else .flushKeep) d a .scoh
          FxDoes s (.lineflush n gd ga) e n gd ga .ok [] 0 (enterHome q (reqAdd q (takeNext t))))
        ∧ ((∀ d a, lineRef s e = .da d a → scohWindow s d a = false) →
          FxDoes s (.lineflush n gd ga) e n gd ga .ok [] 0 (slotPost e.slot .ok 0 t))))
    ∧ (∀ slot outcome : Nat,
      ((∀ r ∈ s.reqs, r.who = .flush slot → r.phase ≠ .remoteWait) → exec (.lineflushDone slot outcome) s = .next (done s))
      ∧ (∀ r, s.reqs.find? (fun r => decide (r.who = .flush slot) && decide (r.phase = .remoteWait)) = some r →
        exec (.lineflushDone slot outcome) s = .next (done (finishReq r
          (if outcome = 0 then .done else if outcome = 1 then .status .poisoned else .status .timeout) s))))
    ∧ (let e := env fMeld
      ∀ op w a b, meldArgs e = some (op, w, a, b) → passes fMeld (lineRsv e || !(refAddr (lineRef s e) % w.bytes == 0)) →
      (∀ x, lineRef s e = .shm x → refDeny s e (.shm x) [.r, .w] = none → (∀ i < w.bytes, badWord s (x + i) = false) →
        let old := memNat s x w.bytes
        let t := countN 0x4001 none none 1 s
        FxDoes s (.meld n gd ga) e n gd ga .ok [(7, word old), (8, word (old / 2 ^ 64))] 0
          (if meldWrites op w old a then memPut x w.bytes (meldNew op w old a b) t else t))
      ∧ (∀ d x, lineRef s e = .da d x → refDeny s e (.da d x) (if e.p2 then [.w] else [.r, .w]) = none →
        ((domOf s d).st ≠ .active → ∃ u, FxDoes s (.meld n gd ga) e n gd ga .denied [] 0 u)
        ∧ ((domOf s d).st = .active →
          let r := mkReq s.next (.coreMeld n) (.atomic op w (x % 64) a b) d (x / 64 * 64) ((regionOf (domOf s d) (x / 2 ^ 28)).getD .priv)
          let t := reqAdd r (takeNext s)
          exec (.meld n gd ga) s = .next (done (meldGo s.next (corePut n { coreOf t n with busy := .meld s.next gd (gReg (coreOf s n) ga).toNat } t))))))
    ∧ (∀ (r : Req) (v : Nat) (p : Bool) (desc : Nat), (coreOf s n).st = .run → (coreOf s n).busy = .meld r.id gd desc → (coreOf s n).ask = none →
      (coreOf s n).smp = none →
      Retires (stWords n (desc + 56) [word v, word (v / 2 ^ 64)] s) n gd (word (if p then Status.poisoned else Status.ok).code) ((coreOf s n).pc + 4)
        (answerCoreMeld n r (.old v p) s))

/-- R53, R98, R107, R113, R304, R305 and R306: MIRROR, QOSSET and PORTCTL. Each writes the settings its form names and nothing else; MIRROR SET starts SEQ
at 0 and keeps DROPS; a RESERVE moves cells between its account and the shared pool, of which at least 65,536 stay; DISABLE takes a link
down, ENABLE lets it train, RETRAIN takes a slot and retrains, PACE sets STOP within its limit. A port that does not exist is ST_INVALID. -/
def Obligations.TrafficOperations : Prop :=
  ∀ (s : State) (n gd ga : Fin 64),
    let env := fun (f : FxForm) => fxEnvOf s n gd ga f.words 0 0
    let passes := fun (f : FxForm) => FxRuns s n gd ga 0 0 f ∧ fxCheck f false 0 (env f) s = none
    let does := fun (i : Instr) (f : FxForm) (t : State) => FxDoes s i (env f) n gd ga .ok [] 0 t
    let refuses := fun (i : Instr) (f : FxForm) (st : Status) => FxDoes s i (env f) n gd ga st [] 0 s
    let erg := fun (g : ErgSt → ErgSt) => { s with erg := g s.erg }
    (let e := env fMirrorSet
      let w := e.word 2
      let k := fld (e.word 1) 5 0
      let m := sget {} s.erg.mirrors k
      passes fMirrorSet → mirrorBad e = false →
      (mirrorPorts e s = false → refuses (.mirrorSet n gd ga) fMirrorSet .invalid)
      ∧ (mirrorPorts e s = true → m.en = true → refuses (.mirrorSet n gd ga) fMirrorSet .busy)
      ∧ (mirrorPorts e s = true → m.en = false → does (.mirrorSet n gd ga) fMirrorSet (mirrorPut k {
        en := true, flow := bit w 62, dir := fld w 61 60, src := fld w 54 48, dest := fld w 40 34, dom := fld w 27 16, msgs := fld w 15 8
        snap := fld w 2 0, daStart := fld (e.word 3) 45 6, daLimit := fld (e.word 4) 45 6, seq := 0, drop := m.drop } s)))
    ∧ (let k := fld ((env fMirrorClear).word 1) 5 0
      passes fMirrorClear → does (.mirrorClear n gd ga) fMirrorClear (mirrorPut k { sget {} s.erg.mirrors k with en := false } s))
    ∧ (let e := env fQosProfile
      passes fQosProfile → 1 ≤ fld (e.word 2) 15 0 → fld (e.word 2) 15 0 ≤ 4096 → does (.qossetProfile n gd ga) fQosProfile
        (erg (fun g => { g with prof := sset {} g.prof (fld (e.word 1) 47 40) { cls := fld (e.word 2) 17 16, quantum := fld (e.word 2) 15 0 } })))
    ∧ (let e := env fQosDomain
      let d := fld (e.word 1) 59 48
      FxRuns s n gd ga 0 0 fQosDomain → fxCheck fQosDomain false d e s = none →
        does (.qossetDomain n gd ga) fQosDomain (domPut d { domOf s d with qos := fld (e.word 2) 7 0 } s))
    ∧ (let e := env fQosPortq
      let v := e.word 2
      passes fQosPortq → (∀ q ∈ [fld v 63 48, fld v 47 32, fld v 31 16, fld v 15 0], 1 ≤ q ∧ q ≤ 4096) →
      (subPortExists s e.qport = false → refuses (.qossetPortq n gd ga) fQosPortq .invalid)
      ∧ (subPortExists s e.qport = true → does (.qossetPortq n gd ga) fQosPortq (erg (fun g => { g with pqos := sset {} g.pqos e.qport {
        q6 := fld v 63 48, q5 := fld v 47 32, q4 := fld v 31 16, q3 := fld v 15 0, rxclass := fld (e.word 3) 1 0 } }))))
    ∧ (let e := env fQosAlpha
      passes fQosAlpha → fld (e.word 2) 3 0 ≤ 9 → does (.qossetAlpha n gd ga) fQosAlpha
        (erg (fun g => { g with alpha := sput g.alpha (fld (e.word 1) 26 24) (fld (e.word 2) 3 0) })))
    ∧ (let e := env fQosReserve
      let c := fld (e.word 1) 26 24
      let q := fld (e.word 2) 12 0
      let k := acctKey e.qport c
      let a := acctOf s k
      passes fQosReserve → c < 7 → 32 ≤ q → q ≤ 4096 → subPortExists s e.qport = true → isTrlPort s e.qport = false →
      (a.res < q → s.erg.shared + a.res < 65536 + q → refuses (.qossetReserve n gd ga) fQosReserve .noSpace)
      ∧ (q ≤ a.res ∨ 65536 + q ≤ s.erg.shared + a.res → does (.qossetReserve n gd ga) fQosReserve
        (erg (fun g => { g with accts := sset {} g.accts k { a with res := q }, shared := g.shared + a.res - q }))))
    ∧ (let e := env fPortDisable
      let p := e.cport
      passes fPortDisable → (subPortExists s p = false → refuses (.portctlDisable n gd ga) fPortDisable .invalid)
        ∧ (subPortExists s p = true → does (.portctlDisable n gd ga) fPortDisable (if portOff s p then s else portDisable p s)))
    ∧ (let e := env fPortEnable
      let p := e.cport
      passes fPortEnable → (subPortExists s p = false → refuses (.portctlEnable n gd ga) fPortEnable .invalid)
        ∧ (subPortExists s p = true → does (.portctlEnable n gd ga) fPortEnable
          (if portOff s p ∨ ((cxpOf s p).link = 4 ∧ isTrlPort s p = false) then portEnable p s else s)))
    ∧ (let e := env fPortRetrain
      let p := e.cport
      passes fPortRetrain → subPortExists s p = true →
      (portOff s p = true ∨ (isTrlPort s p = false ∧ (cxpOf s p).link = 4) → refuses (.portctlRetrain n gd ga) fPortRetrain .conflict)
      ∧ (portOff s p = false → (isTrlPort s p = true ∨ (cxpOf s p).link ≠ 4) →
        (retrainWaits s p = true → refuses (.portctlRetrain n gd ga) fPortRetrain .busy)
        ∧ (retrainWaits s p = false → does (.portctlRetrain n gd ga) fPortRetrain (portRetrain p e.slot (slotTake e.slot n 0x22 (e.word 1) s)))))
    ∧ (let e := env fPortPace
      let t := e.cport / 4
      let v := fld (e.word 2) 14 0
      passes fPortPace →
      (subPortExists s e.cport = true → isTrlPort s e.cport = true → v ≤ stopLimit s t → does (.portctlPace n gd ga) fPortPace
        (erg (fun g => { g with pace := sset (15, 384) g.pace t ((sget (15, 384) g.pace t).1, v) })))
      ∧ (subPortExists s e.cport = false ∨ isTrlPort s e.cport = false ∨ stopLimit s t < v → refuses (.portctlPace n gd ga) fPortPace .invalid))

/-- R286 to R288, R308, R499, R501, R503 and R506: CNTCFG sets a counter's configuration and preloads its value in one step; CNTREAD answers up to eight
counters of one instant and zeros for the rest, at P2 only counters the program's domain scope holds; SAMPLECFG replaces a source's
settings and restarts SEQ where it enables the source; RESULTPUT ACK frees a posted slot, ST_NOT_READY while it is PENDING and ST_CONFLICT while
it is FREE; POST fills a FREE slot, with the issuing core as CORE (the model's reading, log entry 74, DEDUCED), and finds any other one busy. -/
def Obligations.MonitorAndResultOperations : Prop :=
  ∀ (s : State) (n gd ga : Fin 64),
    let env := fun (f : FxForm) => fxEnvOf s n gd ga f.words 0 0
    let passes := fun (f : FxForm) => FxRuns s n gd ga 0 0 f ∧ fxCheck f false 0 (env f) s = none
    (let e := env fCntcfg
      let k := fld (e.word 1) 11 0
      passes fCntcfg → k < 3072 → cntBad k (e.word 2) = false → FxDoes s (.cntcfg n gd ga) e n gd ga .ok [] 0
        { s with pmu := { s.pmu with cnts := sset {} s.pmu.cnts k { cfg := e.word 2, value := fld (e.word 3) 47 0 } } })
    ∧ (let e := env fCntread
      let q := fld (e.word 1) 19 16
      let k := fld (e.word 1) 11 0
      let seen := ∀ i < q, cntVisible s n (k + i) = true
      passes fCntread → 1 ≤ q → q ≤ 8 → k + q ≤ 3072 →
      (e.p2 = true → ¬ seen → FxDoes s (.cntread n gd ga) e n gd ga .denied [] 0 s)
      ∧ (e.p2 = false ∨ seen → FxDoes s (.cntread n gd ga) e n gd ga .ok
        ((List.range 8).map (fun i => (2 + i, word (if i < q then (cntOf s (k + i)).value else 0)))) 0 s))
    ∧ (let e := env fSamplecfg
      let w := e.word 1
      let k := if bit w 62 then 1 else 0
      let x := smpSrc s k
      passes fSamplecfg → fld w 61 57 ≤ 20 → FxDoes s (.samplecfg n gd ga) e n gd ga .ok [] 0 (smpSrcPut k { x with
        en := bit w 63, rate := fld w 61 57, ring := fld w 56 47, dom := fld w 46 35, domv := bit w 34, port := fld w 33 27
        portv := bit w 26, cores := (e.word 2).toNat, seq := if bit w 63 then 0 else x.seq } s))
    ∧ (let e := env fResultAck
      let x := slotOf s e.slot
      let does := fun (st : Status) (t : State) => FxDoes s (.resultputAck n gd ga) e n gd ga st [] 0 t
      passes fResultAck → (x.st = 2 → does .ok (slotPut e.slot { x with st := 0 } s)) ∧ (x.st = 1 → does .notReady s) ∧ (x.st = 0 → does .conflict s))
    ∧ (let e := env fResultPost
      let x := slotOf s e.slot
      passes fResultPost →
      (Status.ofCode (fld (e.word 1) 7 0) = none → FxDoes s (.resultputPost n gd ga) e n gd ga .invalid [] 0 s)
      ∧ (∀ st, Status.ofCode (fld (e.word 1) 7 0) = some st →
        (x.st ≠ 0 → FxDoes s (.resultputPost n gd ga) e n gd ga .busy [] 0 s)
        ∧ (x.st = 0 → FxDoes s (.resultputPost n gd ga) e n gd ga .ok [] 0 (slotPut e.slot { x with
          st := 2, core := n, op := 0x38, status := st, echo := e.word 1, detail := 0, time := s.time
          data := [e.word 2, e.word 3, e.word 4, e.word 5] } s))))

/-- R307, R493, R537, R538 and R540: the stored settings. STAGE copies bytes into the staging image, DISCARD makes it the active copy's again, COMMIT
checks the image and starts to write the alternate copy: nothing of the active copy changes until the trailer block has been read back right,
which makes the alternate copy active, valid and one generation newer, and posts ST_OK; every block written wears by one cycle; a block read
back wrong ends the commit, posts ST_FAULTED and raises NVM_WRITE_FAIL; NVSTAT answers the state, the copy and the wear. A failed
history record is tried once more. -/
def Obligations.SettingsOperations : Prop :=
  ∀ (s : State) (n gd ga : Fin 64),
    let env := fun (f : FxForm) => fxEnvOf s n gd ga f.words 0 0
    let passes := fun (f : FxForm) => FxRuns s n gd ga 0 0 f ∧ fxCheck f false 0 (env f) s = none
    let other := !s.pwr.activeB
    (let e := env fStage
      let src := fld (e.word 1) 47 0
      let len := fld (e.word 2) 16 0
      passes fStage → stageBad e = false →
      (s.pwr.commit.isSome = true → FxDoes s (.nvstoreStage n gd ga) e n gd ga .busy [] 0 s)
      ∧ (s.pwr.commit = none → (inLocalData src len = true ∨ dasCheck s src len e.lv .r = none) → FxDoes s (.nvstoreStage n gd ga) e n gd ga .ok [] 0
        { s with pwr := { s.pwr with
          staging := memWrite s.pwr.staging (fld (e.word 2) 51 32) (memRead s.flg.mem ((memAddr n src).getD 0) len) } }))
    ∧ (let e := env fDiscard
      passes fDiscard →
      (s.pwr.commit.isSome = true → FxDoes s (.nvstoreDiscard n gd ga) e n gd ga .busy [] 0 s)
      ∧ (s.pwr.commit = none → FxDoes s (.nvstoreDiscard n gd ga) e n gd ga .ok [] 0 { s with pwr := { s.pwr with staging := activeImg s } }))
    ∧ (let e := env fCommit
      passes fCommit →
      (s.pwr.commit.isSome = true → FxDoes s (.nvstoreCommit n gd ga) e n gd ga .busy [] 0 s)
      ∧ (s.pwr.commit = none → staged s = false → FxDoes s (.nvstoreCommit n gd ga) e n gd ga .conflict [] 0 s)
      ∧ (s.pwr.commit = none → staged s = true → ∃ t, FxDoes s (.nvstoreCommit n gd ga) e n gd ga .ok [] 0 t
        ∧ t.pwr.copyA = s.pwr.copyA ∧ t.pwr.copyB = s.pwr.copyB ∧ t.pwr.activeB = s.pwr.activeB ∧ t.pwr.staging = s.pwr.staging
        ∧ (imageOk s.pwr.staging = false ∨ pathsOk s.pwr.staging = false → t.pwr.commit = none ∧ (slotOf t e.slot).status = .invalid)
        ∧ (t.pwr.commit.isSome = true ↔ (slotOf t e.slot).st = 1)))
    ∧ (let e := env fNvstat
      let g := if s.pwr.commit.isSome then 2 else b2n (staged s)
      passes fNvstat → FxDoes s (.nvstat n gd ga) e n gd ga .ok
        [(1, word (g * 2 ^ 62 + b2n s.pwr.activeB * 2 ^ 61 + s.pwr.commits % 2 ^ 32)), (2, word (wearMax s true % 2 ^ 32 * 2 ^ 32 + wearMax s false % 2 ^ 32))] 0 s)
    ∧ (∀ hist ok : Bool,
      (hist = true → ok = true → exec (.nvmBlockWriteDone hist ok) s = .next (done s))
      ∧ (hist = true → ok = false → s.flt.recno ≠ 0 → s.pwr.histTry = 0 →
        exec (.nvmBlockWriteDone hist ok) s = .next (done { s with pwr := { s.pwr with histTry := 1 } }))
      ∧ (hist = false → s.pwr.writing = false → exec (.nvmBlockWriteDone hist ok) s = .next (done s))
      ∧ (∀ c, hist = false → s.pwr.writing = true → s.pwr.resetReq = 0 → s.pwr.commit = some c → c.slot < 4096 → (slotOf s c.slot).st = 1 →
        let k := (if other then 256 else 0) + c.blocks.headD 255
        ∃ t, exec (.nvmBlockWriteDone hist ok) s = .next (done t) ∧ wearOf t k = wearOf s k + 1
          ∧ setCopy t s.pwr.activeB = setCopy s s.pwr.activeB
          ∧ (ok = false → t.pwr.commit = none ∧ t.pwr.writing = false ∧ (setCopy t other).ok = false ∧ t.pwr.activeB = s.pwr.activeB
            ∧ (slotOf t c.slot).st = 2 ∧ (slotOf t c.slot).status = .faulted ∧ (fltOf t fNvmWriteFail).latch = true)
          ∧ (ok = true → c.blocks ≠ [] → t.pwr.commit = some { c with blocks := c.blocks.tail } ∧ t.pwr.activeB = s.pwr.activeB
            ∧ (setCopy t other).ok = false ∧ (slotOf t c.slot).st = 1)
          ∧ (ok = true → c.blocks = [] → c.live = false → t.pwr.commit = none ∧ t.pwr.activeB = other ∧ (setCopy t other).ok = true
            ∧ (setCopy t other).gen = (setCopy s s.pwr.activeB).gen + 1 ∧ t.pwr.commits = s.pwr.commits + 1
            ∧ (slotOf t c.slot).st = 2 ∧ (slotOf t c.slot).status = .ok)))

/-- R281, R283 and R249: the checks that every fabric operation makes before its own. An FX instruction whose descriptor is not aligned to 8 bytes or
begins outside the local data memory answers ST_INVALID in gd and changes nothing else; one with a wrong number of WORDS, a nonzero reserved bit or a
nonzero unused SLOT answers ST_INVALID, with DONE 0; an operation that is not open at P2 is refused there, ST_INVALID where a field is
reserved and otherwise ST_DENIED. Of a descriptor with an uncorrectable error gd alone is written (log entry 73, DEDUCED). -/
def Obligations.FabricOperationRefusals : Prop :=
  ∀ (s : State) (n gd ga : Fin 64),
    let rows : List (Instr × FxForm) := [
      (.gatesetWrite n gd ga, gateForm 1), (.gatesetStage n gd ga, gateForm 2), (.gatesetInsert n gd ga, gateForm 3), (.gatesetSwap n gd ga, gateForm 4)
      , (.gatesetPin n gd ga, gateForm 5), (.gateclrUnlink n gd ga, gateclrForm 1), (.gateclrFree n gd ga, gateclrForm 2)
      , (.bindCreate n gd ga, fBindCreate), (.bindQuiesce n gd ga, fBindQuiesce), (.bindResume n gd ga, fBindResume), (.bindRetire n gd ga, fBindRetire)
      , (.bindVppb n gd ga 0, fBindVppb), (.bindPooldev n gd ga 0 0, fBindPooldev), (.bindEvacuate n gd ga, fBindEvacuate)
      , (.bindConstraint n gd ga, fBindConstraint), (.bindWall n gd ga, fBindWall), (.unbindVppb n gd ga, fUnbindVppb)
      , (.unbindPooldev n gd ga, fUnbindPooldev), (.winset n gd ga, fWinset), (.winclr n gd ga, fWinclr), (.pmapsetExtend n gd ga, fExtend)
      , (.pmapsetRelease n gd ga, fRelease), (.pmapsetPin n gd ga, fPin), (.pmapgetEntry n gd ga, fEntry), (.pmapgetLegs n gd ga, fLegs)
      , (.moveStart n gd ga, fStart), (.moveCancel n gd ga, fCancel), (.movestat n gd ga, fMovestat), (.heatRead n gd ga, fHeatRead)
      , (.heatSet n gd ga, fHeatSet), (.sfquery n gd ga, fSfquery), (.lineflush n gd ga, fLineflush), (.meld n gd ga, fMeld)
      , (.mirrorSet n gd ga, fMirrorSet), (.mirrorClear n gd ga, fMirrorClear), (.qossetProfile n gd ga, fQosProfile)
      , (.qossetDomain n gd ga, fQosDomain), (.qossetPortq n gd ga, fQosPortq), (.qossetAlpha n gd ga, fQosAlpha), (.qossetReserve n gd ga, fQosReserve)
      , (.portctlDisable n gd ga, fPortDisable), (.portctlEnable n gd ga, fPortEnable), (.portctlRetrain n gd ga, fPortRetrain)
      , (.portctlPace n gd ga, fPortPace), (.nvstoreStage n gd ga, fStage), (.nvstoreCommit n gd ga, fCommit), (.nvstoreDiscard n gd ga, fDiscard)
      , (.nvstat n gd ga, fNvstat), (.cntcfg n gd ga, fCntcfg), (.cntread n gd ga, fCntread), (.samplecfg n gd ga, fSamplecfg)
      , (.resultputAck n gd ga, fResultAck), (.resultputPost n gd ga, fResultPost)]
    ∀ p ∈ rows,
      let a := (gReg (coreOf s n) ga).toNat
      let e := fxEnvOf s n gd ga p.2.words 0 0
      let does := fun (st : Status) => FxDoes s p.1 e n gd ga st [] 0 s
      (CoreRuns s n → (a % 8 ≠ 0 ∨ a < 0x100000 ∨ 0x140000 ≤ a) →
        ∃ u, exec p.1 s = .next (done u) ∧ Retires s n gd (word Status.invalid.code) ((coreOf s n).pc + 4) u)
      ∧ (FxRuns s n gd ga 0 0 p.2 → fxBad p.2 e = true → does .invalid)
      ∧ (FxRuns s n gd ga 0 0 p.2 → (coreOf s n).p2 = true → p.2.atP2 = false → does .invalid ∨ does .denied)

/-- R38, R39, R40, R43, R63, R70, R81 and R142: how a host's CXL.mem request is bound and checked. On a port that is no host port with its link up
nothing arrives. A request that no decoder, then no window claims, that the domain's state or the window's write protection refuses, or that the
Gate refuses, ends there with its count and fault source; one that passes goes to the home slice or the placement stage with the domain
address of its window. Ownership without W permission is served as a shared read (a write of a domain that is being quiesced goes
through where it answers an outstanding snoop: the model's reading, log entry 69, DEDUCED; permissions of MemInv, log entry 28, DEDUCED). -/
def Obligations.HostRequestBinding : Prop :=
  ∀ (s : State) (port tag hpa : Nat) (mv : Meta) (data : Line) (mask : Word) (poison : Bool) (err : Nat),
    let rows : List (Instr × Nat × Op × Meta × Line × Word × Bool × Nat) := [
      (.memrd port tag hpa mv err, 0x01, (match mv with | .s => .rdS | .a => .rdA | _ => .rdI), mv, 0, fullMask, false, err)
      , (.memrddata port tag hpa err, 0x02, .rdS, .s, 0, fullMask, false, err)
      , (.meminv port tag hpa mv err, 0x00, (match mv with | .a => .invA | _ => .clean), mv, 0, fullMask, false, err)
      , (.memwr port tag hpa mv data poison err, 0x11, .wr, mv, data, fullMask, poison, err)
      , (.memwrptl port tag hpa mv data mask poison err, 0x12, .wrPtl, mv, data, mask, poison, err)
      , (.memclnevct port tag hpa, 0x0A, .clean, .i, 0, fullMask, false, 0)]
    ∀ p ∈ rows,
      let op := p.2.2.1
      let ends := fun (t : State) => exec p.1 s = .next (done t)
      (hostPort? s port = none → ends s)
      ∧ ∀ vcs, hostPort? s port = some vcs →
        let x := hostArrive port vcs tag hpa p.2.1 op p.2.2.2.1 p.2.2.2.2.1 p.2.2.2.2.2.1 p.2.2.2.2.2.2.1 s
        let r := x.1
        (decoderOf s vcs hpa = none → ends (answer r .refused (raiseP fBindDecodeMiss port (countP 0x1001 port x.2))))
        ∧ ∀ d, decoderOf s vcs hpa = some d →
          let t := countDP (if opWrites op then 0x1011 else 0x1010) d.dom port x.2
          let dom := domOf t d.dom
          (windowFor t d hpa = none → ends (answer r .refused (raiseD fBindWindowMiss d.dom (countD 0x1002 d.dom t))))
          ∧ ∀ w win, windowFor t d hpa = some (w, win) →
            let da := hpa - win.hpa * 2 ^ 28 + win.da * 2 ^ 28
            let r1 := { r with da := da / 64 * 64, win := some w, mode := win.mode }
            let v := smpUpd r.smp (fun y => { y with da := da }) t
            let answers := (dom.st = .active ∨ dom.st = .quiescing) ∧ win.mode = .scoh ∧ opWrites op = true ∧ snoopedNow v (keyOf d.dom r1.da) d.vcs = true
            (domRefuses dom d.vcs = true → ¬ answers → ends (answer r1 .refused (raiseD fBindStateRefuse d.dom (countD 0x1003 d.dom v))))
            ∧ (domRefuses dom d.vcs = false ∨ answers →
              (opWrites op = true → win.wp = true → ends (answer r1 .refused (raiseD fBindWpRefuse d.dom (countD 0x1004 d.dom v))))
              ∧ (opWrites op = false ∨ win.wp = false → p.2.2.2.2.2.2.2 = 0 → homedElse v d.dom = none → cacheHas v d.dom = true →
                let gate := fun (q : Perm) => daVerdict v d.dom (r1.da / 64 * 64) .p3 q false
                ((∀ q ∈ hostPerms op, gate q = .allow) →
                  ∃ q, ends (dispatchReq r1 q) ∧ reqOf q r1.id = some r1 ∧ q.dom = v.dom ∧ q.coh = v.coh ∧ q.dlr = v.dlr)
                ∧ (op = .rdA → gate .r = .allow → gate .w ≠ .allow → ∃ q, ends (dispatchReq { r1 with op := .rdS } q))
                ∧ (∀ b, op ≠ .rdA ∨ gate .r ≠ .allow → (hostPerms op).find? (fun q => decide (gate q ≠ .allow)) = some b →
                  ∃ q, ends (finishReq r1 .denied (gateRefuse (r1.da / 64 * 64) d.dom .p3 false (violKind op) (gate b).slot port 64 q)))))

/-- R22, R23, R43, R54, R81, R142, R174 and R175: what a host receives when its request ends. A read that was refused, in any way, is answered with
MemData of zeros and poison, a write or ownership notice with Cmp, an AtomicOp with Completer Abort; data go out as they are, with their
poison and the MetaValue granted. The answer joins the records of the host's port, at once or when its account has a cell; a lost host receives none. -/
def Obligations.HostAnswers : Prop :=
  ∀ (s : State) (port tag : Nat) (r : Req) (res : Res),
    let sent := fun (t : State) (m : Msg) => ∃ x : OutRec, x.msg = m ∧
      (x ∈ (pqOf t port).q ∨ x ∈ (pqOf t port).parked ∨ ∃ w ∈ t.erg.waits, w.port = port ∧ w.out = x)
    let granted := if r.mode = .scoh then grantMeta r.op else .noOp
    let read := r.op = .rdS ∨ r.op = .rdA ∨ r.op = .rdI
    let t := answerHost port tag r res s
    let u := answerAtomic port tag r res s
    (hostGone s port = true → t.erg = s.erg ∧ u.erg = s.erg)
    ∧ (hostGone s port = false →
      (∀ l p, res = .data l p → sent t (.memData tag granted l p))
      ∧ (res = .done → sent t (.cmp tag (r.op == .invA)))
      ∧ (res = .refused ∨ res = .denied ∨ (∃ st, res = .status st) → (read → sent t (.memData tag granted 0 true)) ∧ (¬ read → sent t (.cmp tag false)))
      ∧ (∀ v p, res = .old v p → sent u (.cplD tag v p))
      ∧ ((∀ v p, res ≠ .old v p) → sent u (.completerAbort tag)))

/-- R21, R24, R83, R87, R95, R100, R140, R142, R150, R378, R380, R393, R402 and R403: what the device does with what arrives on a CXL port. A flit with a
CRC error or out of sequence is asked for again and leaves everything as it was; a duplicate is counted; one in sequence is acknowledged and its
records are admitted as one item, charged to the highest class among them; one whose credits were never backed, or that is malformed, raises the
port's fault. A snoop answer that the snoop allows is taken, another one counts as I with COH_PROTOCOL, a late one is
counted; BIConflict is acknowledged; a pass-through record leaves on the bound port, a PBR flit where its DPID leads or nowhere. -/
def Obligations.FlitsAndSnoopAnswers : Prop :=
  ∀ (s : State) (port : Nat),
    let x := cxpOf s port
    (∀ (seq err : Nat) (tlp : Option Nat) (classes : List Nat),
      let ends := fun (t : State) => exec (.flitReceive port seq err tlp classes) s = .next (done t)
      let y := if err = 4 then { x with viral := satAdd 1023 x.viral 1 } else x
      let ahead := (seq + 1024 - x.rxSeq) % 1024
      let t := emit (.link port 11 (seq % 1024)) (bwAdd port true (if classes.isEmpty then 0 else flitBytes s port)
        (cxpPut port { y with rxSeq := (x.rxSeq + 1) % 1024 } s))
      (isTrlPort s port = true ∨ x.link ≠ 2 → ends s)
      ∧ (isTrlPort s port = false → x.link = 2 →
        (err = 2 → ends (ideFail port s))
        ∧ (err = 1 ∨ err ≠ 2 ∧ 0 < ahead ∧ ahead < 512 → ends (emit (.link port 10 x.rxSeq) s))
        ∧ (err ≠ 1 → err ≠ 2 → ¬ (0 < ahead ∧ ahead < 512) → seq % 1024 ≠ x.rxSeq →
          ends (countP 0xA002 port (cxpPut port { y with dup := satAdd (2 ^ 21 - 1) x.dup 1 } s)))
        ∧ (err ≠ 1 → err ≠ 2 → ¬ (0 < ahead ∧ ahead < 512) → seq % 1024 = x.rxSeq →
          (err = 3 → ends (raiseP (fCxp port 6) port t))
          ∧ (err ≠ 3 → (classes = [] ∨ portRole s port = 4) → ends t)
          ∧ (err ≠ 3 → classes ≠ [] → portRole s port ≠ 4 →
            ((∃ c ∈ classes, 6 < c) ∨ creditsHeld t port tlp classes = false → ends (raiseP (fCxp port 6) port t))
            ∧ ((∀ c ∈ classes, c ≤ 6) → creditsHeld t port tlp classes = true → ends (idleExit 0x1FFF (admitRec port tlp classes t))
              ∧ ∃ k : Item, (admitRec port tlp classes t).erg.items = t.erg.items ++ [k] ∧ k.port = port ∧ k.refs = classes.length
                ∧ k.acct = acctKey port (classes.foldl max 0) ∧ k.cells = (match tlp with | some n => (64 + n + 255) / 256 | none => 1))))))
    ∧ (∀ hpa : Nat,
      (hostPort? s port = none → exec (.memspecrd port hpa) s = .next (done s))
      ∧ (∀ vcs, hostPort? s port = some vcs → exec (.memspecrd port hpa) s = .next (done (releaseItem (takeItem port s).1
        (mirrorPort port 1 (takeItem port s).1 3 0 0xFFFF 16 hpa (takeItem port s).2.2)))))
    ∧ (∀ id : Nat, ∀ p ∈ ([(.birspi port id, .i), (.birsps port id, .s), (.birspe port id, .e)] : List (Instr × Ans)),
      (hostPort? s port = none → exec p.1 s = .next (done s))
      ∧ ∀ vcs, hostPort? s port = some vcs →
        let t := consume port s
        (snpFor t vcs id = none → exec p.1 s = .next (done (countN 0x3008 none none 1 { t with coh := { t.coh with late := satAdd (2 ^ 48 - 1) t.coh.late 1 } })))
        ∧ ∀ q k, snpFor t vcs id = some (q, k) →
          let legal := (k.k = .inv → p.2 = .i) ∧ (k.k = .data → p.2 ≠ .e)
          let put := fun (a : Ans) (v : State) => txnCheck q.req (txnPut { q with snoops := q.snoops.map (fun z => if z.id = k.id then { z with ans := some a } else z) } v)
          (legal → exec p.1 s = .next (done (put p.2 t))) ∧ (¬ legal → exec p.1 s = .next (done (put .i (raiseP fCohProtocol port t)))))
    ∧ (∀ id : Nat,
      let i := takeItem port s
      let ack := fun (c d : Nat) => exec (.biconflict port id) s = .next (done (releaseItem i.1 (sendResp port c d 16 i.2.1 0 false 0 (.biConflictAck id) i.2.2)))
      (hostPort? s port = none → exec (.biconflict port id) s = .next (done s))
      ∧ ∀ vcs, hostPort? s port = some vcs →
        (∀ q k, snpFor i.2.2 vcs id = some (q, k) → ack (domClass i.2.2 port (keyDom q.key)) (keyDom q.key))
        ∧ (snpFor i.2.2 vcs id = none → ack (3 + (sget {} i.2.2.erg.pqos port).rxclass) 0xFFFF))
    ∧ (∀ (vppb id len cls : Nat) (isReq : Bool),
      let ends := fun (t : State) => exec (.passthroughForward port vppb id len cls isReq) s = .next (done t)
      (∀ vcs t p, hostPort? s port = some vcs → sget none s.dom.vppb (vcs * 256 + vppb) = some t → passPort t = some p →
        ends (forward port p id len cls isReq (.passthrough id len) s))
      ∧ (∀ vcs, hostPort? s port = some vcs → (∀ t, sget none s.dom.vppb (vcs * 256 + vppb) = some t → passPort t = none) → ends s)
      ∧ (∀ v p, hostPort? s port = none → portRole s port = 2 → linkUp s port = true → passVppb s port = some v → portOfVcs? s v.1 = some p →
        ends (forward port p id len cls isReq (.passthrough id len) s))
      ∧ (hostPort? s port = none → (portRole s port ≠ 2 ∨ linkUp s port = false ∨ passVppb s port = none) → ends s))
    ∧ (∀ (dpid id len : Nat) (ioReq isReq : Bool),
      let ends := fun (t : State) => exec (.pbrFlit port dpid id len ioReq isReq) s = .next (done t)
      let i := takeItem port s
      let t := { i.2.2 with cxp := { i.2.2.cxp with noroute := satAdd (2 ^ 48 - 1) i.2.2.cxp.noroute 1 } }
      (isTrlPort s port = true ∨ portRole s port ≠ 3 ∨ linkUp s port = false ∨ regFld s aCxpPbr 63 63 = 0 → ends s)
      ∧ (isTrlPort s port = false → portRole s port = 3 → linkUp s port = true → regFld s aCxpPbr 63 63 ≠ 0 →
        (∀ p, pbrPort s dpid = some p → ends (forward port p id len 3 isReq (.pbr dpid len) s))
        ∧ (pbrPort s dpid = none → ends (releaseItem i.1 (if ioReq then
          sendResp port (3 + (sget {} t.erg.pqos port).rxclass) 0xFFFF 16 i.2.1 0 false 0 (.unsupported id) t else t)))))
    ∧ (∀ list : Nat,
      (cacheHas s list = true ∨ dasList < list → exec (.gateCacheFill list) s = .next (done s))
      ∧ (cacheHas s list = false → list ≤ dasList →
        exec (.gateCacheFill list) s = .next (done (((cacheLoad list s).reqs.filter (fun r => decide (r.phase = .gateFill) && (r.dom == list))).foldl
          (fun t r => gateStage r t) (cacheLoad list s)))))

/-- R23, R58, R164, R167 to R169, R173 to R175, R387, R496 and R561: completions of pool devices and atomics of hosts. A completion that no request
waits for is late and only counted; MemData gives the request its data, poison raising POOL_POISON; the last Cmp of a write completes it; an error answer
is read from the other leg, or gives poison. An AtomicOp takes its operation from its type and window and its target from MELD_ATOM_BASE: it
is malformed where its width or alignment is illegal, refused where no enabled aperture, window, write permission or ACTIVE domain serves it, and
else goes to the Gate or the line's home. A waiting atomic takes a freed tracker; a far one that the home never answers ends with ST_TIMEOUT. -/
def Obligations.CompletionsAndAtomics : Prop :=
  ∀ (s : State) (port : Nat),
    (∀ tag : Nat,
      let t := consume port s
      let stop := cxpPut port { cxpOf t port with timers := (cxpOf t port).timers.filter (fun x => !(x.1 == tag)) } t
      let late := cxpPut port { cxpOf t port with late := satAdd (2 ^ 21 - 1) (cxpOf t port).late 1 } t
      let fault := fun (v : State) => raiseP (fCxp port 6) port v
      (∀ (data : Line) (poison : Bool),
        let ends := fun (v : State) => exec (.poolMemdata port tag data poison) s = .next (done v)
        (legOf t port tag = none → ends late)
        ∧ ∀ r l, legOf t port tag = some (r, l) →
          (l.rd = false → ends (fault (legCmp r l stop)))
          ∧ (l.rd = true → ends (gotData (legDone r l) data poison (reqPut (legDone r l) (if poison then raiseD fPoolPoison r.dom stop else stop)))))
      ∧ (let ends := fun (v : State) => exec (.poolCmp port tag) s = .next (done v)
        (legOf t port tag = none → ends late)
        ∧ ∀ r l, legOf t port tag = some (r, l) → (l.rd = true → ends t) ∧ (l.rd = false → ends (legCmp r l stop)))
      ∧ (let ends := fun (v : State) => exec (.poolErrorResponse port tag) s = .next (done v)
        let v := fault stop
        (legOf t port tag = none → ends late)
        ∧ ∀ r l, legOf t port tag = some (r, l) →
          let other := (locsOf (mapOf v (idxOf v r.dom r.da))).find? (fun x => !(x.1 == l.dev) && !(x.1 == 255) && !(devLost v x.1))
          (l.rd = false → ends (legCmp r l v))
          ∧ (∀ x, l.rd = true → other = some x → ends (readFrom (legDone r l) x (reqPut (legDone r l) v)))
          ∧ (l.rd = true → other = none → ends (gotData (legDone r l) 0 true (reqPut (legDone r l) (raiseD fPoolPoison r.dom v))))))
    ∧ (∀ (vppb tag off : Nat) (w : MeldW) (a b : Nat), ∀ p ∈ ([(.atomicopFetchadd port vppb tag off w a, 0, 0), (.atomicopSwap port vppb tag off w a, 1, 0)
        , (.atomicopCas port vppb tag off w a b, 2, b)] : List (Instr × Nat × Nat)),
      let ends := fun (t : State) => exec p.1 s = .next (done t)
      (hostPort? s port = none → ends s)
      ∧ ∀ vcs, hostPort? s port = some vcs →
        (kmdAt s vcs vppb = none → ends s)
        ∧ ∀ dom, kmdAt s vcs vppb = some dom →
          let win := off / 2 ^ 35 % 8
          let op := if p.2.1 = 0 then fetchOp win else if p.2.1 = 1 then .swap else .cas
          let base := sget (0, false) s.meld.base (vcs * 4096 + dom)
          let da := base.1 * 2 ^ 35 + off % 2 ^ 35
          let x := atomicEnters port vcs dom tag p.2.1 off w a p.2.2 s
          let r := x.1
          let t := x.2
          let bad := meldLegal op w = false ∨ da % w.bytes ≠ 0
          let served := p.2.1 = 0 ∨ win = 0
          let miss := answer r .refused (raiseD fBindWindowMiss dom (countD 0x1002 dom t))
          (r.op = .atomic op w (da % 64) a p.2.2 ∧ r.dom = dom ∧ r.da = da / 64 * 64)
          ∧ (bad → ∃ v, ends (releaseItem r.item (sendResp port (domClass v port dom) dom 16 r.acct 0 false r.smp (.malformed tag) v)) ∧ reqOf v r.id = none)
          ∧ (¬ bad → (¬ served ∨ base.2 = false ∨ winForDa t vcs dom da = none) → ends miss)
          ∧ (∀ k y, ¬ bad → served → base.2 = true → winForDa t vcs dom da = some (k, y) →
            (y.wp = true → ends (answer r .refused (raiseD fBindWpRefuse dom (countD 0x1004 dom t))))
            ∧ (y.wp = false → domRefuses (domOf t dom) vcs = true → ends (answer r .refused (raiseD fBindStateRefuse dom (countD 0x1003 dom t))))
            ∧ (y.wp = false → domRefuses (domOf t dom) vcs = false →
              let r1 := { r with win := some k, mode := y.mode }
              let v := mirrorFlow port 1 r.item (domClass t port dom) 6 dom (16 + w.bytes) da (reqPut r1 t)
              ends (if (homedElse v dom).isSome then enterHome r1 v else gateEnter r1 v))))
    ∧ (∀ unit : Nat,
      let next := s.reqs.find? (fun r => decide (r.phase = .meldTracker) && (sliceOf (keyOf r.dom r.da) == unit))
      (next = none → exec (.meldTrackerResume unit) s = .next (done s))
      ∧ (∀ r, next = some r → exec (.meldTrackerResume unit) s = .next (done (if meldRoom s (keyOf r.dom r.da) then
        enterMeld { r with phase := .lineQueue } (reqPut { r with phase := .lineQueue } s) else s))))
    ∧ (∀ tag : Nat,
      ((∀ f ∈ s.meld.far, f.tag ≠ tag) → exec (.meldFarTimeout tag) s = .next (done s))
      ∧ (∀ f r, s.meld.far.find? (fun f => f.tag == tag) = some f →
        let t := advanceTo (f.time + regFld s aCohCfg 51 40 * 1000) { s with meld := { s.meld with
          far := s.meld.far.filter (fun x => !(x.tag == tag)), farTo := satAdd (2 ^ 48 - 1) s.meld.farTo 1 } }
        reqOf t f.req = some r →
        exec (.meldFarTimeout tag) s = .next (done (finishReq r (.status .timeout) (raiseD fMeldFarTimeout r.dom (countD 0x4006 r.dom t))))))

/-- R128, R132, R135 to R139, R147, R150, R151 and R158: what a home slice does by itself. When a line has no transaction the slice opens the
waiting request whose position comes first from RR on, the oldest of that position, and RR moves past it; a request that waited for
a tracker or an entry tries again; an expired hold mark lets the requests that waited for it go on; a dirty victim whose write is complete
leaves the line cache; an unanswered snoop raises COH_BISNP_TIMEOUT and is recorded. Sharer entries never forget an agent: one more sharer
keeps every earlier one (the order of pointers is the model's choice, log entry 72, DESIGN CHOICE), and a full set of pointers turns into groups. -/
def Obligations.HomeSliceEvents : Prop :=
  ∀ (s : State),
    (∀ dom da : Nat,
      let k := keyOf dom da
      let ends := fun (t : State) => exec (.lineQueueGrant dom da) s = .next (done t)
      let w := lineWaiters s k
      let dist := fun (r : Req) => (linePos r + 97 - sget 0 s.coh.rr (sliceOf k) % 97) % 97
      (txnOn s k = true ∨ w = [] → ends s)
      ∧ (∀ r, txnOn s k = false → (∀ x ∈ w, dist r ≤ dist x) → w.find? (fun x => linePos x == linePos r) = some r →
        ends (tryOpen r (smpGo r.smp { s with coh := { s.coh with rr := sset 0 s.coh.rr (sliceOf k) ((linePos r + 1) % 97) } }))))
    ∧ (∀ slice : Nat,
      let ends := fun (t : State) => exec (.trackerFreeResume slice) s = .next (done t)
      let next := s.reqs.find? (fun r => decide (r.phase = .trackerWait) && (sliceOf (keyOf r.dom r.da) == slice))
      (next = none → ends s)
      ∧ (∀ r, next = some r →
        (isWriteBack s r = true → ends (wbPlace r s))
        ∧ (isWriteBack s r = false → txnOn s (keyOf r.dom r.da) = true → ends (reqPut { r with phase := .lineQueue } s))
        ∧ (isWriteBack s r = false → txnOn s (keyOf r.dom r.da) = false → ends (tryOpen r s))))
    ∧ (∀ dom da : Nat,
      let k := keyOf dom da
      let mark := s.coh.holds.find? (fun h => (h.key == k) && !(h.til == 0))
      (mark = none → exec (.holdExpire dom da) s = .next (done s))
      ∧ (∀ h, mark = some h →
        exec (.holdExpire dom da) s = .next (done (holdWaiters (sliceOf k) (holdRelease k h.agent (holdEnd k h.agent (advanceTo h.til s)))))
        ∧ holdActive (holdEnd k h.agent (advanceTo h.til s)) k h.agent = false))
    ∧ (∀ dom da : Nat,
      let k := keyOf dom da
      let wrote := s.reqs.find? (fun r => decide (r.phase = .wbDone) && (keyOf r.dom r.da == k))
      (wrote = none → exec (.lcEvictComplete dom da) s = .next (done s))
      ∧ (∀ r l, wrote = some r → lcOf s k = some l →
        let t := reqDel r.id s
        exec (.lcEvictComplete dom da) s = .next (done (wallStep (wayWaiters k (if l.wb then lcDel k t else t))))))
    ∧ (∀ id : Nat, ∀ p ∈ ([(.bisnpTimeout id, false, regFld s aCohCfg 39 30), (.hsnpTimeout id, true, regFld s aCohCfg 51 40)] : List (Instr × Bool × Nat)),
      let open_ := s.coh.txns.findSome? (fun t =>
        (t.snoops.find? (fun x => (x.id == id) && x.isOpen && !(x.time == 0) && ((64 ≤ x.agent : Bool) == p.2.1))).map (fun x => (t, x)))
      (open_ = none → exec p.1 s = .next (done s))
      ∧ (∀ t x, open_ = some (t, x) →
        let v := advanceTo (x.time - 1 + p.2.2 * 1000) s
        exec p.1 s = .next (done (raiseD fCohBisnpTimeout (keyDom t.key) { v with coh := { v.coh with
          toLast := (true, b2n p.2.1, x.agent, keyDom t.key, t.key % 2 ^ 40, v.time) } }))))
    ∧ (∀ (e : SfEntry) (a b : Nat), a < 80 → b < 80 → (∀ x ∈ e.agents, x < 80) → e.agents.length ≤ 3 →
      a ∈ holders (addSharer e a) ∧ (b ∈ holders e → b ∈ holders (addSharer e a))
      ∧ (e.grp = false → a ∉ e.agents → e.agents.length = 3 → (addSharer e a).grp = true))

/-- R155 to R159, R176, R178, R181, R422 and R427 to R429: the messages between switches. On a port whose link carries no frames nothing
arrives. At the home, a request of a remote switch goes to the Gate as a request of that switch, or is refused where the domain is not
ACTIVE; a returned lease is written back; a snoop answer that its snoop allows is taken, with its data, another one counts as I with
COH_PROTOCOL, a late one is counted. Elsewhere, a grant, a completion or the result of a far atomic ends the request that asked, or
refuses it; a snoop of the home is served at the line. HEARTBEATs keep a switch present, a changed INCARN or silence makes it lost;
a message for another switch goes on its way with HOPS one higher, or is discarded and counted. -/
def Obligations.InterSwitchMessages : Prop :=
  ∀ (s : State) (tile : Nat),
    let run := fun (i : Instr) (f : State → State) =>
      (takeMsg tile s = none → exec i s = .next (done s)) ∧ ∀ t, takeMsg tile s = some t → exec i s = .next (done (f t))
    (∀ (sw dom line tag : Nat) (notrack poison : Bool) (data : Line) (mask : Word) (o : MeldOp) (w : MeldW) (off a b : Nat),
      ∀ p ∈ ([(.hreqS tile sw dom line tag, .rdS, false, 0, fullMask, false), (.hreqX tile sw dom line tag, .rdA, false, 0, fullMask, false)
        , (.hreqCur tile sw dom line tag notrack, .rdI, notrack, 0, fullMask, false)
        , (.hreqWr tile sw dom line tag notrack data mask poison, if mask = fullMask then .wr else .wrPtl, notrack, data, mask, poison)] ++
        (if meldLegal o w = true ∧ off % w.bytes = 0 ∧ off < 64 then
          [(.hmeld tile sw dom line tag o.code w.code off notrack a b, .atomic o w off a b, notrack, 0, fullMask, false)] else []) :
        List (Instr × Op × Bool × Line × Word × Bool)),
      run p.1 (fun t =>
        let r : Req := { mkReq t.next (.remote sw tag) p.2.1 dom (line % 2 ^ 40 * 64) (if p.2.2.1 then .priv else .scoh) with
          data := p.2.2.2.1, mask := p.2.2.2.2.1, poison := p.2.2.2.2.2, time := t.time }
        let u := reqAdd r (takeNext t)
        if (homedElse s dom).isSome then reqDel r.id u
        else if (domOf s dom).st ≠ .active then answer r .refused (raiseD fBindStateRefuse dom (countD 0x1003 dom u)) else gateEnter r u))
    ∧ (∀ (sw dom line tag op width off a b : Nat) (notrack : Bool), MeldOp.ofCode op = none ∨ MeldW.ofCode width = none →
      run (.hmeld tile sw dom line tag op width off notrack a b) (trlFault tile 6))
    ∧ (∀ (sw dom line tag kept : Nat) (data : Option Line) (poison : Bool), homedElse s dom = none →
      run (.hwb tile sw dom line tag kept data poison) (fun t =>
        let r : Req := { mkReq t.next (.remote sw tag) (if data.isSome then .wr else .clean) dom (line % 2 ^ 40 * 64) .scoh with
          data := data.getD 0, poison := poison, mv := if kept = 1 then .s else .i, time := t.time }
        if data.isSome then enterHome r (reqAdd r (takeNext t)) else hwbClean r sw (reqAdd r (takeNext t))))
    ∧ (∀ (home dom line tag : Nat), ∀ p ∈ ([(.hsnpInv tile home dom line tag, .inv), (.hsnpData tile home dom line tag, .data)
        , (.hsnpCur tile home dom line tag, .cur)] : List (Instr × Snoop)),
      run p.1 (fun t =>
        let r : Req := { mkReq t.next (.home home tag) (.snoop p.2) dom (line % 2 ^ 40 * 64) .scoh with time := t.time }
        enterHome r (countD 0x300A dom (reqAdd r (takeNext t)))))
    ∧ (∀ (sw dom line tag : Nat) (data : Option Line) (poison : Bool), ∀ p ∈ ([(.hrspI tile sw dom line tag data poison, .i)
        , (.hrspS tile sw dom line tag data poison, .s), (.hrspE tile sw dom line tag data poison, .e)] : List (Instr × Ans)),
      run p.1 (fun t =>
        let k := keyOf dom (line % 2 ^ 40 * 64)
        match t.coh.txns.findSome? (fun q => if q.key = k then
          (q.snoops.find? (fun x => (x.agent == 64 + sw) && (x.id % 65536 == tag) && x.ans.isNone)).map (fun x => (q, x)) else none) with
        | none => lateRsp t
        | some (q, x) =>
          if ¬ ((x.k = .inv → p.2 = .i) ∧ (x.k = .data → p.2 ≠ .e)) then snpAnswer q x .i (raiseP fCohProtocol (4 * tile) t)
          else match data with
            | none => snpAnswer q x p.2 t
            | some d =>
              let u := txnPut { q with snoops := q.snoops.map (fun y => if y.id = x.id then { y with ans := some p.2, data := true } else y) } t
              let r : Req := { mkReq t.next (.gather sw) .wr dom (line % 2 ^ 40 * 64) .scoh with
                data := d, poison := poison, mv := .i, wb := true, phase := .open_, time := t.time }
              wbPlace r (reqAdd r (takeNext u))))
    ∧ (∀ (dom line tag st old qdepth : Nat) (data : Line) (same : Bool), ∀ t, takeMsg tile s = some t →
      (askedFor t dom line tag = none → ∀ i ∈ ([.hgntS tile dom line tag st data, .hgntX tile dom line tag st data, .hcmp tile dom line tag st] : List Instr),
        exec i s = .next (done t))
      ∧ ∀ r, askedFor t dom line tag = some r →
        let refused := finishReq r (if st = 3 then .denied else .refused) t
        let k := keyOf r.dom r.da
        let v := leaseRoom t
        (2 ≤ st → ∀ i ∈ ([.hgntS tile dom line tag st data, .hgntX tile dom line tag st data, .hcmp tile dom line tag st] : List Instr),
          exec i s = .next (done refused))
        ∧ (st < 2 → exec (.hgntS tile dom line tag st data) s = .next (done (hgntS r data (st == 1) t))
          ∧ exec (.hcmp tile dom line tag st) s = .next (done (finishReq r .done (if r.mode = .scoh then sfFree k t else t)))
          ∧ exec (.hgntX tile dom line tag st data) s = .next (done (homeAct r (takeNext { v with coh := { v.coh with leases := sput v.coh.leases k {
            data := data, dirty := false, poison := st == 1, time := v.time, atoms := 0, order := v.next } } }))))
        ∧ (∀ f, t.meld.far.find? (fun f => f.tag == tag) = some f →
          let q := { t with meld := { t.meld with far := t.meld.far.filter (fun x => !(x.req == f.req)) } }
          exec (.hmeldRsp tile dom line tag st old qdepth same) s = .next (done (finishReq r
            (if st = 3 then .denied else if 2 ≤ st then .refused else .old old (st == 1))
            (if regFld q aMeldPredCfg 39 32 ≤ qdepth ∧ same = true then predTrain (predIdx r.dom r.da) true q else q)))))
    ∧ (∀ (dom line tag st old qdepth : Nat) (same : Bool), ∀ t, takeMsg tile s = some t → (∀ f ∈ t.meld.far, f.tag ≠ tag) →
      exec (.hmeldRsp tile dom line tag st old qdepth same) s = .next (done { t with meld := { t.meld with late := satAdd (2 ^ 48 - 1) t.meld.late 1 } }))
    ∧ (∀ sw incarn : Nat, sw < 16 → run (.heartbeat tile sw incarn) (fun t =>
      let p := peerOf t sw
      let u := if p.present = true ∧ p.incarn ≠ incarn then switchLost sw t else t
      peerPut sw { present := true, incarn := incarn, at_ := u.time } u))
    ∧ (exec .heartbeatSend s = .next (done ((List.range 16).foldl (fun t k => if k = s.trl.selfId ∨ bit (trlRoute t k) 63 = false then t
      else toSwitch { op := mHeartbeat, src := 0, dst := k, dom := 0, tag := 0, line := s.trl.incarn % 2 ^ 32 * 256 } false t) s)))
    ∧ (∀ sw : Nat,
      let p := peerOf s sw
      (p.present = false → exec (.switchLost sw) s = .next (done s))
      ∧ (p.present = true → exec (.switchLost sw) s = .next (done (switchLost sw (peerPut sw { p with present := false }
        (advanceTo (p.at_ + regFld s aTrlCfg 63 54 * 1000000) s))))))
    ∧ (∀ (op src dst hops dom tag st line args : Nat) (notrack : Bool) (data : Option Line) (mask : Option Word),
      let m : Inter := { op := op, src := src, dst := dst, hops := hops + 1, dom := dom, tag := tag, st := st, notrack := notrack, line := line
                         data := data, mask := mask, args := args }
      run (.messageForward tile op src dst hops dom tag st line args notrack data mask) (fun t =>
        if dst = s.trl.selfId then t
        else if regFld t aTrlCfg 10 8 < hops + 1 then regPut t aTrlNoRoute (word (satAdd (2 ^ 48 - 1) (regGet t aTrlNoRoute).toNat 1))
        else if fencedTo t dst then { t with trl := { t.trl with fenced := t.trl.fenced ++ [(m, false)] } } else routeMsg m false t))
    ∧ (let x := trlOf s tile
      let waits := x.fence = [] ∨ ∃ f ∈ x.fence, ∃ h ∈ (trlOf s f.1).held, h.seq = f.2
      (waits → exec (.routeFenceEnd tile) s = .next (done s))
      ∧ (¬ waits → exec (.routeFenceEnd tile) s = .next (done (fenceGo (trlPut tile { x with fence := [] } s)))))

/-- R44, R45, R48, R49, R57, R61, R192, R212 and R214: dynamic capacity, scrubs and loss walks. Where the management path serves commands, an Add that
fits makes every offered parcel a ZERO entry with EXT and the domain's TAG, takes the promises and asks the hosts, or with no host to ask gives the
blocks at once (log entry 33, DEDUCED); a host's answer leaves the offer with what it accepted; a release takes blocks of the domain's extents only; the
end of a drain hands the former backing to the scrub; a scrubbed parcel joins the free pool and is metered. A step of a loss walk rewrites each
entry that it visits and that names the lost device, but not one whose move runs, and no other entry of the map. -/
def Obligations.CapacityEvents : Prop :=
  ∀ (s : State) (dom : Nat),
    let d := domOf s dom
    let base := icuEdge 7384 (idleExit 7384 s)
    (∀ first n vcs : Nat, Serving s →
      let blocks := (List.range n).map (fun i => first + i)
      let ends := fun (st : Status) => exec (.initiateDcAdd dom first n vcs) s = .next (done (respond .mgmt st.code [] base))
      let need := 8 * n * promiseOf s dom
      (d.st ≠ .active → ends .denied)
      ∧ (d.st = .active → n = 0 ∨ spanOf d * 128 < first + n ∨ addable s dom blocks = false → ends .invalid)
      ∧ (d.st = .active → n ≠ 0 → first + n ≤ spanOf d * 128 → addable s dom blocks = true →
        (poolFree s < s.dlr.promises + need → ends .noSpace)
        ∧ (s.dlr.promises + need ≤ poolFree s →
          let hosts := if regionOf d (first / 128) = some .priv then (presenters s dom).filter (fun v => v == vcs) else presenters s dom
          ∃ t, exec (.initiateDcAdd dom first n vcs) s = .next (done t)
            ∧ t.out = .resp .mgmt 0 [] :: base.out ∧ t.dlr.promises = s.dlr.promises + need
            ∧ (∀ p, 8 * first ≤ p → p < 8 * (first + n) → mapOf t (mapIdx s dom p) =
              { gen := ((mapOf s (mapIdx s dom p)).gen + 1) % 65536, ext := true, tag := dom })
            ∧ (∀ i, (i < mapIdx s dom (8 * first) ∨ mapIdx s dom (8 * (first + n)) ≤ i) → mapOf t i = mapOf s i)
            ∧ (hosts = [] → (domOf t dom).extents = d.extents ++ blocks ∧ t.dom.offers = s.dom.offers)
            ∧ (hosts ≠ [] → t.dom.doms = s.dom.doms ∧ t.dom.offers = s.dom.offers ++ [{ dom := dom, blocks := blocks, waiting := hosts, accepted := [] }]))))
    ∧ (∀ (vcs : Nat) (accepted : List Nat),
      let offer := s.dom.offers.find? (fun o => (o.dom == dom) && o.waiting.contains vcs)
      (offer = none → exec (.addDcResponse vcs dom accepted) s = .next (done s))
      ∧ (∀ o, offer = some o → ∃ o' t, exec (.addDcResponse vcs dom accepted) s = .next (done t)
        ∧ t = { s with dom := { s.dom with offers := s.dom.offers.map (fun x => if x = o then o' else x) } }
        ∧ o'.dom = o.dom ∧ o'.blocks = o.blocks ∧ (∀ v, v ∈ o'.waiting ↔ v ∈ o.waiting ∧ v ≠ vcs)
        ∧ (∀ b, b ∈ o'.accepted ↔ b ∈ o.accepted ∨ b ∈ accepted ∧ b ∈ o.blocks)))
    ∧ (∀ (vcs : Nat) (blocks : List Nat),
      let bs := blocks.filter (fun b => d.extents.contains b)
      ((presenters s dom).contains vcs = false → exec (.releaseDc vcs dom blocks) s = .next (done s))
      ∧ ((presenters s dom).contains vcs = true → exec (.releaseDc vcs dom blocks) s = .next (done (releaseStart dom bs true s)))
      ∧ (Serving s → exec (.initiateDcRelease dom blocks) s = .next (done (respond .mgmt 0 [] (releaseStart dom bs true
        ((presenters s dom).foldl (fun t v => logPush v dom 4 (.releaseCapacity dom bs) t) base)))))
      ∧ (bs = [] → releaseStart dom bs true s = s)
      ∧ (bs ≠ [] → (∀ k ∈ s.coh.sf, inBlocks dom bs k.1 = false) → releaseStart dom bs true s = (
        let t := domPut dom { d with extents := d.extents.filter (fun b => !(bs.contains b)) } s
        { t with dom := { t.dom with releases := t.dom.releases ++ [{ dom := dom, blocks := bs, backing := [], waits := [], phase := 0, report := true }] } })))
    ∧ (let oldest := s.dom.releases.find? (fun r => (r.dom == dom) && (r.phase == 1))
      (oldest = none → exec (.releaseDrainDone dom) s = .next (done s))
      ∧ (∀ r, oldest = some r →
        (releaseDrained s r = false → exec (.releaseDrainDone dom) s = .next (done s))
        ∧ (releaseDrained s r = true → exec (.releaseDrainDone dom) s = .next (done (scrubAll r.backing { s with dom := { s.dom with
          releases := s.dom.releases.map (fun x => if x = r then { r with phase := 2, waits := [] } else x) } })))))
    ∧ (∀ (p : Nat) (l : List Nat),
      (s.dlr.nearToScrub = p :: l → exec (.scrubParcelDone 255) s = .next (done (meterBytes 0 0x40000 (nearZero p { s with dlr := { s.dlr with
        nearToScrub := l, near := radd s.dlr.near p } }))))
      ∧ (s.dlr.nearToScrub = [] → s.dlr.nearTotal ≤ s.dlr.nearScrub → exec (.scrubParcelDone 255) s = .next (done s))
      ∧ (s.dlr.nearToScrub = [] → s.dlr.nearScrub < s.dlr.nearTotal → exec (.scrubParcelDone 255) s = .next (done (meterBytes 0 0x40000 (nearZero s.dlr.nearScrub
        { s with dlr := { s.dlr with nearScrub := s.dlr.nearScrub + 1
                                     near := if s.oas.retired.contains s.dlr.nearScrub then s.dlr.near else radd s.dlr.near s.dlr.nearScrub } }))))
      ∧ ∀ k, k ≠ 255 →
        let v := devOf s k
        (devLost s k = true → exec (.scrubParcelDone k) s = .next (done s))
        ∧ (devLost s k = false → v.toScrub = p :: l → exec (.scrubParcelDone k) s = .next (done (meterBytes 0 0x40000 (emit (.link v.port 20 p)
          (devPut k { v with toScrub := l, free := radd v.free p } s)))))
        ∧ (devLost s k = false → v.toScrub = [] → v.st = .scrubbing → v.scrubAt + 1 < v.cap → exec (.scrubParcelDone k) s = .next (done
          (meterBytes 0 0x40000 (emit (.link v.port 20 v.scrubAt) (devPut k { v with scrubAt := v.scrubAt + 1, free := radd v.free v.scrubAt } s)))))
        ∧ (devLost s k = false → v.toScrub = [] → v.st = .scrubbing → v.scrubAt + 1 = v.cap → ∃ t, exec (.scrubParcelDone k) s = .next (done t)
          ∧ (devOf t k).st = .active ∧ (devOf t k).free = radd v.free v.scrubAt ∧ ∀ q, v.slot = some q → q < 4096 → (slotOf s q).st = 1 →
            (slotOf t q).st = 2 ∧ (slotOf t q).status = .ok))
    ∧ (∀ dev n : Nat,
      let walk := s.dom.walks.find? (fun w => w.dev == dev)
      (walk = none → exec (.lossWalkStep dev n) s = .next (done s))
      ∧ (∀ w, walk = some w → w.doms = [] → exec (.lossWalkStep dev n) s = .next (done (devPut dev { devOf s dev with st := .absent }
        { s with dom := { s.dom with walks := s.dom.walks.filter (fun w => !(w.dev == dev)) } })))
      ∧ (∀ w l, walk = some w → w.doms = dom :: l → devLost s dev = true → ∃ t, exec (.lossWalkStep dev n) s = .next (done t)
        ∧ ∀ i,
          let rewritten := (∃ p, i = mapIdx s dom p ∧ (p ∈ w.deferred ∨ w.pos ≤ p ∧ p < w.pos + n ∧ p < spanOf d * 1024))
            ∧ (mapOf s i).tag = dom ∧ (mapOf s i).ms = .none
          (∀ e, rewritten → lossEntry s dev (mapOf s i) = some e → mapOf t i = { e with ms := .none, car := 0 })
          ∧ (¬ rewritten ∨ lossEntry s dev (mapOf s i) = none → mapOf t i = mapOf s i)))
    ∧ (∀ (dev : Nat) (e : MapEntry), devLost s dev = true →
      (e.kind = .pool → e.devA = dev → ∃ e', lossEntry s dev e = some e' ∧ e'.kind = .poisoned ∧ e'.tag = e.tag ∧ e'.ext = e.ext)
      ∧ (e.kind = .duplex → e.devA = dev → devLost s e.devB = false → ∃ e', lossEntry s dev e = some e' ∧ e'.kind = .pool ∧ e'.devA = e.devB
        ∧ e'.pA = e.pB ∧ e'.rdup = true ∧ e'.tag = e.tag)
      ∧ (e.kind = .duplex → e.devB = dev → devLost s e.devA = false → ∃ e', lossEntry s dev e = some e' ∧ e'.kind = .pool ∧ e'.devA = e.devA
        ∧ e'.pA = e.pA ∧ e'.rdup = true ∧ e'.tag = e.tag)
      ∧ (e.kind = .duplex → e.devA = dev ∨ e.devB = dev → devLost s e.devA = true → devLost s e.devB = true →
        ∃ e', lossEntry s dev e = some e' ∧ e'.kind = .poisoned ∧ e'.tag = e.tag ∧ e'.ext = e.ext))

/-- R94, R97, R104 to R108, R110, R118 to R123 and R376 to R381: transmission on CXL ports. A port whose link is up, with room to keep the flit for replay,
sends the first of SC0, else of SC1, else of SC2 that it holds the credit and the backing for, else one of the other classes, SC7 last; the record
goes out, its flit joins the replay buffer under the next sequence number, and a finite credit is used up. A parked record joins its queue when the
queue, or a freed sub-queue head, has room for it. A receiver advertises only credits that it has taken cells for. An acknowledgement frees the
flits up to its number, a replay request sends again from its number on, or that flit alone, and the fourth without progress is a pause. The pace
monitor sets level and flag above LIMIT and lets the level fall by one for each quiet millisecond; an error found in the store is counted and located,
poisons the payload or discards the record. (Modulo 1,024 and the fourth replay: log entry 86, PRESUMED.) -/
def Obligations.CxlTransmission : Prop :=
  ∀ (s : State) (port cls n chan seq cycle kind grain w cell rec_ : Nat) (inf sel : Bool), port < 96 →
    let ends := fun (i : Instr) (t : State) => exec i s = .next (done t)
    let x := cxpOf s port
    let q := pqOf s port
    let trl := isTrlPort s port
    let fits := fun (r : OutRec) => withinQueue s 32 r.cls (queueLen q r.cls + recLen r) = true
    (let idle := trl = true ∨ x.link ≠ 2 ∨ replayRoom s port x ≤ x.replay.length
      let ready := fun (y : OutRec) => y ∈ q.q ∧ sendable x y = true
      (idle ∨ (∀ y, ¬ ready y) → ends (.txRecord port) s)
      ∧ (¬ idle → (∃ y, ready y ∧ y.needs = none ∧ y.cls < 3) → portRole s port ≠ 4 → ∃ r t, ends (.txRecord port) t ∧ ready r
        ∧ (∀ y, ready y → y.needs = none → y.cls < 3 → r.cls ≤ y.cls)
        ∧ t.out.head? = some (.tx port r.msg) ∧ (cxpOf t port).replay = x.replay ++ [x.txSeq] ∧ (cxpOf t port).txSeq = (x.txSeq + 1) % 1024
        ∧ ∀ c, c < 7 → sget 0 (cxpOf t port).cred c = sget 0 x.cred c - (if c = r.msg.chan ∧ x.inf.contains c = false then 1 else 0))
      ∧ (¬ idle → portRole s port = 4 → (∃ y, ready y ∧ y.needs = none ∧ y.cls = 7) → ∃ r t, ends (.txRecord port) t ∧ ready r ∧ r.cls = 7
        ∧ t.out.head? = some (.tx port r.msg)))
    ∧ (let j := fun (r : OutRec) (t : State) => pqOf t port = { q with q := q.q ++ [r], parked := q.parked.filter (fun y => !(y.id == r.id)) }
      ((∀ r ∈ q.parked, r.cls ≠ cls) → ends (.parkRelease port cls) s)
      ∧ (∀ r, q.parked.find? (fun y => y.cls == cls) = some r →
        (fits r → headBlocked s q r = false → ∃ t, ends (.parkRelease port cls) t ∧ j r t) ∧ (¬ fits r ∨ headBlocked s q r = true → ends (.parkRelease port cls) s))
      ∧ (let waits := fun (r : OutRec) => 3 ≤ r.cls ∧ r.cls ≤ 6 ∧ (subQueues q).contains (r.cls, r.dom) = false ∧ fits r
        ((∀ r ∈ q.parked, ¬ waits r) ∨ 131072 ≤ headsUsed s → ends (.subqueueHeadFree port) s)
        ∧ (∀ a r b, q.parked = a ++ r :: b → (∀ y ∈ a, ¬ waits y) → waits r → headsUsed s < 131072 → ∃ t, ends (.subqueueHeadFree port) t ∧ j r t)))
    ∧ (let i := Instr.creditAdvertise port cls n
      let k := port * 8 + cls
      (trl = true ∨ 7 ≤ cls ∨ linkUp s port = false → ends i s)
      ∧ (trl = false → cls < 7 → linkUp s port = true →
        (∀ t, takeCells k n s = some t → ends i { t with
          out := .link port 12 (cls * 65536 + n) :: t.out
          erg := { t.erg with backed := sset 0 t.erg.backed k (sget 0 t.erg.backed k + n), crWait := t.erg.crWait.filter (fun y => !(y == k)) } })
        ∧ (takeCells k n s = none → ∃ l, ends i { s with erg := { s.erg with crWait := l } } ∧ ∀ y, y ∈ l ↔ y = k ∨ y ∈ s.erg.crWait)))
    ∧ (let i := Instr.creditReceived port chan n inf
      let bad := trl = true ∨ x.link = 0 ∨ x.link = 4 ∨ 7 ≤ chan
      (bad → ends i s)
      ∧ (¬ bad → inf = true → ∃ l, ends i (cxpPut port { x with inf := l } s) ∧ ∀ y, y ∈ l ↔ y = chan ∨ y ∈ x.inf)
      ∧ (¬ bad → inf = false → sget 0 x.cred chan + n ≤ 65535 → ends i (cxpPut port { x with cred := sset 0 x.cred chan (sget 0 x.cred chan + n) } s))
      ∧ (¬ bad → inf = false → 65535 < sget 0 x.cred chan + n → ends i (raiseP (fCxp port 6) port s)))
    ∧ (∀ a b, x.replay = a ++ seq :: b → seq < 1024 → seq ∉ a →
      ends (.flitAck port seq) (cxpPut port { x with replay := b, replayNum := 0 } s)
      ∧ (trl = false → x.link = 2 →
        let l := if sel then [seq] else seq :: b
        ∃ t, ends (.cxlReplayRequest port seq sel) t ∧ t.out = (l.map (Out.link port 13)).reverse ++ s.out ∧ (cxpOf t port).replay = x.replay
          ∧ (cxpOf t port).replayNum = (x.replayNum + 1) % 4 ∧ (cxpOf t port).link = if x.replayNum + 1 = 4 then 3 else 2))
    ∧ (seq < 1024 → seq ∉ x.replay → ends (.flitAck port seq) (cxpPut port x s) ∧ ends (.cxlReplayRequest port seq sel) s)
    ∧ (x.link ≠ 2 → ends (.cxlReplayRequest port seq sel) s)
    ∧ (let limit := regFld s aPaceCfg 15 0
      let c := s.erg.cyc
      let put := fun (y : Nat × Nat × Nat × Bool) => { s with erg := { s.erg with cyc := y } }
      let level := if cycle ≤ limit then 0 else if cycle ≤ 1600 then 1 else if cycle ≤ 2000 then 2 else 3
      let high := raiseN fErgPaceDegraded (put (max c.1 cycle, cycle, level, true))
      (cycle ≤ limit → ends (.paceWindow cycle) (put (max c.1 cycle, cycle, c.2.2.1, c.2.2.2)))
      ∧ (limit < cycle → cycle ≤ 5000 → ends (.paceWindow cycle) high)
      ∧ (limit < cycle → 5000 < cycle → ends (.paceWindow cycle) (raiseN fErgPaceCritical high))
      ∧ (limit < c.2.1 → ends .paceLevelDecay s)
      ∧ (c.2.1 ≤ limit → ends .paceLevelDecay (put (c.1, c.2.1, c.2.2.1 - 1, if c.2.2.1 ≤ 1 then false else c.2.2.2))))
    ∧ (let i := Instr.ergPatrolScrub kind grain w cell rec_
      let e := s.erg.ecc
      let at_ := (true, (if kind = 1 then 1 else 2), grain % 4, w % 8, cell % 2 ^ 20)
      let big := 2 ^ 32 - 1
      (kind = 0 ∨ 4 ≤ kind → ends i s)
      ∧ (kind = 1 → ends i { s with erg := { s.erg with ecc := (e.1, min big (e.2 + 1)), eccLast := at_ } })
      ∧ (kind = 2 ∨ kind = 3 → ∃ t, ends i (raiseN (if kind = 2 then fErgEccUncorr else fErgEccHdr) t) ∧ t.erg.ecc = (min big (e.1 + 1), e.2) ∧ t.erg.eccLast = at_
        ∧ (∀ p y, y ∈ (pqOf t p).q ∨ y ∈ (pqOf t p).parked → y.id = rec_ → kind = 2 ∧ y.poison = true)
        ∧ (∀ r ∈ t.reqs, r.id = rec_ → kind = 2 ∧ r.poison = true)))

/-- R53, R54, R58, R124, R362, R375, R382 to R392, R395 to R398 and R405: the links of CXL ports. A port trains up where it may and where what it negotiated
fits its role, and is held down otherwise; a host port takes its VCS. A pause stops a link that is up; its end replays what is unacknowledged and
moves the timers on by its length; one too long takes the link down. A link that goes down loses the host or the devices behind it. A CXL.mem
request that times out takes the link down, a CXL.io request that times out or completes answers whoever issued it. As requester the device
refreshes IDE keys in the other key set; a DOE mailbox answers Discovery and CDAT and becomes busy with SPDM; PERST_N and the low-power states
act on the link and on idle lanes. (VCS assignment: log entry 29, DEDUCED. First IDE keys: log entry 51, DEDUCED. Keys are free values, log entry 3, DESIGN CHOICE.) -/
def Obligations.CxlLinksAndPorts : Prop :=
  ∀ (s : State) (port flit rate width vcs dev tag stream fn prot len index mode keep : Nat) (io mem cache pbr : Bool) (data : List Nat), port < 96 →
    let ends := fun (i : Instr) (t : State) => exec i s = .next (done t)
    let x := cxpOf s port
    let trl := isTrlPort s port
    let role := portRole s port
    let put := fun (y : CxpPort) => cxpPut port y s
    let hostFails := fun (t : State) => ∀ v, vcsOf? s port = some v → (∃ p ∈ s.dom.vppb, p.1 / 256 = v ∧ p.2 ≠ none) → s.dom.lostHost.contains port = false →
      port ∈ t.dom.lostHost ∧ ∀ p ∈ t.dom.wins, p.2.valid = true → p.2.vcs = v → p.2.drain = true
    let latched := fun (k : Nat) (t : State) => (fltOf t (fCxp port k)).latch = true
    (let i := Instr.linkUp port flit rate width io mem cache pbr vcs
      let may := trl = false ∧ mayTrain s port = true ∧ x.link ≠ 2 ∧ x.link ≠ 3
      (¬ may → ends i s)
      ∧ (may → modeFits role flit io mem pbr = false → ∃ t, ends i t ∧ (cxpOf t port).link = 4 ∧ latched 0 t
        ∧ ∀ k, x.slot = some k → k < 4096 → (slotOf s k).st = 1 → (slotOf t k).status = .faulted ∧ (slotOf t k).st = 2)
      ∧ (may → modeFits role flit io mem pbr = true → ∃ t, ends i t ∧ (cxpOf t port).link = 2 ∧ (cxpOf t port).flit = flit % 4 ∧ (cxpOf t port).rate = rate % 8
        ∧ (cxpOf t port).width = width % 32 ∧ (cxpOf t port).degraded = decide (x.bootWidth ≠ 0 ∧ width < x.bootWidth) ∧ port ∉ t.dom.lostHost
        ∧ (role = 1 → vcsOf? s port = none → vcs < 64 → portOfVcs? s vcs = none → vcsOf? t port = some vcs)
        ∧ (∀ v, vcsOf? s port = some v → vcsOf? t port = some v)
        ∧ ∀ k, x.slot = some k → k < 4096 → (slotOf s k).st = 1 → (slotOf t k).status = .ok ∧ (slotOf t k).st = 2))
    ∧ (trl = false →
      (x.link = 4 ∨ x.link = 0 → ends (.linkDown port) s)
      ∧ (x.link = 1 ∨ x.link = 2 ∨ x.link = 3 → ∃ t, ends (.linkDown port) t ∧ (cxpOf t port).link = 0 ∧ (cxpOf t port).timers = [] ∧ hostFails t
        ∧ ∀ k, (devOf s k).bound = true → (devOf s k).port = port → devLost s k = false → devLost t k = true)
      ∧ (role = 1 → ∃ t, ends (.hostLost port) t ∧ linkUp t port = false ∧ hostFails t)
      ∧ (role = 1 → ∃ t, ends (.perstAssert port) t ∧ linkUp t port = false ∧ (cxpOf t port).perst = false ∧ hostFails t)
      ∧ (x.link ≠ 2 → ends (.pauseStart port) s)
      ∧ (x.link = 2 → ∃ u, ends (.pauseStart port) u
        ∧ Reported (put { x with link := 3, pausedAt := s.time, pauses := min (2 ^ 32 - 1) (x.pauses + 1) }) u)
      ∧ (x.link = 3 → ∃ t, ends (.pauseLimitExpire port) t ∧ (cxpOf t port).link = 0 ∧ latched 2 t)
      ∧ (x.link = 2 → (∃ y ∈ x.timers, y.1 = tag) → ∃ t, ends (.memCtoExpire port tag) t ∧ (cxpOf t port).link = 0 ∧ latched 3 t
        ∧ (cxpOf t port).cto = min (2 ^ 22 - 1) (x.cto + 1) ∧ ∀ k, (devOf s k).bound = true → (devOf s k).port = port → devLost s k = false → devLost t k = true))
    ∧ (role ≠ 1 → ends (.hostLost port) s ∧ ends (.perstAssert port) s ∧ ends (.perstDeassert port) s)
    ∧ ((devOf s dev).bound = false ∨ devLost s dev = true → ends (.poolDeviceLost dev) s)
    ∧ ((devOf s dev).bound = true → devLost s dev = false → ∃ t, ends (.poolDeviceLost dev) t ∧ devLost t dev = true
      ∧ ∃ y ∈ t.dom.walks, y.dev = dev ∧ y.incident = s.dom.incident + 1)
    ∧ (x.link ≠ 3 → ends (.pauseLimitExpire port) s)
    ∧ (let i := Instr.pauseResume port width rate
      (x.link ≠ 3 ∨ width = 0 ∨ 16 < width → ends i s)
      ∧ (x.link = 3 → 1 ≤ width → width ≤ 16 → ∃ t, ends i t ∧ (cxpOf t port).link = 2 ∧ (cxpOf t port).width = width ∧ (cxpOf t port).rate = rate % 8
        ∧ (cxpOf t port).degraded = decide (width < x.bootWidth) ∧ (cxpOf t port).replay = x.replay ∧ (cxpOf t port).replayNum = 0
        ∧ (cxpOf t port).timers = x.timers.map (fun y => (y.1, y.2 + (s.time - x.pausedAt))) ∧ t.out = (x.replay.map (Out.link port 13)).reverse ++ s.out
        ∧ (width < x.bootWidth → latched 1 t)
        ∧ ∀ k, x.slot = some k → k < 4096 → (slotOf s k).st = 1 → (slotOf t k).st = 2 ∧ (slotOf t k).status = .ok
          ∧ (slotOf t k).detail = word ((match rate with | 0 => 25 | 1 => 50 | 2 => 80 | 3 => 160 | 4 => 320 | _ => 640) * 256 + width)))
    ∧ (x.link ≠ 2 ∨ (∀ y ∈ x.timers, y.1 ≠ tag) → ends (.memCtoExpire port tag) s)
    ∧ (let gone := fun (u : State) (r : IoReq) => { u with cxp := { u.cxp with io := u.cxp.io.filter (fun y => !(y.tag == r.tag)) } }
      let u := consume port s
      ((∀ r ∈ s.cxp.io, r.tag ≠ tag) → ends (.ioCtoExpire tag) s)
      ∧ (∀ r, s.cxp.io.find? (fun y => y.tag == tag) = some r →
        (∀ k, r.who = .mgmt k → ∃ t, ends (.ioCtoExpire tag) t ∧ t.out.head? = some (.resp .mgmt Status.timeout.code []) ∧ ∀ y ∈ t.cxp.io, y.tag ≠ tag)
        ∧ (∀ k, r.who = .slot k → k < 4096 → (slotOf s k).st = 1 → ∃ t, ends (.ioCtoExpire tag) t ∧ (slotOf t k).status = .timeout ∧ (slotOf t k).st = 2
          ∧ ∀ y ∈ t.cxp.io, y.tag ≠ tag)
        ∧ (r.who = .boot → ∃ t, ends (.ioCtoExpire tag) t ∧ ∀ y ∈ t.cxp.io, y.tag ≠ tag))
      ∧ ((∀ r ∈ u.cxp.io, ¬ (r.tag = tag ∧ r.port = port)) → ends (.ioCompletion port tag data)
        (cxpPut port { cxpOf u port with late := min (2 ^ 21 - 1) ((cxpOf u port).late + 1) } u))
      ∧ (∀ r, u.cxp.io.find? (fun y => y.tag == tag && y.port == port) = some r →
        (∀ k, r.who = .mgmt k → ends (.ioCompletion port tag data) { gone u r with out := .resp .mgmt 0 data :: u.out })
        ∧ (∀ k, r.who = .slot k → ends (.ioCompletion port tag data) (slotPost k .ok 0 (gone u r)))
        ∧ (r.who = .boot → ends (.ioCompletion port tag data) (gone u r))))
    ∧ (let i := Instr.ideKeyRefresh port stream
      let may := (role = 2 ∨ (role = 3 ∧ bit (regGet s (aCxpPortCfg port)) 10 = true)) ∧ stream < 2 ∧ x.link = 2
      (¬ may → ends i s)
      ∧ (may → ∃ y, ends i { put y with free := s.free + 2 } ∧ sget 0 y.keySet stream = 1 - sget 0 x.keySet stream
        ∧ y.ideIo = (if stream = 0 then 2 else x.ideIo) ∧ y.ideCm = (if stream = 0 then x.ideCm else 2)
        ∧ (∀ d < 2, sget 0 y.keyCnt (stream * 2 + d) = 0 ∧ sget 0 y.keys (stream * 4 + d * 2 + (1 - sget 0 x.keySet stream)) = (Config.freeWord (s.free + d)).toNat)
        ∧ y.link = x.link ∧ y.cred = x.cred ∧ y.timers = x.timers))
    ∧ (let m := sget {} s.cxp.doe fn
      let i := Instr.doeRequest fn prot len index
      let keepM := fun (y : DoeMb) => { s with cxp := { s.cxp with doe := sset {} s.cxp.doe fn y } }
      let reply := fun (ws : List Nat) =>
        let t := keepM { m with busy := false, ready := true, resp := ws }
        ends i { t with out := .resp (.doe fn) 0 ws :: s.out }
      (m.busy = true → ends i s)
      ∧ (m.busy = false → 4096 < len ∨ 4 ≤ prot ∨ (prot = 3 ∧ fn < 64) → ends i (keepM { m with err := true }))
      ∧ (m.busy = false → len ≤ 4096 → (prot = 0 → reply [index % 4, if index < 3 then index + 1 else 0])
        ∧ (prot = 1 ∨ prot = 2 → ends i (keepM { m with busy := true, ready := false }))
        ∧ (prot = 3 → 64 ≤ fn → ∃ ws, reply ws ∧ (domOf s ((fn - 64) % 4096) = {} → ws = [])))
      ∧ ends (.doeAbort fn) (keepM { m with busy := false, ready := false, err := false, resp := [] }))
    ∧ (let up := { x with perst := true, perstAt := s.time + 1, link := if x.link = 0 ∧ bootTrains s port = true then 1 else x.link }
      let good := match portSpc s port with | some k => (sget {} s.spc k).pg | none => true
      let may := role ≠ 0 ∧ role ≠ 1 ∧ trl = false ∧ x.off = false ∧ s.flt.terminal = false ∧ good = true ∧ (sget {} s.lane.tiles (port / 4)).clkok = true
      (role = 1 → ends (.perstDeassert port) (put up)) ∧ (may → ends (.perstRelease port) (put up)) ∧ (¬ may → ends (.perstRelease port) s))
    ∧ (let w := regGet s (aCxpPortCfg port)
      let may := trl = false ∧ x.link = 2 ∧ x.low = 0 ∧ ((mode = 1 ∧ bit w 12 = true) ∨ (mode = 2 ∧ bit w 13 = true ∧ x.flit = 2))
      let lanes := if mode = 1 then portLanes s port else (portLanes s port).drop keep
      let moved := fun (ls : List Nat) (a b : Nat) (t : State) => ∀ l, laneOf t l = if l ∈ ls ∧ (laneOf s l).st = a then { laneOf s l with st := b } else laneOf s l
      (¬ may → ends (.cxlLowPowerEntry port mode keep) s)
      ∧ (may → ∃ t, ends (.cxlLowPowerEntry port mode keep) t ∧ cxpOf t port = { x with low := mode } ∧ moved lanes 2 3 t)
      ∧ (trl = true ∨ x.low = 0 → ends (.cxlLowPowerExit port) s)
      ∧ (trl = false → x.low ≠ 0 → ∃ t, ends (.cxlLowPowerExit port) t ∧ cxpOf t port = { x with low := 0 } ∧ moved (portLanes s port) 3 2 t))

/-- R353, R354, R357 to R360, R363, R364, R366 to R371, R382 and R420: tiles and lanes. A lost reference clock takes its tile's links down and its lanes
off; its return lets the ports train. The time base holds over without its reference, and slews back. Training leaves each lane active under
its logical number, the highest first where reversed, or FAILED; a TRL half replaces one failed lane by its spare, and more than that is a failed
training. A receiver adapts once in 10 us. The eye monitor keeps what it measures, and in a check passes the lane or adapts it for 1 ms more; a second
miss is reported, pauses a CXL link where LANE_CHK says so, fails a standby spare, and sends step requests for a working TRL lane, after
whose 2 ms the lane is replaced. A TRL lane out of service is replaced at once, by its half's spare or not at all; loss of signal, a third missed
marker, and skew beyond 100 ns in ALIGN are handled as their rules say. -/
def Obligations.TilesAndLanes : Prop :=
  ∀ (s : State) (tile lane port failed inv h w cause left logical mcount flags errs skew : Nat) (rev found : Bool) (utils : List Nat),
    tile < 24 → port < 96 → lane < 432 →
    let ends := fun (i : Instr) (t : State) => exec i s = .next (done t)
    let t0 := lane / 18
    let x := laneOf s lane
    let trl := isTrlTile s t0
    let put := fun (y : LaneS) (u : State) => { u with lane := { u.lane with lanes := sset {} u.lane.lanes lane y } }
    let latched := fun (n k : Nat) (u : State) => (fltOf u (fLane n k)).latch = true
    let passes := regFld s aLaneChk 39 32 ≤ h ∧ regFld s aLaneChk 28 24 ≤ w
    let seen := { x with eyeH := h % 256, eyeW := w % 256 }
    let half := x.logical / 8
    let spare := 18 * t0 + 16 + half
    let none_ := (if half = 0 then (trlOf s t0).spareA else (trlOf s t0).spareB) = none
    let maySpare := x.logical < 16 ∧ none_ ∧ (laneOf s spare).st = 4 ∧ (trlOf s t0).st = 5
    let spares := fun (imm : Bool) (u : State) => (trlOf u t0).ctlq = (trlOf s t0).ctlq ++ [{ op := 1, lane := x.logical, spare := 16 + half, mode := b2n imm }]
      ∧ (if half = 0 then (trlOf u t0).spareA else (trlOf u t0).spareB) = some { rx := true, lane := x.logical, spare := 16 + half, imm := imm }
    ((tileOf s tile).clkok = false → ends (.refclkLoss tile) s)
    ∧ ((tileOf s tile).clkok = true → ∃ u, ends (.refclkLoss tile) u ∧ (tileOf u tile).clkok = false ∧ latched tile 0 u
      ∧ (∀ l, l / 18 = tile → (laneOf u l).st = if (laneOf s l).st = 5 then 5 else 0) ∧ ∀ p, p / 4 = tile → subPortExists s p = true → linkUp u p = false)
    ∧ ((tileOf s tile).clkok = true → ends (.refclkRelock tile) s)
    ∧ ((tileOf s tile).clkok = false → ∃ u, ends (.refclkRelock tile) u ∧ (tileOf u tile).clkok = true
      ∧ (isTrlTile s tile = true → (trlOf s tile).off = false → (trlOf s tile).st = 0 → trainLive s = true → (trlOf u tile).st = 1))
    ∧ (s.lane.holdover = true → ends .timeHoldover s ∧ ends .timeReferenceReturn { s with lane := { s.lane with holdover := false, slewing := true } })
    ∧ (s.lane.holdover = false → ends .timeHoldover (raiseN fLaneHoldover { s with lane := { s.lane with holdover := true, slewing := false } })
      ∧ ends .timeReferenceReturn s)
    ∧ ends .timeSlewEnd { s with lane := { s.lane with slewing := false } }
    ∧ (let i := Instr.laneTrainingDone port failed inv rev
      let bad := fun (l : Nat) => failed / 2 ^ (l % 18) % 2 = 1
      let ls := portLanes s port
      (isTrlPort s port = false → mayTrain s port = false ∨ (cxpOf s port).link = 2 → ends i s)
      ∧ (isTrlPort s port = false → mayTrain s port = true → (cxpOf s port).link ≠ 2 → ∃ u, ends i u
        ∧ (∀ k < ls.length, let l := 18 * (port / 4) + 4 * (port % 4) + k
          (bad l → (laneOf u l).st = 5 ∧ (laneOf u l).logical = 0x1F)
          ∧ (¬ bad l → (laneOf u l).st = 2 ∧ (laneOf u l).logical = (if rev then ls.length - 1 - k else k) ∧ (laneOf u l).fullchk = false
            ∧ (laneOf u l).errs = 0 ∧ ((laneOf u l).polinv = true ↔ inv / 2 ^ (l % 18) % 2 = 1)))
        ∧ ((∃ l ∈ ls, bad l) → latched (port / 4) 1 u))
      ∧ (isTrlPort s port = true → (trlOf s (port / 4)).st ≠ 2 → ends i s)
      ∧ (isTrlPort s port = true → (trlOf s (port / 4)).st = 2 →
        let n := port / 4
        let covers := fun (k : Nat) => ∀ a b, a < 8 → b < 8 → bad (18 * n + 8 * k + a) → bad (18 * n + 8 * k + b) → a = b ∧ ¬ bad (18 * n + 16 + k)
        ∃ u, ends i u ∧ (failed % 2 ^ 18 ≠ 0 → latched n 1 u)
          ∧ (¬ (covers 0 ∧ covers 1) → (trlOf u n).st = 1 ∧ (trlOf u n).fails = (trlOf s n).fails + 1)
          ∧ (covers 0 → covers 1 → (trlOf u n).st = 3
            ∧ ∀ k < 2, ∀ a < 8, let l := 18 * n + 8 * k + a
              (bad l → (laneOf u l).st = 5 ∧ (laneOf u (18 * n + 16 + k)).st = 2 ∧ (laneOf u (18 * n + 16 + k)).logical = 8 * k + a)
              ∧ (¬ bad l → (laneOf u l).st = 2 ∧ (laneOf u l).logical = 8 * k + a))))
    ∧ (x.st = 2 ∨ x.st = 4 →
      (x.adaptAt ≠ 0 → s.time + 1 < x.adaptAt + 10000 → ends (.laneAdaptStep lane) s)
      ∧ (x.adaptAt = 0 ∨ x.adaptAt + 10000 ≤ s.time + 1 → ends (.laneAdaptStep lane) (put { x with adapt := x.adapt + 1, adaptAt := s.time + 1 } s))
      ∧ (x.stage ≠ 1 → ends (.eyeMeasure lane h w) (put seen s))
      ∧ (x.stage = 1 → ∃ u, ends (.eyeMeasure lane h w) u
        ∧ laneOf u lane = if passes then { seen with fullchk := true, stage := 0 } else { seen with stage := 2, adaptAt := s.time + 1 }))
    ∧ (x.st ≠ 2 → x.st ≠ 4 → ends (.laneAdaptStep lane) s ∧ ends (.eyeMeasure lane h w) s)
    ∧ (let u := fun (t : Nat) => min 127 (utils.getD t 0)
      let on := (List.range 24).filter (fun t => bit (tileCfg s t) 63)
      let avg : Nat := (on.map u).sum / max 1 on.length
      let step := regFld s aLaneChk 22 16
      let full := regFld s aLaneChk 14 8
      let avgStep := s.lane.avg ≠ [] ∧ s.lane.avg.foldl min 255 + step ≤ avg
      ∃ v, ends (.utilWindow utils) v ∧ v.lane.avg = (avg :: s.lane.avg).take 10 ∧ ∀ t < 24,
        let y := tileOf s t
        (tileOf v t).util = u t ∧ (tileOf v t).hist = (u t :: y.hist).take 10
        ∧ (bit (tileCfg s t) 63 = false → (tileOf v t).steps = y.steps)
        ∧ (bit (tileCfg s t) 63 = true →
          let found := (y.hist ≠ [] ∧ y.hist.foldl min 255 + step ≤ u t) ∨ avgStep ∨ (full ≤ u t ∧ y.full = false)
          (found → (tileOf v t).steps = min (2 ^ 32 - 1) (y.steps + 1)) ∧ (¬ found → (tileOf v t).steps = y.steps)))
    ∧ (x.stage ≠ 2 → ends (.checkRemeasure lane h w) s)
    ∧ (x.stage = 2 → ∃ u, ends (.checkRemeasure lane h w) u ∧ u.time = max s.time (x.adaptAt - 1 + 1000000)
      ∧ (passes → laneOf u lane = { seen with fullchk := true, stage := 0 })
      ∧ (¬ passes → trl = false → (laneOf u lane).stage = 0 ∧ latched t0 3 u
        ∧ (regFld s aLaneChk 40 40 = 1 → (cxpOf s (4 * t0 + x.sub)).link = 2 → isTrlPort s (4 * t0 + x.sub) = false → (cxpOf u (4 * t0 + x.sub)).link = 3))
      ∧ (¬ passes → trl = true → x.st = 4 → (laneOf u lane).st = 5 ∧ latched t0 3 u)
      ∧ (¬ passes → trl = true → x.st ≠ 4 → (laneOf u lane).stage = 3 ∧ (laneOf u lane).eqSeq = (x.eqSeq + 1) % 8
        ∧ (trlOf u t0).ctlq = (trlOf s t0).ctlq ++ [{ op := 7, lane := x.logical, words := [2 ^ 15 + (x.eqSeq + 1) % 8] }]))
    ∧ (x.stage ≠ 3 → ends (.trlEqStepEnd lane h w) s)
    ∧ (x.stage = 3 → ∃ u, ends (.trlEqStepEnd lane h w) u ∧ u.time = max s.time (x.adaptAt - 1 + 2000000)
      ∧ (passes → laneOf u lane = { seen with fullchk := true, stage := 0 })
      ∧ (¬ passes → latched t0 3 u ∧ (maySpare → spares false u)
        ∧ (x.logical < 16 → none_ → (laneOf s spare).st ≠ 4 → lane ≠ spare → latched t0 6 u ∧ (trlOf u t0).up = false)))
    ∧ (let i := Instr.laneOutOfService lane cause
      let k := if cause = 3 then 3 else 4
      (trl = false → ∃ u, ends i u ∧ u.lane.lanes = s.lane.lanes)
      ∧ (trl = true → x.st ≠ 2 → x.st ≠ 4 → ∃ u, ends i u ∧ u.lane.lanes = s.lane.lanes)
      ∧ (trl = true → x.st = 4 → ∃ u, ends i u ∧ (laneOf u lane).st = 5 ∧ latched t0 k u)
      ∧ (trl = true → x.st = 2 → ∃ u, ends i u ∧ latched t0 k u ∧ (maySpare → spares (decide (cause ≠ 3)) u)
        ∧ (x.logical < 16 → none_ → (laneOf s spare).st ≠ 4 → lane ≠ spare → latched t0 6 u ∧ (trlOf u t0).up = false)))
    ∧ (let i := Instr.lossOfSignal lane left
      let replacing := ∃ q, (if half = 0 then (trlOf s t0).spareA else (trlOf s t0).spareB) = some q ∧ q.rx = true ∧ q.lane = x.logical
      (x.st ≠ 2 → ends i s)
      ∧ (x.st = 2 → trl = true → (replacing → ends i (raiseN (fLane t0 4) s)) ∧ (¬ replacing → ends i (trlLinkDown t0 s)))
      ∧ (x.st = 2 → trl = false → ends i (if left = 0 then portDrop (4 * t0 + x.sub) s else pauseStart (4 * t0 + x.sub) s)))
    ∧ (let i := Instr.alignmentMarker lane found logical mcount flags errs skew
      let on := trl = true ∧ (x.st = 2 ∨ x.st = 4)
      let good := { x with
        missed := 0, mcount := mcount % 65536, good := x.good + 1, errs := min (2 ^ 32 - 1) (x.errs + errs)
        logical := if (trlOf s t0).st = 3 ∧ x.st = 2 ∧ flags % 2 = 0 then logical % 16 else x.logical }
      (¬ on → ends i s)
      ∧ (on → found = false → x.missed < 2 → ends i (put { x with missed := x.missed + 1, good := 0 } s))
      ∧ (on → found = false → 2 ≤ x.missed → ∃ u, ends i u ∧ latched t0 4 u)
      ∧ (on → found = true → (trlOf s t0).st = 3 → 100 < skew → ∃ u, ends i u ∧ latched t0 2 u ∧ (trlOf u t0).st = 1)
      ∧ (on → found = true → (trlOf s t0).st ≠ 3 ∨ skew ≤ 100 → ∃ u, ends i u ∧ laneOf u lane = good
        ∧ ((trlOf s t0).st ≠ 3 → (trlOf u t0).st = (trlOf s t0).st)
        ∧ ((trlOf s t0).st = 3 → ((∀ l, l / 18 = t0 → (laneOf u l).st = 2 → (laneOf u l).logical < 16 → 8 ≤ (laneOf u l).good)
          ∧ ((tileLanes t0).filter (fun l => (laneOf u l).st == 2 && decide ((laneOf u l).logical < 16))).length = 16 ↔ (trlOf u t0).st = 4))))

/-- R101, R407, R409 to R418 and R420: frames of Trarriyn Link. A frame with an error is counted and makes the receiver ask for a replay; a good one in ACTIVE
gives pace and health, and its ACK frees frames up to it. A sequenced frame is taken where its number is the expected one, which then goes on
modulo 65,536, is a gap where it lies at most 32,767 ahead, and a duplicate otherwise. NAK, or an ACK that does not advance, replays every frame
held, and takes the link down where one cannot be read. A frame slot carries, under the pace in force, a replayed frame, else control messages,
else new records, else an idle frame; each header holds its number, type and the ACK. A new frame is held until acknowledged, at most
32,767 of them. Silence stops the pace, ten microseconds of it the link; a TRAIN frame in ACTIVE takes the link down. -/
def Obligations.TrlFrames : Prop :=
  ∀ (s : State) (tile typ seq ack pace spa spb health : Nat) (good nak reserved : Bool) (classes : List Nat), tile < 24 → isTrlTile s tile = true →
    let ends := fun (i : Instr) (t : State) => exec i s = .next (done t)
    let x := trlOf s tile
    let latched := fun (k : Nat) (u : State) => (fltOf u (fTrl tile k)).latch = true
    let big := 2 ^ 32 - 1
    (let i := Instr.trlFrameRx tile good typ seq ack pace nak spa spb health classes reserved
      let left := fun (l : List TrlFrame) => ((∀ f ∈ x.held, f.seq ≠ ack % 65536) ∧ l = x.held)
        ∨ ∃ a f, x.held = a ++ f :: l ∧ f.seq = ack % 65536 ∧ ∀ g ∈ a, g.seq ≠ ack % 65536
      let d := (seq + 65536 - x.rxe % 65536) % 65536
      let heard := fun (u : State) => (trlOf u tile).goodAt = s.time ∧ (trlOf u tile).pace = pace % 16 ∧ (trlOf u tile).peerHealth = health % 65536
        ∧ (trlOf u tile).peerSpa = spa % 4 ∧ (trlOf u tile).peerSpb = spb % 4 ∧ (trlOf u tile).st = 5
      (good = false ∨ 5 ≤ typ →
        (x.st = 0 → ends i s)
        ∧ (x.st ≠ 0 → ∃ u, ends i u ∧ trlOf u tile = { x with badN := min big (x.badN + 1), nak := x.nak || decide (x.st = 5) }))
      ∧ (good = true → typ < 5 →
        (x.st ≠ 5 → ends i s) ∧ (x.st = 5 → typ = 4 → ends i (trlLinkDown tile s))
        ∧ (x.st = 5 → typ < 4 → ∀ l, left l →
          (nak = false → ∃ u, ends i u ∧ heard u ∧ (trlOf u tile).held = l
            ∧ (typ = 0 → (trlOf u tile).rxe = x.rxe ∧ (trlOf u tile).nak = x.nak ∧ (trlOf u tile).dups = x.dups)
            ∧ (1 ≤ typ → d = 0 → (trlOf u tile).rxe = (x.rxe + 1) % 65536 ∧ (trlOf u tile).nak = false ∧ (reserved = true → latched 6 u))
            ∧ (1 ≤ typ → 1 ≤ d → d ≤ 32767 → (trlOf u tile).rxe = x.rxe ∧ (trlOf u tile).nak = true ∧ u.erg = s.erg)
            ∧ (1 ≤ typ → 32767 < d → (trlOf u tile).rxe = x.rxe ∧ (trlOf u tile).dups = min big (x.dups + 1) ∧ u.erg = s.erg))
          ∧ (nak = true → typ = 0 → l ≠ [] → x.nakPos ≠ (ack + 1) % 65536 + 1 →
            ((∀ f ∈ l, f.bad = false) → ∃ u, ends i u ∧ heard u ∧ (trlOf u tile).held = l ∧ (trlOf u tile).replay = l.map (fun f => f.seq)
              ∧ (trlOf u tile).replays = min big (x.replays + 1))
            ∧ ((∃ f ∈ l, f.bad = true) → ∃ u, ends i u ∧ (trlOf u tile).st = 1 ∧ (trlOf u tile).session = 0 ∧ latched 5 u)))))
    ∧ (x.st ≠ 5 → ends (.trlFrameTx tile) s ∧ ends (.replayAckTimeout tile) s ∧ ends (.paceSilence tile) s ∧ ends (.trlFrameTimeout tile) s)
    ∧ (let i := Instr.trlFrameTx tile
      let now := s.time / 1280
      let sent := if x.period = now then x.sent else 0
      let v := if x.silent then 0 else min (throttleCap s) x.pace
      let room := sent < 1073 * v / 15
      let ctl := x.ctlq ≠ [] ∧ (room ∨ (v = 0 ∧ (x.period = now → x.ctlSent = false))) ∧ x.held.length < 32767
      let head := fun (u : State) (n k : Nat) => ∃ hd, u.out.head? = some (.link (4 * tile) 21 hd) ∧ hd / 2 ^ 48 = n ∧ hd / 2 ^ 28 % 16 = k
        ∧ hd / 2 ^ 32 % 65536 = (x.rxe + 65535) % 65536
      let idles := ∃ u, ends i u ∧ head u x.txSeq 0 ∧ (trlOf u tile).held = x.held ∧ (trlOf u tile).txSeq = x.txSeq
      x.st = 5 → x.period = now ∨ x.idle ≠ 2 →
      (∀ k l, room → x.replay = k :: l → ∀ f, x.held.find? (fun g => g.seq == k) = some f → f.spill = false → f.typ < 16 → ∃ u, ends i u ∧ head u k f.typ
        ∧ (trlOf u tile).replay = x.replay.filter (fun y => !(y == k)) ∧ (trlOf u tile).held = x.held ∧ (trlOf u tile).sent = sent + 1)
      ∧ (¬ room ∨ x.replay = [] → ctl → ∃ u, ends i u ∧ head u x.txSeq 3 ∧ (trlOf u tile).ctlq = x.ctlq.drop 4 ∧ (trlOf u tile).txSeq = (x.txSeq + 1) % 65536
        ∧ (trlOf u tile).held = x.held ++ [{ seq := x.txSeq, typ := 3, ctl := x.ctlq.take 4 }])
      ∧ (¬ room → ¬ ctl → idles)
      ∧ (room → x.replay = [] → ¬ ctl → (pqOf s (4 * tile)).q = [] → idles)
      ∧ (room → x.replay = [] → ¬ ctl → 32767 ≤ x.held.length → (∃ r ∈ (pqOf s (4 * tile)).q, r.needs = none ∧ r.cls < 3) → portRole s (4 * tile) ≠ 4 → idles)
      ∧ (room → x.replay = [] → ¬ ctl → x.held.length < 32767 → (x.held.filter (fun f => !f.spill)).length < onDieFrames s tile →
        (∃ r ∈ (pqOf s (4 * tile)).q, r.needs = none ∧ r.cls < 3) → portRole s (4 * tile) ≠ 4 →
        ∃ u r rs k, ends i u ∧ r ∈ (pqOf s (4 * tile)).q ∧ head u x.txSeq k ∧ (k = if isInter r then 2 else 1) ∧ (trlOf u tile).txSeq = (x.txSeq + 1) % 65536
          ∧ (k = 1 → rs = []) ∧ (trlOf u tile).held = x.held ++ [{ seq := x.txSeq, typ := k, recs := r :: rs }]))
    ∧ (x.st = 5 →
      let later := fun (t : Nat) (u : State) => u.time = max s.time t
      (x.held = [] → ends (.replayAckTimeout tile) s)
      ∧ (x.held ≠ [] → ∃ u, ends (.replayAckTimeout tile) u ∧ later (x.ackAt + 20 * x.delay + 5000) u
        ∧ ((∀ f ∈ x.held, f.bad = false) → (trlOf u tile).replay = x.held.map (fun f => f.seq) ∧ (trlOf u tile).replays = min big (x.replays + 1)
          ∧ (trlOf u tile).ackAt = u.time)
        ∧ ((∃ f ∈ x.held, f.bad = true) → (trlOf u tile).st = 1 ∧ (trlOf u tile).session = 0 ∧ latched 5 u))
      ∧ (∃ u, ends (.paceSilence tile) u ∧ later (x.goodAt + 1000) u ∧ trlOf u tile = { x with silent := true })
      ∧ (∃ u, ends (.trlFrameTimeout tile) u ∧ later (x.goodAt + 10000) u ∧ (trlOf u tile).st = 7 ∧ (trlOf u tile).kept = true ∧ (trlOf u tile).held = x.held))
    ∧ (let i := Instr.spillMeterRelease tile
      (s.trl.spillQ.head? ≠ some tile → ends i s)
      ∧ (∀ l, s.trl.spillQ = tile :: l → ∃ u, ends i u ∧ u.trl = { s.trl with spillQ := l } ∧ meterOk u = true ∧ s.time ≤ u.time ∧ u.time ≤ (s.time / 1000 + 1) * 1000))

/-- R356, R357 and R419 to R425: TRL training, sessions, sparing, idle and equalization messages. Detection starts training at preset 1; ALIGN or CONFIG too long fails it.
In CONFIG a peer of another fabric, or of this switch's own ID, fails; sixteen round times give t, beyond 5,000 ns of it CONFIG fails; a held session
resumes, with what the peer has not received replayed, or ends with its numbers at 0 and is reported; a ready peer makes the port ACTIVE. A link
that goes down keeps its session in HOLD, which ends after RESUME_MAX. A spare is taken by request, check and done; one that cannot send is
refused, and the link goes down. An idle link is entered by request and answer, never with a record waiting, and left by a burst. Equalization
requests are answered in order. (The lower switch ID gives the session value: log entry 38, DEDUCED.) -/
def Obligations.TrlStatesAndSparing : Prop :=
  ∀ (s : State) (tile lanes lane spare mode half tstate peer peerPort flags fabric session nextRx tsend techo thold : Nat) (words : List Nat),
    tile < 24 → isTrlTile s tile = true →
    let ends := fun (i : Instr) (t : State) => exec i s = .next (done t)
    let x := trlOf s tile
    let put := fun (y : TrlPort) (u : State) => { u with trl := { u.trl with ports := sset {} u.trl.ports tile y } }
    let latched := fun (k : Nat) (u : State) => (fltOf u (fTrl tile k)).latch = true
    let later := fun (t : Nat) (u : State) => u.time = max s.time t
    let failed := fun (u : State) => (trlOf u tile).st = 1 ∧ (trlOf u tile).fails = x.fails + 1
    let sp := fun (y : TrlPort) (h : Nat) => if h = 0 then y.spareA else y.spareB
    let h := lane % 16 / 8
    let c := consume (4 * tile) s
    let held := fun (u : State) => (trlOf u tile).st = 7 ∧ (trlOf u tile).kept = true ∧ (trlOf u tile).held = x.held ∧ (trlOf u tile).session = x.session
    (let may := (x.st = 1 ∨ x.st = 7) ∧ 16 ≤ lanes ∧ x.off = false ∧ (tileOf s tile).clkok = true ∧ trainLive s = true ∧ x.retryAt = 0
     (¬ may → ends (.trlDetect tile lanes) s)
      ∧ (may → ∃ u, ends (.trlDetect tile lanes) u ∧ trlOf u tile = { x with st := 2, stepAt := s.time }
        ∧ ∀ l, l / 18 = tile → (laneOf u l).st = 1 ∧ (laneOf u l).preset = 1 ∧ (laneOf u l).cm2 = 0 ∧ (laneOf u l).cm1 = 252 ∧ (laneOf u l).c0 = 60
          ∧ (laneOf u l).cp1 = 0))
    ∧ (x.retryAt = 0 → ends (.trlTrainRetry tile) s)
    ∧ (x.retryAt ≠ 0 → ∃ u, ends (.trlTrainRetry tile) u ∧ later x.retryAt u ∧ trlOf u tile = { x with retryAt := 0 })
    ∧ (x.st ≠ 3 → x.st ≠ 4 → ends (.trlAlignConfigTimeout tile) s)
    ∧ (x.st = 3 ∨ x.st = 4 → ∃ u, ends (.trlAlignConfigTimeout tile) u ∧ failed u ∧ later (x.stepAt + 1000000) u)
    ∧ (x.up = false → ends (.linkDown (4 * tile)) s)
    ∧ (x.up = true → ∃ u, ends (.linkDown (4 * tile)) u ∧ held u ∧ latched 3 u)
    ∧ (let i := Instr.trainFrame tile tstate peer peerPort flags fabric session nextRx tsend techo thold
      let n := if techo = 0 then x.trains else min 16 (x.trains + 1)
      let sum := if techo = 0 ∨ x.trains = 16 then x.trainSum else x.trainSum + (s.time - techo - thold)
      let y := { x with echo := tsend, echoAt := s.time, trains := n, trainSum := sum }
      let d := ((sum + 31) / 32 + 9) / 10
      let alien := fabric % 2 ^ 64 ≠ s.trl.fabric.toNat ∨ peer % 16 = s.trl.selfId
      let ahead := (x.txSeq + 65536 - nextRx % 65536 % 65536) % 65536
      let resumes := x.kept = true ∧ x.peer = peer % 16 ∧ fabric = s.trl.fabric.toNat ∧ flags % 2 = 1 ∧ x.session = session ∧ ahead ≤ x.held.length
      (x.st = 5 → ends i (trlLinkDown tile s))
      ∧ (x.st = 2 ∨ x.st = 3 → ends i (put { x with echo := tsend, echoAt := s.time } s))
      ∧ (x.st ≠ 2 → x.st ≠ 3 → x.st ≠ 4 → x.st ≠ 5 → ends i s)
      ∧ (x.st = 4 →
        (alien → ∃ u, ends i u ∧ failed u ∧ latched 0 u)
        ∧ (¬ alien → n < 16 → ends i (put y s))
        ∧ (¬ alien → n = 16 →
          (500 < d → ∃ u, ends i u ∧ failed u ∧ latched 1 u)
          ∧ (d ≤ 500 → ∃ u, ends i u ∧ (trlOf u tile).peer = peer % 16 ∧ ((trlOf u tile).st = if tstate = 4 then 5 else 4)
            ∧ (tstate = 4 → (trlOf u tile).fails = 0 ∧ (trlOf u tile).pace = 15 ∧ ∀ k, x.slot = some k → k < 4096 → (slotOf s k).st = 1 → (slotOf u k).status = .ok)
            ∧ (x.ready = false → (trlOf u tile).ready = true ∧ (trlOf u tile).delay = d
              ∧ (resumes → (trlOf u tile).session = x.session ∧ (trlOf u tile).held = x.held.drop (x.held.length - ahead)
                ∧ (trlOf u tile).replay = (x.held.drop (x.held.length - ahead)).map (fun f => f.seq) ∧ (trlOf u tile).rxe = x.rxe ∧ (trlOf u tile).txSeq = x.txSeq)
              ∧ (¬ resumes → (trlOf u tile).held = [] ∧ (trlOf u tile).txSeq = 0 ∧ (trlOf u tile).rxe = 0 ∧ (x.kept = true → latched 4 u)
                ∧ (peer % 16 < s.trl.selfId → session ≠ 0 → (trlOf u tile).session = session % 2 ^ 32)))))))
    ∧ (x.kept = false ∨ x.up = true → ends (.resumeMaxExpire tile) s)
    ∧ (x.kept = true → x.up = false → ∃ u, ends (.resumeMaxExpire tile) u ∧ latched 4 u ∧ later (x.holdAt + regFld s aTrlCfg 53 44 * 1000000) u
      ∧ (trlOf u tile).session = 0 ∧ (trlOf u tile).kept = false ∧ (trlOf u tile).held = [] ∧ (trlOf u tile).txSeq = 0 ∧ (x.st = 7 → (trlOf u tile).st = 1))
    ∧ (let i := Instr.spareReq tile lane spare mode
      let can := spare = 16 + h ∧ spareSends c tile h = true
      (x.st ≠ 5 → ends i s)
      ∧ (x.st = 5 → sp x h ≠ none → ∃ u, ends i u ∧ held u ∧ (fltOf u (fLane tile 6)).latch = true)
      ∧ (x.st = 5 → sp x h = none → ¬ can → ∃ u, ends i u ∧ held u ∧ Out.link (4 * tile) 22 3 ∈ u.out)
      ∧ (x.st = 5 → sp x h = none → can → ∃ u, ends i u ∧ (trlOf u tile).st = 5
        ∧ sp (trlOf u tile) h = some { rx := false, lane := lane % 16, spare := spare, imm := mode == 1 } ∧ sp (trlOf u tile) (1 - h) = sp x (1 - h)))
    ∧ (let i := Instr.spareCheckDone tile half
      (sp x half = none ∨ x.st ≠ 5 ∨ (∃ q, sp x half = some q ∧ q.rx = false) → ends i s)
      ∧ (∀ q, sp x half = some q → q.rx = true → x.st = 5 → q.spare = 16 ∨ q.spare = 17 → ∃ u, ends i u ∧ sp (trlOf u tile) half = none
        ∧ (trlOf u tile).ctlq = x.ctlq ++ [{ op := 2, lane := q.lane, spare := q.spare }] ∧ (laneOf u (18 * tile + q.spare)).st = 2
        ∧ (laneOf u (18 * tile + q.spare)).logical = q.lane ∧ (fltOf u (fLane tile 5)).latch = true
        ∧ ∀ l, laneCarrying s tile q.lane = some l → l ≠ 18 * tile + q.spare → (laneOf u l).st = 5))
    ∧ (let i := Instr.spareDone tile lane spare
      let fits := ∃ q, sp x h = some q ∧ q.rx = false ∧ q.lane = lane % 16 ∧ q.spare = spare
      (x.st ≠ 5 → ends i s) ∧ (x.st = 5 → ¬ fits → ends i c)
      ∧ (x.st = 5 → fits → ∃ u, ends i u ∧ sp (trlOf u tile) h = none ∧ (if h = 0 then (trlOf u tile).txA else (trlOf u tile).txB) = some (lane % 16)))
    ∧ (x.st ≠ 5 → ends (.spareRefuse tile) s)
    ∧ (x.st = 5 → ∃ u, ends (.spareRefuse tile) u ∧ held u)
    ∧ (let n := regFld s aTrlCfg 43 32
      let tells := fun (y : TrlPort) (k : Nat) => { y with ctlq := y.ctlq ++ [{ op := k }] }
      let free := (pqOf c (4 * tile)).q = []
      let asleep := fun (u : State) => trlOf u tile = { x with st := 6, idle := 0 }
        ∧ ∀ l, l / 18 = tile → (laneOf u l).st = if (laneOf s l).st = 2 then 3 else (laneOf s l).st
      (n = 0 ∨ x.st ≠ 5 ∨ trlQuiet s tile = false ∨ x.idle ≠ 0 → ends (.idleEnterExpire tile) s)
      ∧ (n ≠ 0 → x.st = 5 → trlQuiet s tile = true → x.idle = 0 → ∃ u, ends (.idleEnterExpire tile) u ∧ later (x.busyAt + n * 1000) u
        ∧ trlOf u tile = tells { x with idle := 1 } 4)
      ∧ (x.st ≠ 5 → ends (.idleReq tile) s ∧ ends (.idleAck tile) s ∧ ends (.idleNak tile) s)
      ∧ (x.st = 5 →
        (trlQuiet c tile = true → x.busyAt + 1000 ≤ s.time → ends (.idleReq tile) (put (tells { x with idle := 2 } 5) c))
        ∧ (trlQuiet c tile = false ∨ s.time < x.busyAt + 1000 → ends (.idleReq tile) (put (tells x 6) c))
        ∧ ends (.idleNak tile) (put { x with idle := 0, busyAt := s.time } c)
        ∧ (x.idle ≠ 1 → ends (.idleAck tile) s)
        ∧ (x.idle = 1 → free → ∃ u, ends (.idleAck tile) u ∧ asleep u ∧ u.time = (s.time / 1280 + 1) * 1280)
        ∧ (x.idle = 1 → ¬ free → ∃ u, ends (.idleAck tile) u ∧ trlOf u tile = { x with idle := 0 }))
      ∧ (x.st ≠ 6 → ends (.idleExit tile) s)
      ∧ (x.st = 6 → ∃ u, ends (.idleExit tile) u ∧ trlOf u tile = { x with st := 5, goodAt := s.time, ackAt := s.time, busyAt := s.time, idle := 0 }
        ∧ ∀ l, l / 18 = tile → (laneOf u l).st = if (laneOf s l).st = 3 then 2 else (laneOf s l).st))
    ∧ (x.st < 2 ∨ 5 < x.st → ends (.eqReq tile words) s ∧ ends (.eqRsp tile words) s)
    ∧ (2 ≤ x.st → x.st ≤ 5 →
      let u0 := if x.st = 5 then c else s
      let rest := fun (u : State) => ∀ l, l / 18 ≠ tile → laneOf u l = laneOf s l
      (∃ u rs, ends (.eqReq tile words) u ∧ rest u ∧ rs.length = min 18 words.length
        ∧ (x.st = 5 → u.out = s.out ∧ trlOf u tile = { x with ctlq := x.ctlq ++ [{ op := 8, words := rs }] })
        ∧ (x.st ≠ 5 → u.out = .link (4 * tile) 23 (rs.foldr (fun w a => w + 65536 * a) 0) :: s.out)
        ∧ ∀ j w, j < 18 → words[j]? = some w →
          let y := laneOf s (18 * tile + j)
          let z := laneOf u (18 * tile + j)
          (y.rqSeq = w % 8 + 1 → z = y)
          ∧ (y.rqSeq ≠ w % 8 + 1 → z.rqSeq = w % 8 + 1
            ∧ (w / 2 ^ 14 % 4 = 1 → w / 2 ^ 12 % 4 = 2 → (z.preset, z.cm2, z.cm1, z.c0, z.cp1) = (2, 0, 248, 52, 252) ∧ rs[j]? = some (2 ^ 7 + w % 8))
            ∧ (w / 2 ^ 14 % 4 ≠ 1 → w / 2 ^ 14 % 4 ≠ 2 → (z.preset, z.cm2, z.cm1, z.c0, z.cp1) = (y.preset, y.cm2, y.cm1, y.c0, y.cp1) ∧ rs[j]? = some (w % 8))))
      ∧ (∃ u, ends (.eqRsp tile words) u ∧ u.trl = u0.trl ∧ rest u
        ∧ ∀ j < 18, laneOf u (18 * tile + j) = { laneOf s (18 * tile + j) with
          eqDone := (laneOf s (18 * tile + j)).eqDone || (decide (j < words.length) && words.getD j 8 % 8 == (laneOf s (18 * tile + j)).eqSeq) }))

/-- R437, R439, R454 to R460, R469 and R472 to R478: Emmor. A store to EMR_CMD starts a command unless one runs; when it ends, BUSY clears and STATUS is its
status: ST_DENIED in a lifecycle state that its row does not list, then its own checks, then ST_NO_SPACE where the log is full; a command that ends with
ST_OK has appended its log entry. A watched sensor that fires, and one that fires while it already holds does not, latches its bit, counts, asserts
ALARM_N and erases every IDE and session key; with GRAVE the secrets go too and the device is DECOMMISSIONED. ALARM_N falls when no latch and no
condition is left, and stays in DECOMMISSIONED. A challenge draws a new nonce; a token is logged and spends it, and one that passes every check
erases, clears the locks, and unlocks. (When arguments are read: log entry 45, DEDUCED; the other firmware key: 47; output layout: 48.) -/
def Obligations.EmmorCommandsAndAlarms : Prop :=
  ∀ (s : State) (bits : Fin 32) (token : BitVec 8192),
    let ends := fun (i : Instr) (t : State) => exec i s = .next (done t)
    let e := s.emr
    let num := fun (o n : Nat) => leNat (memRead e.cmdbuf o n)
    let grave := regFld s aAlarmCfg 63 63 = 1
    let wiped := fun (t : State) => t.emr.sessions = [] ∧ ∀ p ∈ t.cxp.ports, p.2.keys = [] ∧ p.2.ideIo ≠ 1 ∧ p.2.ideIo ≠ 2 ∧ p.2.ideCm ≠ 1 ∧ p.2.ideCm ≠ 2
    let noSecret := fun (t : State) => t.emr.secret = none ∧ t.emr.wrapped = none ∧ t.emr.idok = false
    (∀ p ∈ ([(.genIdentity, 1), (.installChain, 2), (.enrollKey, 3), (.revokeKey, 4), (.raiseSvn, 5), (.seal, 6), (.decommission, 7)] : List (Instr × Nat)),
      (e.busy = true → ends p.1 s) ∧ (e.busy = false → ends p.1 { s with emr := { e with op := p.2, busy := true } }))
    ∧ (e.busy = false → ends .emrCommandDone s)
    ∧ (e.busy = true →
      let gives := fun (st : Status) => ends .emrCommandDone { s with emr := { e with busy := false, status := st.code } }
      let entry := fun (n : Nat) => ({ typ := 4, core := 0, keyslot := 0, arg := e.op, time := s.time, svn := 0, msg := memRead e.cmdbuf 0 n } : LogEnt)
      let full := 1024 ≤ e.log.length
      let passes := fun (n : Nat) (P : State → Prop) => (full → gives .noSpace)
        ∧ (¬ full → ∃ t, ends .emrCommandDone t ∧ t.emr.busy = false ∧ t.emr.status = 0 ∧ t.emr.log = e.log ++ [entry n] ∧ P t)
      let only := fun (f : EmrSt → EmrSt) (t : State) => t = { s with emr := { f e with log := t.emr.log, busy := false, status := 0 } }
      let serial := memRead e.cmdbuf 0 8 = leBytes 8 Config.serial.toNat
      let n := num 0 1
      let key := fun (k : Nat) => sget {} e.keys k
      let building := e.life = .manufacture ∨ e.life = .debugUnlocked
      let live := e.life = .provisioned ∨ e.life = .sealed
      (e.op = 0 ∨ 8 ≤ e.op → gives .denied)
      ∧ (e.op = 1 → (¬ building → gives .denied) ∧ (building → passes 0 (fun t => t.emr.idok = true ∧ t.emr.secret ≠ none ∧ t.emr.wrapped ≠ none
        ∧ t.emr.modulus = leBytes 512 (Config.freeBig s.free).toNat ∧ memRead t.emr.cmdbuf 0 512 = t.emr.modulus
        ∧ memRead t.emr.cmdbuf 512 8 = leBytes 8 Config.serial.toNat ∧ t.emr.life = e.life)))
      ∧ (e.op = 2 →
        let listed := (n = 0 ∧ building) ∨ (n ≠ 0 ∧ e.life = .provisioned)
        let good := n < 4 ∧ num 4 4 ≤ 12288 ∧ e.wrapped ≠ none ∧ Config.chainOk n (memRead e.cmdbuf 8 (num 4 4)) e.modulus = true
        (¬ listed → gives .denied) ∧ (listed → ¬ good → gives .invalid)
        ∧ (listed → good → passes (8 + num 4 4) (fun t => sfind? t.emr.chains n = some (memRead e.cmdbuf 8 (num 4 4))
          ∧ t.emr.life = .provisioned ∧ ∀ k, k ≠ n → sfind? t.emr.chains k = sfind? e.chains k)))
      ∧ (e.op = 3 →
        (e.life ≠ .provisioned → gives .denied) ∧ (e.life = .provisioned → n = 0 ∨ 6 ≤ n → gives .invalid)
        ∧ (e.life = .provisioned → 1 ≤ n → n ≤ 5 → (key n).st ≠ 0 → gives .conflict)
        ∧ (e.life = .provisioned → 1 ≤ n → n ≤ 5 → (key n).st = 0 →
          passes 0x208 (only (fun x => { x with keys := sset {} e.keys n { st := 1, minSvn := num 4 4, mod := memRead e.cmdbuf 8 512 } }))))
      ∧ (e.op = 4 →
        let fw := n = 0x10 ∨ n = 0x11
        let other := bit (word e.fwRev) (0x11 - n) = true
        (¬ live → gives .denied) ∧ (live → ¬ (1 ≤ n ∧ n ≤ 5) → ¬ fw → gives .invalid) ∧ (live → fw → other → gives .conflict)
        ∧ (live → 1 ≤ n → n ≤ 5 → passes 1 (only (fun x => { x with keys := sset {} e.keys n { key n with st := 2 } })))
        ∧ (live → fw → ¬ other → passes 1 (only (fun x => { x with fwRev := e.fwRev ||| 2 ^ (n - 0x10) }))))
      ∧ (e.op = 5 →
        (¬ live → gives .denied) ∧ (live → 5 ≤ n ∨ num 4 4 < (if n = 0 then e.fwMin else (key n).minSvn) → gives .invalid)
        ∧ (live → n = 0 → e.fwMin ≤ num 4 4 → passes 8 (only (fun x => { x with fwMin := num 4 4 })))
        ∧ (live → 1 ≤ n → n ≤ 4 → (key n).minSvn ≤ num 4 4 → passes 8 (only (fun x => { x with keys := sset {} e.keys n { key n with minSvn := num 4 4 } }))))
      ∧ (e.op = 6 →
        let fit := sfind? e.chains 0 ≠ none ∧ imageOk (activeImg s) = true ∧ pathsOk (activeImg s) = true
        (e.life ≠ .provisioned → gives .denied) ∧ (e.life = .provisioned → ¬ serial → gives .invalid) ∧ (e.life = .provisioned → serial → ¬ fit → gives .conflict)
        ∧ (e.life = .provisioned → serial → fit → passes 8 (fun t => t.emr.life = .sealed ∧ lifeRead t = some .sealed)))
      ∧ (e.op = 7 →
        (e.life = .decommissioned → gives .denied) ∧ (e.life ≠ .decommissioned → ¬ serial → gives .invalid)
        ∧ (e.life ≠ .decommissioned → serial → passes 8 (fun t => t.emr.life = .decommissioned ∧ noSecret t ∧ wiped t ∧ t.emr.resetDue = some (s.time + 1000000)))))
    ∧ (∀ p ∈ ([(.tamperSupply, 0), (.tamperTemp, 1), (.tamperMesh, 2)] : List ((Bool → Instr) × Nat)),
      let on := bit (regGet s aAlarmCfg) p.2 = true
      let holds := bit (word e.sense) p.2 = true
      (¬ on ∨ holds → ends (p.1 true) s)
      ∧ (on → ¬ holds → ∃ t, ends (p.1 true) t ∧ t.emr.alarmN = true ∧ t.emr.latch.testBit p.2 = true ∧ t.emr.alarms = min 65535 (e.alarms + 1) ∧ wiped t
        ∧ (fltOf t fEmrAlarm).latch = true ∧ (¬ grave → t.emr.secret = e.secret ∧ t.emr.life = e.life)
        ∧ (grave → e.life ≠ .decommissioned → t.emr.life = .decommissioned ∧ noSecret t ∧ t.emr.resetDue = some (s.time + 1000000)))
      ∧ (¬ holds → ends (p.1 false) s)
      ∧ (holds → ends (p.1 false) { s with emr := { e with
        sense := e.sense - 2 ^ p.2, alarmN := if e.latch = 0 ∧ e.sense = 2 ^ p.2 ∧ e.life ≠ .decommissioned then false else e.alarmN } }))
    ∧ (let l := e.latch &&& (31 - bits.val)
      ends (.alarmLatchClear bits) { s with emr := { e with latch := l, alarmN := if l = 0 ∧ e.sense = 0 ∧ e.life ≠ .decommissioned then false else e.alarmN } })
    ∧ (e.resetDue = none → ends .lifecycleWarmReset s)
    ∧ (∀ k, e.resetDue = some k → ends .lifecycleWarmReset (resetAsk false (advanceTo k { s with emr := { e with resetDue := none } })))
    ∧ (let tap := fun (c : Nat) => { s with tap := { s.tap with ir := c } }
      let takes := fun (c : Nat) => s.pwr.pwrOk = true ∧ jtagOk s c = true
      let f := fun (o k : Nat) => token.toNat / 2 ^ (8 * o) % 2 ^ (8 * k)
      let form := e.life = .sealed ∧ f 0 4 = 0x54445A4B ∧ f 4 2 = 1 ∧ f 6 1 ≤ 1 ∧ bit (word (regFld s aDbgCfg 3 2)) (f 6 1) = true ∧ f 7 1 = 0
        ∧ f 8 8 = Config.serial.toNat ∧ f 0x10 4 = s.pwr.boots % 2 ^ 32 ∧ f 0x14 12 = 0 ∧ f 0x40 448 = 0 ∧ e.nonce = some (f 0x20 32)
      let spent := fun (t : State) (ok : Nat) => t.emr.nonce = none ∧ ∃ x : LogEnt, x.typ = 5 ∧ x.keyslot = ok ∧ x.msg = leBytes 1024 token.toNat ∧ t.emr.log = e.log ++ [x]
      (s.pwr.pwrOk = false → ends .emrChallenge s ∧ ends (.emrToken token) s)
      ∧ (s.pwr.pwrOk = true → (¬ takes 0x20 → ends .emrChallenge (tap 0xFF)) ∧ (¬ takes 0x21 → ends (.emrToken token) (tap 0xFF)))
      ∧ (takes 0x20 → ∃ k, ends .emrChallenge { tap 0x20 with
        free := s.free + 1, emr := { e with nonce := some k }, out := .resp .jtag 0 [k, Config.serial.toNat, s.pwr.boots % 2 ^ 32, 0, 0, 0] :: s.out })
      ∧ (takes 0x21 →
        (1024 ≤ e.log.length → ends (.emrToken token) { tap 0x21 with emr := { e with nonce := none } })
        ∧ (e.log.length < 1024 →
          (¬ form → ∃ t, ends (.emrToken token) t ∧ spent t 0 ∧ t.emr.life = e.life ∧ t.gate = s.gate)
          ∧ (form → tokenSig s token = false → ∃ t, ends (.emrToken token) t ∧ spent t 0 ∧ t.gate = s.gate ∧ (fltOf t fEmrSigfail).latch = true)
          ∧ (form → tokenSig s token = true → s.flt.terminal = false → s.pwr.writing = true → ∃ t, ends (.emrToken token) t ∧ spent t 1 ∧ t.emr.life = .debugUnlocked
            ∧ noSecret t ∧ wiped t ∧ t.gate.locks = [] ∧ 1 ≤ t.pwr.resetReq
            ∧ ∀ p ∈ s.gate.locks, p.2.en = true → ∀ a, p.2.base ≤ a → a ≤ p.2.limit → memByte t.flg.mem a = 0)
          ∧ (form → tokenSig s token = true → s.flt.terminal = false → s.pwr.writing = false → ∃ t, ends (.emrToken token) (warmReset t) ∧ spent t 1
            ∧ t.emr.life = .debugUnlocked ∧ noSecret t ∧ wiped t ∧ t.gate.locks = []
            ∧ ∀ p ∈ s.gate.locks, p.2.en = true → ∀ a, p.2.base ≤ a → a ≤ p.2.limit → memByte t.flg.mem a = 0))))

/-- R390 to R392, R395, R470 and R471: the SPDM responder of a DOE mailbox. A request is served while its mailbox is busy, and its response ends that. The
connection goes through version, capabilities and algorithms, each refused before the one ahead of it; a choice that the table does not list is refused as
unsupported. Certificates, CHALLENGE, signed measurements and sessions need an identity. A session is opened within 4 to a mailbox and 64 in all, is
secured by FINISH with a good MAC and ended by one with a bad MAC or by END_SESSION; KEY_UPDATE, HEARTBEAT and the IDE_KM requests act only inside a
secured one. KEY_PROG keeps a key, K_SET_GO puts a set into use, in both directions making the stream Secure, K_SET_STOP erases it and leaves the stream
Insecure; none of them where the device itself is requester. (Codes: log entry 49, PRESUMED. What is signed: log entry 50, PRESUMED.) -/
def Obligations.SpdmResponder : Prop :=
  ∀ (s : State) (fn ver slot offset len nonce index sess op obj : Nat) (a1 a2 a3 a4 a5 sign mac : Bool) (stream dir set : Fin 2) (key : BitVec 256),
    let ends := fun (i : Instr) (t : State) => exec i s = .next (done t)
    let m := sget {} s.cxp.doe fn
    let mb := fun (t : State) => sget {} t.cxp.doe fn
    let put := fun (x : DoeMb) (t : State) => { t with cxp := { t.cxp with doe := sset {} t.cxp.doe fn x } }
    let reply := fun (ws : List Nat) (x : DoeMb) (t : State) =>
      { put { x with busy := false, ready := true, resp := ws } t with out := .resp (.doe fn) 0 ws :: t.out }
    let fails := fun (i : Instr) (code : Nat) (t : State) => ends i (reply [0x7F, code] m t)
    let answers := fun (i : Instr) (ws : List Nat) => ends i (reply ws m s)
    let chains := if hasId s then s.emr.chains else []
    let chain := chains.find? (fun c => c.1 == slot)
    let mine := s.emr.sessions.filter (fun x => x.mb == fn)
    let is := fun (est : Bool) => ∃ x ∈ s.emr.sessions, x.mb = fn ∧ x.id = sess ∧ x.est = est
    let with_ := fun (l : List Session) => { s with emr := { s.emr with sessions := l } }
    let alg := Instr.negotiateAlgorithms fn a1 a2 a3 a4 a5
    let cert := Instr.getCertificate fn slot offset len
    let meas := Instr.getMeasurements fn index sign nonce
    let caps := Instr.getCapabilities fn ver
    let fin := Instr.finish fn sess mac
    let km := Instr.vendorDefinedRequest fn sess obj stream dir set key
    let third := [Instr.getDigests fn, cert, .challenge fn slot nonce, meas, .keyExchange fn slot nonce]
    let inner := [Instr.keyUpdate fn sess op, .spdmHeartbeat fn sess, .endSession fn sess, km]
    (m.busy = false → (∀ i ∈ third ++ inner, ends i s) ∧ ends (.getVersion fn) s ∧ ends caps s ∧ ends alg s ∧ ends fin s)
    ∧ (m.busy = true →
      (∃ t, ends (.getVersion fn) t ∧ mb t = { m with busy := false, ready := true, resp := [0x04, 0x13, 0x12], spdm := 1, ver := 0 } ∧ t.emr = s.emr)
      ∧ (m.spdm < 1 → fails caps 4 s) ∧ (1 ≤ m.spdm → ver ≠ 0x12 → ver ≠ 0x13 → fails caps 0x41 s)
      ∧ (1 ≤ m.spdm → ver = 0x12 ∨ ver = 0x13 → ∃ t, ends caps t ∧ mb t = { m with busy := false, ready := true, resp := [0x61, 18, 0x62F6], spdm := 2, ver := ver })
      ∧ (m.spdm < 2 → fails alg 4 s) ∧ (2 ≤ m.spdm → ¬ (a1 ∧ a2 ∧ a3 ∧ a4 ∧ a5) → fails alg 7 s)
      ∧ (2 ≤ m.spdm → a1 ∧ a2 ∧ a3 ∧ a4 ∧ a5 → ∃ t, ends alg t ∧ mb t = { m with busy := false, ready := true, resp := [0x63], spdm := 3 })
      ∧ (m.spdm < 3 → ∀ i ∈ third, fails i 4 s)
      ∧ (3 ≤ m.spdm →
        answers (.getDigests fn) (0x01 :: (chains.map (fun c => 2 ^ c.1)).sum :: chains.map (fun c => shaNat c.2))
        ∧ (chain = none → fails cert 1 s ∧ fails (.challenge fn slot nonce) (if hasId s then 1 else 7) s ∧ fails (.keyExchange fn slot nonce) (if hasId s then 1 else 7) s)
        ∧ (∀ c, chain = some c →
          (c.2.length ≤ offset → fails cert 1 s)
          ∧ (offset < c.2.length → let p := (c.2.drop offset).take len
            answers cert [0x02, slot, p.length, c.2.length - offset - p.length, leNat p])
          ∧ (∃ k, ends (.challenge fn slot nonce)
            (let ws := [0x03, slot, shaNat c.2, k]
             { reply (ws ++ [spdmSign (nonce :: ws) s]) m s with free := s.free + 2 })))
        ∧ (sign = true → hasId s = false → fails meas 7 s)
        ∧ (sign = false ∨ hasId s = true → index ≠ 0 → index ≠ 0xFF → measure s index = none → fails meas 1 s)
        ∧ (let gives := fun (ws : List Nat) => (sign = false → answers meas (0x60 :: ws))
            ∧ (sign = true → hasId s = true → ends meas { reply (0x60 :: ws ++ [spdmSign (nonce :: 0x60 :: ws) s]) m s with free := s.free + 1 })
          (index = 0 → gives [10]) ∧ (∀ v, index ≠ 0 → index ≠ 0xFF → measure s index = some v → gives [index, measType index, v])
          ∧ (index = 0xFF → ∃ ws, gives ws ∧ ws.length = 30))
        ∧ (hasId s = true → chain ≠ none → 4 ≤ mine.length ∨ 64 ≤ s.emr.sessions.length → fails (.keyExchange fn slot nonce) 0x0A s)
        ∧ (hasId s = true → chain ≠ none → mine.length < 4 → s.emr.sessions.length < 64 → ∃ t, ends (.keyExchange fn slot nonce) t ∧ (mb t).busy = false
          ∧ (mb t).resp.take 2 = [0x64, s.emr.nextSess] ∧ t.emr = { s.emr with
            nextSess := (s.emr.nextSess + 1) % 65536, sessions := s.emr.sessions ++ [{ mb := fn, id := s.emr.nextSess, est := false, time := s.time }] }))
      ∧ (let out := s.emr.sessions.filter (fun x => !(x.mb == fn && x.id == sess))
        let set_ := fun (e : Bool) => s.emr.sessions.map (fun x => if x.mb = fn ∧ x.id = sess then { x with est := e || x.est, time := s.time } else x)
        (¬ is false → fails fin 1 s) ∧ (is false → mac = false → fails fin 6 (with_ out)) ∧ (is false → mac = true → ends fin (reply [0x65] m (with_ (set_ true))))
        ∧ (¬ is true → ∀ i ∈ inner, fails i 1 s)
        ∧ (is true →
          let t := with_ (set_ false)
          (1 ≤ op → op ≤ 3 → ends (.keyUpdate fn sess op) (reply [0x69, op] m t)) ∧ (op = 0 ∨ 3 < op → fails (.keyUpdate fn sess op) 1 t)
          ∧ ends (.spdmHeartbeat fn sess) (reply [0x68] m t) ∧ ends (.endSession fn sess) (reply [0x6C] m (with_ out))
          ∧ (portOfVcs? s (mbVcs fn) = none → fails km 1 t)
          ∧ (∀ p, portOfVcs? s (mbVcs fn) = some p →
            let x := cxpOf s p
            let k := stream.val * 4 + dir.val * 2 + set.val
            let io := fun (y : CxpPort) => if stream.val = 0 then y.ideIo else y.ideCm
            let other := stream.val * 4 + (1 - dir.val) * 2 + set.val
            (ideRequester s p = true → fails km 7 t)
            ∧ (ideRequester s p = false →
              (obj = 0 → ends km (reply [0x7E, 1, p, x.ideIo, x.ideCm] m t))
              ∧ (obj ≠ 0 → obj ≠ 2 → obj ≠ 4 → obj ≠ 5 → fails km 7 t)
              ∧ (obj = 2 → ∃ y, ends km (reply [0x7E, 3, p, 0] m (cxpPut p y t)) ∧ y.keys = sput x.keys k key.toNat
                ∧ (io y = if sfind? x.keys other ≠ none ∧ io x ≠ 2 then 1 else io x) ∧ y.keySet = x.keySet ∧ y.link = x.link)
              ∧ (obj = 4 → sfind? x.keys k = none → ends km (reply [0x7E, 6, p] m (cxpPut p x t)))
              ∧ (obj = 4 → sfind? x.keys k ≠ none → ∃ y, ends km (reply [0x7E, 6, p] m (cxpPut p y t)) ∧ y.keys = x.keys
                ∧ sget 0 y.keySet (2 + stream.val * 2 + dir.val) = set.val + 1 ∧ sget 0 y.keyCnt (stream.val * 2 + dir.val) = 0
                ∧ (io y = if sget 0 x.keySet (2 + stream.val * 2 + (1 - dir.val)) = set.val + 1 then 2 else io x))
              ∧ (obj = 5 → ∃ y, ends km (reply [0x7E, 6, p] m (cxpPut p y t)) ∧ y.keys = sdel x.keys k
                ∧ sget 0 y.keySet (2 + stream.val * 2 + dir.val) = 0 ∧ (io y = if io x = 0 then 0 else 3)))))))

/-- R432 to R434, R436 and R558: the device on its management bus. It answers whenever power is good and no reset holds it, booted or not. An address is
taken from ENTDAA by a target that has none, from SETDASA at the static address likewise, changed by SETNEWDA and given up by RSTDAA; from the first
of them on the device is an I3C target, and until then SMBus offers Block Read of command 0x10 at the static address. As an I3C target it answers
the other CCCs and the MCTP control messages: the provisional ID, the status block, the limits and the endpoint ID last set, and two
message types. Whatever it does not answer changes nothing. (BCR, DCR, the MCTP version and the UUID are free values, log entry 3, DESIGN CHOICE.) -/
def Obligations.ManagementBusCommands : Prop :=
  ∀ (s : State) (a b : Fin 128) (e c : Fin 256) (len : Fin 65536),
    let ends := fun (i : Instr) (t : State) => exec i s = .next (done t)
    let gives := fun (i : Instr) (ws : List Nat) => ends i { s with out := .resp .i3c 0 ws :: s.out }
    let block := [if s.pwr.stopped then 0xFF else s.pwr.progress, s.emr.life.code,
      b2n s.pwr.devReady + 2 * b2n (faultN s) + 4 * b2n s.emr.alarmN, 0, s.pwr.boots % 2 ^ 32, s.time, s.flt.last.getD 0xFFFFFFFF, 0]
    let target := [Instr.setnewda a, .rstdaa, .getpid, .getbcr, .getdcr, .getstatus, .getmrl, .getmwl, .setmrl len, .setmwl len, .enec e, .disec e, .rstact e,
      .setEndpointId e, .getEndpointId, .getMctpVersionSupport, .getMessageTypeSupport, .getEndpointUuid]
    (alive s = false → (∀ i ∈ target, ends i s) ∧ ends (.entdaa a) s ∧ ends (.setdasa a b) s ∧ ends (.smbusBlockRead a c) s)
    ∧ (alive s = true →
      (s.mgt.dynAddr = none → ends (.entdaa a) { s with mgt := { s.mgt with i3c := true, dynAddr := some a.val } })
      ∧ (∀ d, s.mgt.dynAddr = some d → ends (.entdaa a) { s with mgt := { s.mgt with i3c := true } } ∧ ends (.setdasa a b) s)
      ∧ (a.val ≠ s.mgt.saddr → ends (.setdasa a b) s)
      ∧ (a.val = s.mgt.saddr → s.mgt.dynAddr = none → ends (.setdasa a b) { s with mgt := { s.mgt with i3c := true, dynAddr := some b.val } })
      ∧ (s.mgt.i3c = false → (∀ i ∈ target, ends i s)
        ∧ (a.val = s.mgt.saddr → c.val = 0x10 → gives (.smbusBlockRead a c) block) ∧ (a.val ≠ s.mgt.saddr ∨ c.val ≠ 0x10 → ends (.smbusBlockRead a c) s))
      ∧ (s.mgt.i3c = true →
        ends (.smbusBlockRead a c) s ∧ ends .rstdaa { s with mgt := { s.mgt with i3c := false, dynAddr := none } }
        ∧ (s.mgt.dynAddr = none → ends (.setnewda a) s)
        ∧ (∀ d, s.mgt.dynAddr = some d → ends (.setnewda a) { s with mgt := { s.mgt with dynAddr := some a.val } })
        ∧ gives .getpid [0x5C4 * 2 ^ 33 + 0x4860 * 2 ^ 16 + s.mgt.inst * 2 ^ 12] ∧ gives .getstatus block ∧ gives .getmrl [s.mgt.mrl] ∧ gives .getmwl [s.mgt.mwl]
        ∧ gives .getbcr [Config.bcr.toNat] ∧ gives .getdcr [Config.dcr.toNat] ∧ gives .getMctpVersionSupport [Config.mctpVersion.toNat]
        ∧ gives .getEndpointUuid [Config.uuid.toNat] ∧ gives .getMessageTypeSupport [0x00, 0x07] ∧ gives .getEndpointId [s.mgt.eid]
        ∧ ends (.setEndpointId e) { s with mgt := { s.mgt with eid := e.val }, out := .resp .i3c 0 [e.val] :: s.out }
        ∧ ends (.setmrl len) { s with mgt := { s.mgt with mrl := len.val } } ∧ ends (.setmwl len) { s with mgt := { s.mgt with mwl := len.val } }
        ∧ ends (.enec e) { s with mgt := { s.mgt with events := s.mgt.events ||| e.val } }
        ∧ ends (.disec e) { s with mgt := { s.mgt with events := s.mgt.events &&& (255 - e.val) } }
        ∧ ends (.rstact e) { s with mgt := { s.mgt with rstact := e.val } }))

/-- R436, R438, R442, R443 and R489: the standard FM API commands that read and set. On a path that is not open, or in a device without power or held in
reset, nothing happens. In TERMINAL every one of them, and before DEVICE_READY every one but Identify, answers Internal Error, and the status behind
it is the newest record of the fault history. Otherwise each has its effect and answers: the first step of every command raises the command
engine's interrupt and ends device idle. (The numbers of return codes are log entry 58, PRESUMED, the source 2047 of the record log entry 57, DESIGN CHOICE, the limits of
Set Response Message Limit log entry 59, DEDUCED.) -/
def Obligations.StandardManagementCommands : Prop :=
  ∀ (s : State) (ib all : Bool) (n : Fin 256) (log : Fin 5) (hs ports : List Nat) (pol port op : Nat) (vcs : Fin 64) (vppb : Fin 256) (p7 : Fin 128)
    (ld : Option (Fin 16)) (lds : Nat) (reg : Fin 4096) (wr : Bool) (v err : BitVec 32),
    let ends := fun (i : Instr) (t : State) => exec i s = .next (done t)
    let say := fun (code : Nat) (ws : List Nat) (t : State) => { t with out := .resp .mgmt code ws :: t.out }
    let b := icuEdge 7384 (idleExit 7384 s)
    let l := b.mgt.swLog
    let rows := [Instr.backgroundOperationStatus ib, .getResponseMessageLimit ib, .setResponseMessageLimit ib n, .getEventRecords ib log
      , .clearEventRecords ib log all hs, .getEventInterruptPolicy ib, .setEventInterruptPolicy ib pol, .identifySwitchDevice ib, .getPhysicalPortState ib ports
      , .physicalPortControl ib port op, .sendPpbCxlioConfigRequest ib port reg wr v, .getVirtualCxlSwitchInfo ib vcs, .fmBindVppb ib vcs vppb p7 ld lds
      , .fmUnbindVppb ib vcs vppb, .generateAerEvent ib vcs vppb err, .tunnelManagementCommand ib port, .sendLdCxlioConfigRequest ib port
      , .sendLdCxlioMemoryRequest ib port]
    let failed := fun (i : Instr) (st : Status) => ∃ t, ends i (say 0x400 [] t) ∧ Reported s t ∧ ∃ r, t.flt.main.head? = some r ∧ r.detail = [word st.code]
    (pathOpen s ib = false ∨ alive s = false → (∀ i ∈ rows, ends i s) ∧ ends (.identify ib) s)
    ∧ (pathOpen s ib = true → alive s = true →
      (s.flt.terminal = true → (∀ i ∈ rows, failed i .faulted) ∧ failed (.identify ib) .faulted)
      ∧ (s.flt.terminal = false →
        ends (.identify ib) (say 0 [0x1F3B, 0x4860] b)
        ∧ (s.pwr.devReady = false → ∀ i ∈ rows, failed i .notReady)
        ∧ (s.pwr.devReady = true →
          ends (.backgroundOperationStatus ib) (say 0 [b2n b.mgt.flashRun, b.mgt.flashDone, 0xC028, b.mgt.flashRet] b)
          ∧ ends (.getResponseMessageLimit ib) (say 0 [b.mgt.respLim] b)
          ∧ (n.val < 8 ∨ 20 < n.val → ends (.setResponseMessageLimit ib n) (say 0x200 [] b))
          ∧ (8 ≤ n.val → n.val ≤ 20 → ends (.setResponseMessageLimit ib n) (say 0 [n.val] { b with mgt := { b.mgt with respLim := n.val } }))
          ∧ (let x := sget (0, 0, 0) l.overflow log.val
            ends (.getEventRecords ib log)
              (say 0 (x.1 :: x.2.1 :: x.2.2 :: (l.recs.filter (fun r => r.1 == log.val)).flatMap (fun r => r.2.1 :: evWords r.2.2)) b))
          ∧ (∃ rs o, ends (.clearEventRecords ib log all hs) (say 0 [] { b with mgt := { b.mgt with swLog := { l with recs := rs, overflow := o } } })
            ∧ ∀ r, r ∈ rs ↔ r ∈ l.recs ∧ ¬ (r.1 = log.val ∧ (all = true ∨ r.2.1 ∈ hs)))
          ∧ ends (.getEventInterruptPolicy ib) (say 0 [l.policy] b)
          ∧ ends (.setEventInterruptPolicy ib pol) (say 0 [] { b with mgt := { b.mgt with swLog := { l with policy := pol } } })
          ∧ ends (.identifySwitchDevice ib) (say 0 [96, ((List.range 96).filter (linkUp b)).length, 64, (b.dom.vcsOf.filter (fun p => p.2 != 0)).length, 1024
            , vppbsBound b, 8] b)
          ∧ ((∃ p ∈ ports, 96 ≤ p) → ends (.getPhysicalPortState ib ports) (say 0x200 [] b))
          ∧ ((∀ p ∈ ports, p < 96) → ends (.getPhysicalPortState ib ports) (say 0 (ports.flatMap (fun p =>
            let x := cxpOf b p
            if isTrlPort b p then [p, 4, (trlOf b (p / 4)).st, 16, 0, 0] else [p, portRole b p, x.link, x.width, x.rate, x.flit])) b))
          ∧ (portOfVcs? b vcs.val = none → ends (.getVirtualCxlSwitchInfo ib vcs) (say 0x200 [] b))
          ∧ (∀ p, portOfVcs? b vcs.val = some p → ∃ ws, ends (.getVirtualCxlSwitchInfo ib vcs) (say 0 (p :: ws) b)
            ∧ ((∀ q ∈ b.dom.vppb, q.1 / 256 = vcs.val → q.2 = none) → ws = []))
          ∧ (portOfVcs? b vcs.val = none → ends (.generateAerEvent ib vcs vppb err) (say 0x200 [] b))
          ∧ (∀ p, portOfVcs? b vcs.val = some p → ends (.generateAerEvent ib vcs vppb err)
            (say 0 [] { b with out := .link p 26 (vppb.val * 2 ^ 32 + err.toNat) :: b.out })))))

/-- R42 to R47, R53, R298, R299, R386, R442 and R443: the standard FM API commands that act on ports and bindings, of a device that serves commands, on an
open path. Physical Port Control disables and enables a sub-port that exists (its opcodes: log entry 56, PRESUMED), Send PPB Config writes a register
that reads back, Bind and Unbind vPPB bind and unbind a pass-through target as BIND and UNBIND VPPB do, with a hot-plug event, Unbind of a
KMD instance starts its orderly removal with the VCS's requests quiesced (its end: log entry 68, DESIGN CHOICE), and a tunnelled request goes to a device
port as a CXL.io request of firmware. What cannot be carried out answers Invalid Input, or Internal Error with the status recorded. -/
def Obligations.ManagementOfPortsAndBindings : Prop :=
  ∀ (s : State) (ib : Bool) (port : Nat) (vcs : Fin 64) (vppb : Fin 256) (p7 : Fin 128) (ld : Option (Fin 16)) (lds : Nat) (reg : Fin 4096) (v : BitVec 32),
    Serving s → pathOpen s ib = true →
    let ends := fun (i : Instr) (t : State) => exec i s = .next (done t)
    let say := fun (code : Nat) (ws : List Nat) (t : State) => { t with out := .resp .mgmt code ws :: t.out }
    let b := icuEdge 7384 (idleExit 7384 s)
    let bs := { b with flg := { b.flg with seq := b.flg.seq + 1 } }
    let failed := fun (i : Instr) (st : Status) (u : State) =>
      ∃ t, ends i (say 0x400 [] t) ∧ Reported u t ∧ ∃ r, t.flt.main.head? = some r ∧ r.detail = [word st.code]
    let control := fun (op : Nat) => Instr.physicalPortControl ib port op
    (96 ≤ port → ∀ op, ends (control op) (say 0x200 [] b))
    ∧ (port < 96 →
      (∀ op, 3 ≤ op → ends (control op) (say 0x200 [] b))
      ∧ (subPortExists b port = false → ends (control 2) (say 0x200 [] b) ∧ ends (control 0) (say 0x200 [] bs) ∧ ends (control 1) (say 0x200 [] bs))
      ∧ (subPortExists b port = true → isTrlPort b port = false →
        (portOff b port = true → ends (control 0) (say 0 [] bs))
        ∧ (portOff b port = false → ∃ t, ends (control 0) (say 0 [] t) ∧ (cxpOf t port).off = true ∧ linkUp t port = false)
        ∧ (portOff b port = true → ends (control 1) (say 0 [] (portEnable port bs)) ∧ (cxpOf (portEnable port bs) port).off = false)
        ∧ (portOff b port = false → (cxpOf b port).link ≠ 4 → ends (control 1) (say 0 [] bs))
        ∧ (∃ t, ends (control 2) (say 0 [] t) ∧ (cxpOf t port).off = false)))
    ∧ (subPortExists b port = false → ∀ w, ends (.sendPpbCxlioConfigRequest ib port reg w v) (say 0x200 [] b))
    ∧ (subPortExists b port = true →
      let key := port * 4096 + reg.val
      ends (.sendPpbCxlioConfigRequest ib port reg true v) (say 0 [] { b with mgt := { b.mgt with cfg := sput b.mgt.cfg key (v.zeroExtend 64) } })
      ∧ (∀ x, sfind? b.mgt.cfg key = some x → ends (.sendPpbCxlioConfigRequest ib port reg false v) (say 0 [x.toNat] b)))
    ∧ (let i := Instr.fmBindVppb ib vcs vppb p7 ld lds
      let x := (p7.val, ld.map Fin.val)
      let free := (domOf b 0).st ≠ .free ∧ ∃ hp, portOfVcs? b vcs.val = some hp
      let bound := sget none b.dom.vppb (vcs.val * 256 + vppb.val)
      let mayBind := portRole b x.1 = 2 ∧ noLd x lds = false ∧ placeTaken b x = false ∧ exported b x.1 = false
      ((domOf b 0).st ≠ .free → portOfVcs? b vcs.val = none → ends i (say 0x200 [] bs))
      ∧ (free → bound ≠ none → ends i (say 0x600 [] bs))
      ∧ (free → bound = none → ¬ mayBind → failed i .conflict bs)
      ∧ (free → bound = none → mayBind → vppbsBound b < 1024 → ends i (say 0 [] (hotPlug vcs vppb 2
        (vppbPut vcs vppb (some (match x.2 with | some k => .ld x.1 k | none => .port x.1)) bs)))))
    ∧ (let i := Instr.fmUnbindVppb ib vcs vppb
      let bound := sget none b.dom.vppb (vcs.val * 256 + vppb.val)
      let waits := ∃ r ∈ b.dom.removals, r.vcs = vcs.val ∧ r.vppb = vppb.val
      (bound = none → failed i .conflict bs)
      ∧ (∀ y, bound = some y → (∀ d, y ≠ .kmd d) → ends i (say 0 [] (hotPlug vcs vppb 3 (vppbPut vcs vppb none bs))))
      ∧ (∀ d, bound = some (.kmd d) →
        (waits → ends i (say 0x600 [] b))
        ∧ (¬ waits → ∃ t, ends i t ∧ t.out = b.out ∧ vcs.val ∈ (domOf t d).quiesced ∧ (∀ w, w ≠ vcs.val → (w ∈ (domOf t d).quiesced ↔ w ∈ (domOf b d).quiesced))
          ∧ t.dom.removals = b.dom.removals ++ [{ vcs := vcs, vppb := vppb, dom := d, waits := [], phase := 0 }])))
    ∧ (∀ i ∈ [Instr.tunnelManagementCommand ib port, .sendLdCxlioConfigRequest ib port, .sendLdCxlioMemoryRequest ib port],
      (portRole b port ≠ 2 ∨ linkUp b port = false → ends i (say 0x200 [] b))
      ∧ (portRole b port = 2 → linkUp b port = true → ∃ t, ends i t ∧ t.out = b.out
        ∧ t.cxp.io = b.cxp.io ++ [{ tag := b.next, port := port, who := .mgmt 0, time := b.time }]))

/-- R42, R287, R288, R326, R327, R443 to R446 and R449: the fabric manager's vendor commands, of a device that serves commands, on an open path. FX_EXEC
carries out a form of the fabric class at P1 on core 0 and answers its status with the descriptor as written back; a fn or form that is not there,
RESULTPUT, or a length that is not the form's WORDS answers ST_INVALID. BARRIER joins the barriers that wait. RESULT_GET shows a slot and may
acknowledge it. Dynamic capacity requests reach a domain's instance only inside TUNNEL_KMD. RING_PUSH reaches rings with PORTAL 3 only, RING_POP
those with PORTAL 4. On a closed path nothing happens; in TERMINAL the answer is ST_FAULTED, before DEVICE_READY ST_NOT_READY. -/
def Obligations.FabricManagerVendorCommands : Prop :=
  ∀ (s : State) (ib ack : Bool) (fn slot ring : Fin 65536) (words : List Word) (lds cap first n vcs opcode : Nat) (dom : Fin 4096) (blocks : List Nat)
    (entry : Line),
    let ends := fun (i : Instr) (t : State) => exec i s = .next (done t)
    let say := fun (code : Nat) (ws : List Nat) (t : State) => { t with out := .resp .mgmt code ws :: t.out }
    let b := icuEdge 7384 (idleExit 7384 s)
    let rows := [Instr.fxExec ib fn words lds cap, .barrierGsync ib, .barrierMsync ib, .resultGet ib slot ack, .tunnelKmd ib dom opcode first n vcs blocks
      , .fmRingPush ib ring entry, .fmRingPop ib ring]
    let inner := [Instr.getDcdInfo dom, .getHostDcRegionConfig dom, .setDcRegionConfig, .getDcRegionExtentLists dom]
    let d := domOf b dom
    let u := 2 ^ 28
    let regions := (if d.privSize = 0 then [] else [0, 0, d.privSize * u, 0x200000])
      ++ (if d.scohSize = 0 then [] else [1, d.privSize * u, d.scohSize * u, 0x200000])
      ++ (if d.sncoSize = 0 then [] else [2, (d.privSize + d.scohSize) * u, d.sncoSize * u, 0x200000])
    let info := [(presenters b dom).length, regions.length / 4, spanOf d * u, 0x200000]
    let extents := d.extents.flatMap (fun k => [k * 0x200000, 0x200000])
    let tunnel := fun (o : Nat) => Instr.tunnelKmd ib dom o first n vcs blocks
    (pathOpen s ib = false ∨ alive s = false → ∀ i ∈ rows, ends i s)
    ∧ (alive s = false → ∀ i ∈ inner, ends i s)
    ∧ (alive s = true → s.flt.terminal = true →
      (pathOpen s ib = true → ∀ i ∈ rows, ends i (say Status.faulted.code [] s)) ∧ ∀ i ∈ inner, ends i (say Status.faulted.code [] s))
    ∧ (alive s = true → s.flt.terminal = false → s.pwr.devReady = false →
      (pathOpen s ib = true → ∀ i ∈ rows, ends i (say Status.notReady.code [] s)) ∧ ∀ i ∈ inner, ends i (say Status.notReady.code [] s))
    ∧ (Serving s →
      ends .setDcRegionConfig (say 0x300 [] b)
      ∧ (d.kmd = false → ends (.getDcdInfo dom) (say 0x200 [] b) ∧ ends (.getHostDcRegionConfig dom) (say 0x200 [] b) ∧ ends (.getDcRegionExtentLists dom) (say 0x200 [] b))
      ∧ (d.kmd = true → ends (.getDcdInfo dom) (say 0 info b) ∧ ends (.getHostDcRegionConfig dom) (say 0 regions b) ∧ ends (.getDcRegionExtentLists dom) (say 0 extents b))
      ∧ (pathOpen s ib = true →
        (let i := Instr.fxExec ib fn words lds cap
          let e : FxEnv := { who := .mgmt b.flg.seq, core := 0, p2 := false, w := words, lds := lds, cap := cap }
          let bs := { b with flg := { b.flg with seq := b.flg.seq + 1 } }
          let back := fun (outs : List (Nat × Word)) (dn : Nat) =>
            ((outs.foldl (fun l p => l.set p.1 p.2) words).set 0 (setFld (e.word 0) 31 0 dn)).map BitVec.toNat
          (words = [] → ends i (say 0x200 [] b))
          ∧ (words ≠ [] →
            ((∀ x ∈ fxTable, x.1.fn = fn.val → x.1.form = e.form → words.length ≠ x.1.words) → ends i (say Status.invalid.code (back [] 0) bs))
            ∧ (fn.val = 0x38 → ends i (say Status.invalid.code (back [] 0) bs))
            ∧ (∀ x ∈ fxTable, x.1.fn = fn.val → x.1.form = e.form → words.length = x.1.words →
              (∀ st outs dn t, x.2 x.1 e bs = .done st outs dn t → ends i (say st.code (back outs dn) t))
              ∧ (x.1.slot = .posts → e.slot < 16 ∨ 31 < e.slot → ends i (say Status.invalid.code (back [] 0) bs)))))
        ∧ ends (.barrierGsync ib) { b with gate := { b.gate with gsyncs := b.gate.gsyncs ++ [64] } }
        ∧ ends (.barrierMsync ib) { b with dlr := { b.dlr with msyncs := b.dlr.msyncs ++ [64] } }
        ∧ (let i := Instr.resultGet ib slot ack
          let x := slotOf b slot
          let head := fun (st code : Nat) => (word (st * 2 ^ 62 + x.core * 2 ^ 56 + x.op * 2 ^ 47 + code * 2 ^ 32 + x.seq)).toNat
          let image := head 2 x.status.code :: x.echo.toNat :: x.detail.toNat :: (word x.time).toNat :: (List.range 4).map (fun k => (x.data.getD k 0).toNat)
          (4096 ≤ slot.val → ends i (say Status.invalid.code [] b))
          ∧ (slot.val < 4096 →
            (x.st = 1 → ends i (say Status.notReady.code (head 1 4 :: List.replicate 7 0) b))
            ∧ (x.st = 2 → ack = false → ends i (say 0 image b))
            ∧ (x.st = 2 → ack = true → ends i (say 0 image (slotPut slot { x with st := 0 } b)))
            ∧ (x.st = 0 → ends i (say (if ack then Status.conflict.code else 0) (head 0 4 :: List.replicate 7 0) b))))
        ∧ (d.kmd = true → ends (tunnel 0x5600) (say 0 info b) ∧ ends (tunnel 0x5601) (say 0 regions b) ∧ ends (tunnel 0x5603) (say 0 extents b))
        ∧ ends (tunnel 0x5602) (say 0x300 [] b)
        ∧ (opcode < 0x5600 ∨ 0x5605 < opcode → ends (tunnel opcode) (say 0x300 [] b))
        ∧ (d.st ≠ .active → ends (tunnel 0x5604) (say Status.denied.code [] b))
        ∧ (d.st = .active → (n = 0 ∨ spanOf d * 128 < first + n) → ends (tunnel 0x5604) (say Status.invalid.code [] b))
        ∧ (let r := ringOf b ring
          (r.en = false ∨ r.portal ≠ 3 → ends (.fmRingPush ib ring entry) (say Status.denied.code [] b))
          ∧ (r.en = true → r.portal = 3 → posDiff r.w r.rel = ringCap r → ∃ t, ends (.fmRingPush ib ring entry) (say Status.noSpace.code [] t) ∧ Reported b t)
          ∧ (r.en = true → r.portal = 3 → posDiff r.w r.rel ≠ ringCap r → ∃ t, ends (.fmRingPush ib ring entry) (say 0 [r.w] t)
            ∧ Signals (ringPut ring (ringPushE b.time entry r) b) t)
          ∧ (r.en = false ∨ r.portal ≠ 4 → ends (.fmRingPop ib ring) (say Status.denied.code [] b))
          ∧ (r.en = true → r.portal = 4 → r.rd = r.w → ends (.fmRingPop ib ring) (say Status.notReady.code [] b))
          ∧ (r.en = true → r.portal = 4 → r.rd ≠ r.w → r.bad.contains r.rd = true →
            ∃ t, ends (.fmRingPop ib ring) (say Status.poisoned.code [r.rd, 0] t) ∧ (ringOf t ring).rd = (r.rd + 1) % 2 ^ 32)
          ∧ (r.en = true → r.portal = 4 → r.rd ≠ r.w → r.bad.contains r.rd = false →
            ∃ t tm, ends (.fmRingPop ib ring) (say 0 [r.rd, (sget 0 r.ents r.rd).toNat] t)
              ∧ Signals (ringPut ring (ringRelease ((r.rd + 1) % 2 ^ 32) { r with rd := (r.rd + 1) % 2 ^ 32, fired := false, timer := tm }) b) t))))

/-- R65, R74, R80, R81, R225, R251, R437, R447 and R455: MEM_READ, MEM_WRITE and the console. A length outside 1 to 4,080 is Invalid Input; an address outside the
DAS map or in a core's local range, an access that crosses the end of its range or of its aperture window, a DAHI outside the aperture and a
device register access that is not of whole words answer ST_INVALID, the Oasis range ST_DENIED; an access that the Gate refuses on any line
answers ST_DENIED, is recorded, and transfers nothing. A read answers the bytes, a write stores them and nothing else; an access to the
aperture sends its lines' requests, at DAHI and the low 34 bits. The console makes P1 accesses in MANUFACTURE and DEBUG_UNLOCKED only
(its command is given as its access, log entry 61, DESIGN CHOICE); a locked line reads as zeros and sounds the alarm. -/
def Obligations.MemoryCommandsAndConsole : Prop :=
  ∀ (s : State) (ib : Bool) (das : Word) (len : Nat) (dahi : Fin 4096) (bytes : List Byte),
    let ends := fun (i : Instr) (t : State) => exec i s = .next (done t)
    let say := fun (c : Chan) (code : Nat) (ws : List Nat) (t : State) => { t with out := .resp c code ws :: t.out }
    let b := icuEdge 7384 (idleExit 7384 s)
    let a := das.toNat
    let local_ := a ≤ 0x1FFFF ∨ (0x100000 ≤ a ∧ a ≤ 0x13FFFF)
    let dev := 0x20000000 ≤ a ∧ a < 0x2C000000
    let devAll := 0x20000000 ≤ a ∧ a ≤ 0x2FFFFFFF
    let shared := 0x10000000 ≤ a ∧ a ≤ 0x10FFFFFF
    let oasis := 0x010000000000 ≤ a ∧ a ≤ 0x013FFFFFFFFF
    let aper := 0x800000000000 ≤ a ∧ a ≤ 0xBFFFFFFFFFFF
    let fits := fun (n : Nat) => (shared ∧ a + n ≤ 0x11000000) ∨ (devAll ∧ a + n ≤ 0x30000000) ∨ (oasis ∧ a + n ≤ 0x014000000000)
      ∨ (aper ∧ a / 2 ^ 34 = (a + n - 1) / 2 ^ 34)
    let whole := fun (n : Nat) => dev → a % 8 = 0 ∧ n % 8 = 0
    let byteAt := fun (u : State) (k : Nat) => match memAddr 0 k with
      | some x => memByte u.flg.mem x
      | none => BitVec.ofNat 8 ((devWord u (k / 8 * 8)).toNat / 2 ^ (8 * (k % 8)))
    let accesses : List (Instr × Bool × Nat) := [(.memRead ib das len dahi, false, len), (.memWrite ib das dahi bytes, true, bytes.length)]
    (pathOpen s ib = false ∨ alive s = false → ∀ x ∈ accesses, ends x.1 s)
    ∧ (Serving s → pathOpen s ib = true → ∀ x ∈ accesses,
      let n := x.2.2
      let p := if x.2.1 then Perm.w else Perm.r
      (n = 0 ∨ 4080 < n → ends x.1 (say .mgmt 0x200 [] b))
      ∧ (1 ≤ n → n ≤ 4080 →
        (local_ ∨ ¬ fits n ∨ (¬ aper ∧ dahi.val ≠ 0) ∨ (fits n ∧ ¬ whole n) → ends x.1 (say .mgmt Status.invalid.code [] b))
        ∧ (oasis → fits n → dahi.val = 0 → ends x.1 (say .mgmt Status.denied.code [] b))
        ∧ (fits n → ¬ oasis → ¬ aper → dahi.val = 0 → whole n →
          (∀ v, dasCheck b a n .p1 p = some v → ∃ t, ends x.1 (say .mgmt Status.denied.code [] t) ∧ t.flg = b.flg ∧ t.dlr = b.dlr ∧ t.oas = b.oas)
          ∧ (dasCheck b a n .p1 p = none →
            (x.2.1 = false → rangeBad b a n = true → ends x.1 (say .mgmt Status.poisoned.code [] b))
            ∧ (x.2.1 = false → rangeBad b a n = false → ends x.1 (say .mgmt 0 [leNat ((List.range n).map (fun i => byteAt b (a + i)))] b))
            ∧ (x.2.1 = true → dev → n = 8 → ends x.1 (say .mgmt 0 [] (devStore none a (word (leNat bytes)) b)))
            ∧ (x.2.1 = true → ¬ dev → ∃ t, ends x.1 (say .mgmt 0 [] t)
              ∧ (∀ i < n, ∀ k, memAddr 0 (a + i) = some k → memByte t.flg.mem k = bytes.getD i 0)
              ∧ (∀ k, (∀ i < n, memAddr 0 (a + i) ≠ some k) → memByte t.flg.mem k = memByte b.flg.mem k)
              ∧ ∃ m e, t = { b with flg := { b.flg with mem := m, bad := e } })))
        ∧ (aper → fits n →
          let dom := a / 2 ^ 34 % 4096
          let da := dahi.val * 2 ^ 34 + a % 2 ^ 34
          (∀ v, daCheck b dom da n .p1 p true = some v → ∃ t, ends x.1 (say .mgmt Status.denied.code [] t) ∧ t.flg = b.flg ∧ t.dlr = b.dlr ∧ t.oas = b.oas)
          ∧ (daCheck b dom da n .p1 p true = none → ∃ t, ends x.1 t)
          ∧ (daCheck b dom da n .p1 p true = none → da % 64 + n ≤ 64 →
            let r : Req := { mkReq b.next (.mgmt b.flg.seq) (if x.2.1 then .wrPtl else .rdI) dom (da / 64 * 64) (apMode b dom (da / 64 * 64)) with
              data := BitVec.ofNat 512 (leNat (if x.2.1 then bytes else []) * 2 ^ (8 * (da % 64))), mask := word ((2 ^ n - 1) * 2 ^ (da % 64)), time := b.time }
            let o : MgmtOp := { seq := b.flg.seq, kind := if x.2.1 then 3 else 2, reqs := [b.next], addr := da, len := n, bytes := [], st := .ok }
            ∃ t, ends x.1 (dispatchReq r t) ∧ r ∈ t.reqs ∧ o ∈ t.flg.mops ∧ t.out = b.out))))
    ∧ (let i := Instr.consoleCommand das
      let open_ := s.emr.life = .manufacture ∨ s.emr.life = .debugUnlocked
      let c := { s with mgt := { s.mgt with console := s.mgt.console + 1 } }
      (¬ open_ ∨ alive s = false → ∀ w, ends (i w bytes) s)
      ∧ (open_ → alive s = true →
        (bytes.length = 0 ∨ 64 < bytes.length → ends (i true bytes) c)
        ∧ ((∃ l ∈ linesOf a 8, lockedLine c l = true) → ∃ t, ends (i false bytes) t ∧ Out.resp .console 0 [0] ∈ t.out ∧ t.emr.alarmN = true)
        ∧ ((∀ l ∈ linesOf a 8, lockedLine c l = false) → shared → a + 8 ≤ 0x11000000 → dasCheck c a 8 .p1 .r = none → rangeBad c a 8 = false →
          ends (i false bytes) (say .console 0 [leNat ((List.range 8).map (fun k => byteAt c (a + k)))] c))
        ∧ ((∀ l ∈ linesOf a 8, lockedLine c l = false) → (local_ ∨ (¬ aper ∧ ¬ fits 8)) → ends (i false bytes) (say .console Status.invalid.code [] c))))

/-- R312, R313, R435, R436, R440, R444, R448, R468, R469, R489 and R493: program load, the boot flash and the records. PROG_LOAD collects chunks of one
path in order; the last one checks header, signature, core and log in that order, and only then records the image and enters the program at P2.
PROG_STOP records the stop and leaves the core at P1 with every slot of its P2 range idle. BOOT_RECORD_GET answers before DEVICE_READY, and it
and FAULT_HISTORY_GET answer in TERMINAL. FLASH_WRITE collects whole sectors, refuses the slot that the running firmware came from, and
writes in the background, sector by sector (chunks: log entry 54, DEDUCED). (An idle core's PC is free, log entry 63, DEDUCED.) -/
def Obligations.FirmwareAndRecordCommands : Prop :=
  ∀ (s : State) (ib fst_ last : Bool) (core age : Fin 256) (offset len first : Nat) (bytes : List Byte),
    let ends := fun (i : Instr) (t : State) => exec i s = .next (done t)
    let say := fun (code : Nat) (ws : List Nat) (t : State) => { t with out := .resp .mgmt code ws :: t.out }
    let b := icuEdge 7384 (idleExit 7384 s)
    let load := Instr.progLoad ib core fst_ last offset bytes
    let stop := Instr.progStop ib core
    let write := Instr.flashWrite ib offset last bytes
    let boot := Instr.bootRecordGet ib age
    let hist := Instr.faultHistoryGet ib first
    let rows := [load, stop, .measureLogGet ib first, write, .flashRead ib offset len]
    let busyElse := ∃ x, b.mgt.asm = some x ∧ x.core = core.val ∧ x.path ≠ b2n ib
    let logs := fun (t : State) (typ : Nat) (msg : List Byte) => ∃ x : LogEnt, x.typ = typ ∧ x.core = core.val ∧ x.msg = msg ∧ t.emr.log = b.emr.log ++ [x]
    let calm := b.dlr.moves = [] ∧ ∀ c ∈ b.dlr.cars, (carOf b c.1).st = .none
    let served := pathOpen s ib = true ∧ alive s = true
    (¬ served → (∀ i ∈ rows, ends i s) ∧ ends boot s ∧ ends hist s)
    ∧ (served → s.flt.terminal = true → ∀ i ∈ rows, ends i (say Status.faulted.code [] s))
    ∧ (served → s.flt.terminal = false → s.pwr.devReady = false → (∀ i ∈ rows, ends i (say Status.notReady.code [] s)) ∧ ends hist (say Status.notReady.code [] s))
    ∧ (served →
      ((readRecs b)[age.val]? = none → ends boot (say Status.invalid.code [] b))
      ∧ (∀ r, (readRecs b)[age.val]? = some r → ends boot (say 0 [leNat (recBytes b r)] b)))
    ∧ (served → s.flt.terminal = true ∨ s.pwr.devReady = true →
      ∃ rs : List HistRec, ends hist (say 0 (rs.map (fun r => leNat (histBytes r))) b) ∧ rs.Pairwise (fun x y => x.recno ≤ y.recno) ∧ rs.length ≤ 63
        ∧ (∀ r ∈ rs, r ∈ b.flt.main ++ b.flt.prot ∧ first ≤ r.recno) ∧ (rs.length < 63 → ∀ r ∈ b.flt.main ++ b.flt.prot, first ≤ r.recno → r ∈ rs))
    ∧ (Serving s → pathOpen s ib = true →
      (∃ ws, ends (.measureLogGet ib first) (say 0 ws b) ∧ ws.length = min 42 (b.emr.log.length - (max first 1 - 1))
        ∧ ∀ k < ws.length, ∀ x, b.emr.log[max first 1 - 1 + k]? = some x → ws[k]? = some (leNat (logBytes (max first 1 + k) x)))
      ∧ (len = 0 ∨ 4080 < len → ends (.flashRead ib offset len) (say 0x200 [] b))
      ∧ (1 ≤ len → len ≤ 4080 → b.mgt.flashLen < offset + len → ends (.flashRead ib offset len) (say Status.invalid.code [] b))
      ∧ (1 ≤ len → len ≤ 4080 → offset + len ≤ b.mgt.flashLen →
        ends (.flashRead ib offset len) (say 0 [leNat ((memRead b.mgt.flash offset len).map (fun x => ~~~ x))] b))
      ∧ (bytes = [] ∨ 4080 < bytes.length → ends write (say 0x200 [] b))
      ∧ (bytes ≠ [] → bytes.length ≤ 4080 →
        let sec := offset / 65536
        let more := sec ∈ b.mgt.flashOp ∧ b.mgt.flashPos / 65536 = sec
        let bad := offset % 65536 ≠ 0 ∨ b.mgt.flashLen ≤ offset
        let lock := ∃ k, b.mgt.runSlot = some k ∧ if k = 0 then offset < b.mgt.flashLen / 2 else b.mgt.flashLen / 2 ≤ offset
        (b.mgt.flashRun = true → ends write (say 0x600 [] b))
        ∧ (b.mgt.flashRun = false → bad → ends write (say Status.invalid.code [] b))
        ∧ (b.mgt.flashRun = false → ¬ bad → lock → bytes.length ≤ 65536 → ¬ more → ends write (say Status.locked.code [] b))
        ∧ (b.mgt.flashRun = false → ¬ bad → ¬ lock → ∀ pos, (more → pos = b.mgt.flashPos) → (¬ more → pos = offset) →
          (offset + 65536 < pos + bytes.length → ends write (say Status.invalid.code [] b))
          ∧ (pos + bytes.length ≤ offset + 65536 → ∃ t, ends write (say 0 [] t) ∧ t = { b with mgt := t.mgt } ∧ t.mgt.flash = b.mgt.flash
            ∧ (∀ k < bytes.length, memByte t.mgt.flashBuf (pos + k) = ~~~ bytes.getD k 0) ∧ sec ∈ t.mgt.flashOp ∧ t.mgt.flashRun = last
            ∧ t.mgt.flashPos = if last then 0 else pos + bytes.length)))
      ∧ (64 ≤ core.val → ends stop (say Status.invalid.code [] b) ∧ (bytes.length ≤ 4080 → ends load (say Status.invalid.code [] b)))
      ∧ (4080 < bytes.length → ends load (say 0x200 [] b))
      ∧ (core.val < 64 → busyElse → ends stop (say Status.busy.code [] b) ∧ (bytes.length ≤ 4080 → ends load (say Status.busy.code [] b)))
      ∧ (core.val < 64 → ¬ busyElse →
        (1024 ≤ b.emr.log.length → ends stop (say Status.noSpace.code [] b))
        ∧ (b.emr.log.length < 1024 → ∃ t, ends stop (say 0 [] t) ∧ (coreOf t core).st = .run ∧ (coreOf t core).p2 = false ∧ (coreOf t core).depth = 0
          ∧ (∀ k, 64 * core.val + 32 ≤ k → k < 64 * core.val + 64 → (slotOf t k).st = 0) ∧ (calm → logs t 2 []))
        ∧ (bytes.length ≤ 4080 →
          let follows := if fst_ then offset = 0 else ∃ x, b.mgt.asm = some x ∧ x.core = core.val ∧ x.len = offset
          let img := memWrite (if fst_ then [] else b.mgt.image) offset bytes
          let l := offset + bytes.length
          let c := { b with mgt := { b.mgt with asm := none, image := [] } }
          let signed := progForm img l = true ∧ progSigned c img l = true
          let assigned := bit (imgWord img 0x20) core = true ∧ policyCore b core = true
          let code := prNat img 8 4
          let data := prNat img 0xC 4
          (¬ follows → ends load (say Status.conflict.code [] b))
          ∧ (follows → 393216 < l → ends load (say Status.invalid.code [] b))
          ∧ (follows → l ≤ 393216 → last = false → ends load (say 0 [] { b with mgt := { b.mgt with
            asm := some { core := core.val, path := b2n ib, len := l }, image := img } }))
          ∧ (follows → l ≤ 393216 → last = true →
            (progForm img l = false → ends load (say Status.invalid.code [] c))
            ∧ (progForm img l = true → ¬ signed → ∃ t, ends load (say Status.denied.code [] t) ∧ t.flg = c.flg ∧ (fltOf t fEmrSigfail).latch = true)
            ∧ (signed → ¬ assigned → ends load (say Status.denied.code [] c))
            ∧ (signed → assigned → 1024 ≤ b.emr.log.length → ends load (say Status.noSpace.code [] c))
            ∧ (signed → assigned → b.emr.log.length < 1024 → ∃ t, ends load (say 0 [] t)
              ∧ (coreOf t core).st = .run ∧ (coreOf t core).p2 = true ∧ (coreOf t core).ie = true ∧ (coreOf t core).depth = 0 ∧ (coreOf t core).g = []
              ∧ (coreOf t core).pc = 0x4000 + prNat img 0x10 4
              ∧ (∀ k < code, memByte t.flg.mem (coreWin core + 0x4000 + k) = memByte img (0x80 + k))
              ∧ (∀ k < 0x3C000, memByte t.flg.mem (coreWin core + 0x44000 + k) = if k < data then memByte img (0x80 + code + k) else 0)
              ∧ (∀ k, 64 * core.val + 32 ≤ k → k < 64 * core.val + 64 → (slotOf t k).st = 0)
              ∧ (calm → logs t 1 (memRead img 0 l)))))))
    ∧ (s.mgt.flashRun = false → ends .flashSectorDone s)
    ∧ (∀ k r, s.mgt.flashRun = true → s.mgt.flashOp = k :: r → Memory.wf s.mgt.flashBuf = true → ∃ t, ends .flashSectorDone t
      ∧ (∀ x, memByte t.mgt.flash x = if k * 65536 ≤ x ∧ x < k * 65536 + 65536 then memByte s.mgt.flashBuf x else memByte s.mgt.flash x)
      ∧ t.mgt.flashOp = r ∧ t.mgt.flashDone = s.mgt.flashDone + 1 ∧ (t.mgt.flashRun = true ↔ r ≠ []) ∧ t = { s with mgt := t.mgt })

/-- R24, R36, R37, R169, R400, R444, R450 and R451: the mailbox, the configuration and BAR0 of a KMD instance. They answer the host of a VCS that presents
the instance while its link is up, and only for that domain; from any other host nothing happens. Identify gives the tenant device's IDs, the
event commands act on this VCS's logs alone, device time is read and not set, Get Log offers the Command Effects Log only, static capacity
is 0, dynamic capacity follows the domain's sizes, rings are the domain's PORTAL 1 and 2 rings. A BAR0 register reads back what was
written to its own copy, and BIND_KMD_INFO the domain. (The UUID and the effects: log entries 58 and 3; unwritten registers: 60.) -/
def Obligations.TenantMailboxCommands : Prop :=
  ∀ (s : State) (vcs : Fin 64) (dom : Fin 4096) (log : Fin 5) (all wr bar : Bool) (hs : List Nat) (pol inc first : Nat) (time : Word) (uuid : BitVec 128)
    (entry : Line) (age : Fin 256) (off : Fin 65536) (v : Word),
    let ends := fun (i : Instr) (t : State) => exec i s = .next (done t)
    let say := fun (code : Nat) (ws : List Nat) (t : State) => { t with out := .resp (.kmd vcs dom) code ws :: t.out }
    let key := vcs.val * 4096 + dom.val
    let l := sget {} s.dom.logs key
    let put := fun (x : EvLog) => { s with dom := { s.dom with logs := sset {} s.dom.logs key x } }
    let d := domOf s dom
    let u := 2 ^ 28
    let rows := [Instr.kmdIdentify vcs dom, .kmdGetEventRecords vcs dom log, .kmdClearEventRecords vcs dom log all hs, .kmdGetEventIntPolicy vcs dom
      , .kmdSetEventIntPolicy vcs dom pol, .getTimestamp vcs dom, .setTimestamp vcs dom time, .getSupportedLogs vcs dom, .getLog vcs dom uuid
      , .identifyMemoryDevice vcs dom, .getDcConfiguration vcs dom, .getDcExtentList vcs dom, .lossListGet vcs dom inc first, .kmdRingPush vcs dom entry
      , .kmdRingPop vcs dom, .kmdBootRecordGet vcs dom age, .kmdConfigAccess vcs dom bar off wr v]
    let here := (presenters s dom).contains vcs.val = true ∧ ∃ p, portOfVcs? s vcs = some p ∧ linkUp s p = true
    let access := fun (b w : Bool) => Instr.kmdConfigAccess vcs dom b off w v
    (¬ here → ∀ i ∈ rows, ends i s)
    ∧ (here →
      ends (.kmdIdentify vcs dom) (say 0 [0x1F3B, 0x4861] s)
      ∧ (let x := sget (0, 0, 0) l.overflow log.val
        ends (.kmdGetEventRecords vcs dom log)
          (say 0 (x.1 :: x.2.1 :: x.2.2 :: (l.recs.filter (fun r => r.1 == log.val)).flatMap (fun r => r.2.1 :: evWords r.2.2)) s))
      ∧ (∃ rs o, ends (.kmdClearEventRecords vcs dom log all hs) (say 0 [] (put { l with recs := rs, overflow := o }))
        ∧ ∀ r, r ∈ rs ↔ r ∈ l.recs ∧ ¬ (r.1 = log.val ∧ (all = true ∨ r.2.1 ∈ hs)))
      ∧ ends (.kmdGetEventIntPolicy vcs dom) (say 0 [l.policy] s)
      ∧ ends (.kmdSetEventIntPolicy vcs dom pol) (say 0 [] (put { l with policy := pol }))
      ∧ ends (.getTimestamp vcs dom) (say 0 [s.time] s) ∧ ends (.setTimestamp vcs dom time) (say 0 [] s)
      ∧ ends (.getSupportedLogs vcs dom) (say 0 [celUuid, 72] s)
      ∧ (uuid.toNat ≠ celUuid → ends (.getLog vcs dom uuid) (say 0x200 [] s))
      ∧ (uuid.toNat = celUuid → ends (.getLog vcs dom uuid) (say 0 ([0x0001, 0x0100, 0x0101, 0x0102, 0x0103, 0x0300, 0x0301, 0x0400, 0x0401, 0x4000, 0x4800
        , 0x4801, 0x4802, 0x4803, 0xC100, 0xC101, 0xC102, 0xC103].flatMap (fun o => [o, (Config.celEffects o).toNat])) s))
      ∧ ends (.identifyMemoryDevice vcs dom) (say 0 [0, 0] s)
      ∧ ends (.getDcConfiguration vcs dom) (say 0 ((if d.privSize = 0 then [] else [0, 0, d.privSize * u, 0x200000])
        ++ (if d.scohSize = 0 then [] else [1, d.privSize * u, d.scohSize * u, 0x200000])
        ++ (if d.sncoSize = 0 then [] else [2, (d.privSize + d.scohSize) * u, d.sncoSize * u, 0x200000])) s)
      ∧ ends (.getDcExtentList vcs dom) (say 0 (d.extents.flatMap (fun k => [k * 0x200000, 0x200000])) s)
      ∧ (∃ rs : List EvKind, ends (.lossListGet vcs dom inc first) (say 0 (rs.flatMap evWords) s) ∧ rs.length ≤ 51
        ∧ ∀ x ∈ rs, (vcs.val, dom.val, x) ∈ s.dom.lossList ∧ ∃ c fl dv dm h ln n t, x = .memLoss c fl dv dm h ln n inc t)
      ∧ ((readRecs s)[age.val]? = none → ends (.kmdBootRecordGet vcs dom age) (say Status.invalid.code [] s))
      ∧ (∀ r, (readRecs s)[age.val]? = some r → ends (.kmdBootRecordGet vcs dom age) (say 0 [leNat (recBytes s r)] s))
      ∧ ((∀ r ∈ s.ring.rings, ¬ (r.2.en = true ∧ r.2.portal = 1 ∧ r.2.dom = dom.val)) → ends (.kmdRingPush vcs dom entry) (say Status.denied.code [] s))
      ∧ ((∀ r ∈ s.ring.rings, ¬ (r.2.en = true ∧ r.2.portal = 2 ∧ r.2.dom = dom.val)) → ends (.kmdRingPop vcs dom) (say Status.denied.code [] s))
      ∧ (∀ k, domRing s dom 1 = some k →
        let r := ringOf s k
        (posDiff r.w r.rel = ringCap r → ∃ t, ends (.kmdRingPush vcs dom entry) (say Status.noSpace.code [] t) ∧ Reported s t)
        ∧ (posDiff r.w r.rel ≠ ringCap r → ∃ t, ends (.kmdRingPush vcs dom entry) (say 0 [r.w] t) ∧ Signals (ringPut k (ringPushE s.time entry r) s) t))
      ∧ (∀ k, domRing s dom 2 = some k →
        let r := ringOf s k
        (r.rd = r.w → ends (.kmdRingPop vcs dom) (say Status.notReady.code [] s))
        ∧ (r.rd ≠ r.w → r.bad.contains r.rd = false → ∃ t tm, ends (.kmdRingPop vcs dom) (say 0 [r.rd, (sget 0 r.ents r.rd).toNat] t)
          ∧ Signals (ringPut k (ringRelease ((r.rd + 1) % 2 ^ 32) { r with rd := (r.rd + 1) % 2 ^ 32, fired := false, timer := tm }) s) t))
      ∧ (let base := sget (0, false) s.meld.base key
        let note := sget (false, 0) s.mgt.notify key
        (off.val = 0x1000 → ends (access true false) (say 0 [base.1 * 2 ^ 35 + b2n base.2] s)
          ∧ ends (access true true) { s with meld := { s.meld with base := sset (0, false) s.meld.base key (fld v 45 35, bit v 0) } })
        ∧ (off.val = 0x1008 → ends (access true false) (say 0 [b2n note.1 * 2 ^ 8 + note.2] s)
          ∧ ends (access true true) { s with mgt := { s.mgt with notify := sset (false, 0) s.mgt.notify key (bit v 8, fld v 2 0) } })
        ∧ (off.val = 0x1010 → ends (access true false) (say 0 [dom.val] s) ∧ ends (access true true) s)
        ∧ (0x1000 ≤ off.val → off.val ≠ 0x1000 → off.val ≠ 0x1008 → off.val ≠ 0x1010 → ends (access true false) (say 0 [0] s) ∧ ends (access true true) s)
        ∧ (off.val = 0 → ends (access false false) (say 0 [0x48611F3B] s))
        ∧ (∀ b, (b = true → off.val < 0x1000) → off.val < 4096 →
          let k := ((if b then 400000 else 100000) + key) * 4096 + off.val
          ends (access b true) { s with mgt := { s.mgt with cfg := sput s.mgt.cfg k v } }
          ∧ (∀ x, sfind? s.mgt.cfg k = some x → (b = false → off.val ≠ 0) → ends (access b false) (say 0 [x.toNat] s)))))

/-- R58, R330, R397 and R514 to R525: the slot power controllers. A card seated for 100 ms on a valid feed ramps from WAIT, on the preferred feed where that is valid; full
enhancement ends in ON and asserts PG, unless the breaker timer starts in the same step. In ON the loss of the active feed, or the return of the preferred
one, starts a switchover through both gates off; the loss of both feeds turns off. Each trip acts only where it is armed and its threshold is reached; a
turn-off records its cause, goes to the state that the cause names, drops PG and EW and PERST_N, and, for a protection cause, counts, raises SPC_FAULT and
loses the slot's pool device, as removal does. OFF, ON and CLEAR act in the states that take them. EVENTS drives the controller's interrupt source.
(A ramp trip armed at a fast trip: log entry 42, DEDUCED. OFF in WAIT or COOL: log entry 41, DEDUCED.) -/
def Obligations.SlotPowerControllers : Prop :=
  ∀ (s : State) (slot : Fin 32) (low b early on off : Bool) (level vout : Fin 2048) (sense : Fin 4096) (bits : Fin 16),
    let ends := fun (i : Instr) (t : State) => exec i s = .next (done t)
    let n := slot.val
    let c := spcOf s n
    let cfg := spcCfg s n
    let uv := feedUv s n
    let pri := spcPri s n
    let active := fun (y : Spc) => y.st = 2 ∨ y.st = 3 ∨ y.st = 4
    let level_ := fun (u : State) => srcEdge (7328 + n) (srcOf s (7328 + n)) = false → (srcOf u (7328 + n)).levelIn = !((spcOf u n).events == 0)
    let is := fun (y : Spc) (u : State) => spcOf u n = y ∧ level_ u
    let to_ := fun (i : Instr) (y : Spc) => ∃ u, ends i u ∧ is y u
    let later := fun (i : Instr) (t : Nat) (y : Spc) => ∃ u, ends i u ∧ spcOf u n = y ∧ u.time = max s.time t
    let waits := fun (y : Spc) =>
      if y.st = 1 ∧ y.prsnt = true ∧ y.seated = true ∧ (feedOk s n y pri = true ∨ feedOk s n y (!pri) = true) ∧ s.pwr.pwrOk = true then
        { y with st := 2, feed := if feedOk s n y pri = true then pri else !pri, gate := true, full := false, armed := true }
      else y
    let switching := fun (y : Spc) =>
      { y with st := 4, gate := false, full := false, armed := false, ew := true, events := if y.ew = true then y.events else y.events ||| 2 }
    let low_ := fun (u : State) => ∀ p ∈ spcPorts s n, (cxpOf u p).perst = false
    let lost := fun (u : State) => ∀ d, (devOf s d).bound = true → (devOf s d).port ∈ spcPorts s n → devLost u d = true
    let offs := fun (k : Nat) (y : Spc) (u : State) =>
      let next := if k = 3 ∨ k = 4 then 6 else if k = 6 ∨ k = 8 then 0 else if k = 7 then 1 else if cfg 0 62 62 = 1 ∧ y.retries < 7 then 5 else 6
      let x := spcOf u n
      x.st = next ∧ x.last = k ∧ x.gate = false ∧ x.full = false ∧ x.armed = false ∧ x.timer = false ∧ x.pg = false ∧ x.ew = false
        ∧ x.retries = (if next = 5 then y.retries + 1 else y.retries) ∧ x.trips = (if k ≤ 5 then min (2 ^ 32 - 1) (y.trips + 1) else y.trips)
        ∧ x.events = (if y.pg = true then y.events ||| 1 else y.events) ||| 4 ∧ x.prsnt = y.prsnt ∧ x.feed = y.feed
        ∧ (k ≤ 5 → (fltOf u (fSpc n)).latch = true) ∧ (y.pg = true → low_ u) ∧ (k ≤ 6 → lost u) ∧ level_ u
    let trips := fun (i : Instr) (k : Nat) => ∃ u, ends i u ∧ offs k c u
    let checked := fun (i : Instr) (y : Spc) =>
      let a := feedOk s n y y.feed = true
      let o := feedOk s n y (!y.feed) = true
      (active y → ¬ a → ¬ o → ∃ u, ends i u ∧ offs 7 y u) ∧ (y.st = 3 → ¬ a → o → to_ i (switching y))
        ∧ (¬ active y ∨ a ∨ (y.st ≠ 3 ∧ o) → to_ i y)
    (let i := Instr.prsntChange slot low
      let z := { c with prsnt := low, seated := false, prsntAt := s.time, events := c.events ||| 8 }
      (c.prsnt = low → ends i s) ∧ (c.prsnt = false → low = true → to_ i z)
      ∧ (c.prsnt = true → low = false → active c → ∃ u, ends i u ∧ offs 6 z u)
      ∧ (c.prsnt = true → low = false → ¬ active c → ∃ u, ends i u ∧ spcOf u n = z ∧ lost u))
    ∧ (c.prsnt = false ∨ c.seated = true → ends (.spcPresenceWaitExpire slot) s)
    ∧ (c.prsnt = true → c.seated = false → later (.spcPresenceWaitExpire slot) (c.prsntAt + 100000000) (waits { c with seated := true }))
    ∧ (let y := c.feedAt b level.val
      (level.val ≤ uv → ends (.feedValid slot b level) s)
      ∧ (uv < level.val → checked (.feedValid slot b level) (waits (if b = true then { y with validB := true } else { y with validA := true })))
      ∧ (uv ≤ level.val → ends (.feedInvalid slot b level) s)
      ∧ (level.val < uv → checked (.feedInvalid slot b level) (if b = true then { y with validB := false } else { y with validA := false })))
    ∧ (let i := Instr.gateEnhanced slot vout early
      let full := (c.st = 2 ∨ c.st = 4) ∧ c.gate = true ∧ 95 * c.feedV c.feed ≤ 100 * vout.val
      let z := { c.voutAt vout.val with st := 3, full := true, armed := false, onAt := s.time, timer := early }
      (¬ full → ends i s) ∧ (full → early = true → checked i (z.ewTo true)) ∧ (full → early = false → checked i (z.pgTo true)))
    ∧ (let i := Instr.bbmExpire slot
      (¬ (c.st = 4 ∧ c.gate = false) → ends i s) ∧ (c.st = 4 → c.gate = false → to_ i { c with feed := !c.feed, gate := true, armed := true, timer := false }))
    ∧ (let i := Instr.preferredFeedReturn slot
      let may := c.st = 3 ∧ c.feed ≠ pri ∧ feedOk s n c pri = true
      (¬ may → ends i s) ∧ (may → to_ i (switching c)))
    ∧ (let fast := active c ∧ 10 * cfg 0 53 46 ≤ sense.val
      let ramp := c.armed = true ∧ 10 * cfg 0 37 30 ≤ sense.val
      let start := (c.st = 3 ∨ c.st = 4) ∧ c.armed = false ∧ c.timer = false ∧ 10 * cfg 0 45 38 ≤ sense.val
      let stop := c.timer = true ∧ sense.val < 10 * cfg 0 45 38
      let y := { c.senseAt sense.val with timer := false }
      (¬ fast → ends (.fastTrip slot sense) s) ∧ (fast → trips (.fastTrip slot sense) (if c.armed = true then 1 else 2))
      ∧ (¬ ramp → ends (.shortInRamp slot sense) s) ∧ (ramp → trips (.shortInRamp slot sense) 1)
      ∧ (¬ start → ends (.breakerTimerStart slot sense) s)
      ∧ (start → to_ (.breakerTimerStart slot sense) (Spc.ewTo { c.senseAt sense.val with timer := true } true))
      ∧ (¬ stop → ends (.breakerTimerStop slot sense) s)
      ∧ (stop → to_ (.breakerTimerStop slot sense) (if c.st = 3 ∧ c.full = true then y.pgTo true else y))
      ∧ (c.timer = false → ends (.breaker slot) s) ∧ (c.timer = true → trips (.breaker slot) 5))
    ∧ (¬ (active c ∧ c.gate = true) → ends (.gateStuck slot) s) ∧ (active c → c.gate = true → trips (.gateStuck slot) 4)
    ∧ (let short := ¬ active c ∧ s.pwr.pwrOk = true ∧ max (c.feedV false) (c.feedV true) < 10 * vout.val
      (¬ short → ends (.fetShort slot vout) s) ∧ (short → trips (.fetShort slot vout) 3))
    ∧ (c.st ≠ 5 → ends (.coolExpire slot) s)
    ∧ (c.st = 5 → later (.coolExpire slot) (c.coolAt + 1000000000) (waits { c with st := 1 }))
    ∧ (c.st ≠ 3 → ends (.retriesReset slot) s)
    ∧ (c.st = 3 → later (.retriesReset slot) (c.onAt + 10000000000) { c with retries := 0 })
    ∧ (c.ew = false ∨ c.timer = true → ends (.ewFall slot) s)
    ∧ (c.ew = true → c.timer = false → to_ (.ewFall slot) { c with ew := false, warn := false })
    ∧ (c.st ≠ 0 → ends (.spcOn slot) s) ∧ (c.st = 0 → to_ (.spcOn slot) (waits { c with st := 1 }))
    ∧ (∀ i ∈ [Instr.spcOff slot on, .spcClear slot true on],
      (active c → trips i 8) ∧ (c.st = 1 ∨ c.st = 5 → to_ i { c with st := 0, last := 8 }) ∧ (c.st = 0 ∨ 6 < c.st → ends i s))
    ∧ (c.st = 6 → ends (.spcOff slot on) s ∧ to_ (.spcClear slot off on) { c with st := 0, retries := 0 })
    ∧ (c.st ≠ 6 → ends (.spcClear slot false on) s)
    ∧ to_ (.spcEventsClear slot bits) { c with events := c.events &&& (15 - bits.val) }
    ∧ (let warned := (c.st = 3 ∨ c.st = 4) ∧ level.val < cfg 1 52 42
      (¬ warned → ends (.feedWarn slot level) s) ∧ (warned → to_ (.feedWarn slot level) (Spc.ewTo { c.feedAt c.feed level.val with warn := true } true)))
    ∧ (let below := c.st = 4 ∧ vout.val < uv
      (¬ below → ends (.voutBelowFeedUv slot vout) s)
      ∧ (below → ∃ u, ends (.voutBelowFeedUv slot vout) u ∧ spcOf u n = (c.voutAt vout.val).pgTo false ∧ (c.pg = true → low_ u)))

/-- R235, R238, R462 to R467, R487, R489, R516, R527, R529, R531 to R533 and R535: power, resets, the boot and device idle. A reset, cold or warm, starts boot step 1 with
DEVICE_READY low, nothing in flight and cores, memories, the map, counters, keys and links as at power-up; what NVM, the boot flash and the fault history
hold stays. A cold reset restarts device time and turns every slot controller off; a warm one keeps time, the controllers, the retired list and the I3C address. Power good starts a
cold reset when it rises and when it falls; RESET_N starts a cold one, WARM_RESET_N a warm one unless RESET_N is low too; TERMINAL ignores both balls; a
block write that runs goes first. Each boot step passes, or stops the boot with a record of the step and its code; DEVICE_READY rises at the end of step 8 only.
Device idle ends with its cause recorded and the drift test run. -/
def Obligations.BootPowerAndResets : Prop :=
  ∀ (s : State) (test unwrap readA readB : Bool) (codes : BitVec 128) (bad : Fin 5) (source : Option (Fin 8191)),
    let ends := fun (i : Instr) (t : State) => exec i s = .next (done t)
    let fresh := fun (u : State) => u.pwr.devReady = false ∧ u.pwr.progress = 0 ∧ u.pwr.stopped = false ∧ u.reqs = [] ∧ u.coh = { CohSt.reset with peak := u.coh.peak }
      ∧ u.dlr = DlrSt.reset ∧ u.oas.lines = [] ∧ u.flg = FlgSt.reset ∧ u.ring.rings = [] ∧ u.gate = GateSt.reset ∧ u.pmu = PmuSt.reset ∧ u.regs = []
      ∧ u.trl.ports = [] ∧ u.cxp.doe = [] ∧ (∀ p, (cxpOf u p).link = 0) ∧ u.emr.sessions = [] ∧ u.emr.log = [] ∧ u.emr.nonce = none ∧ u.flt.terminal = false
      ∧ u.emr.life = s.emr.life ∧ u.emr.copies = s.emr.copies ∧ u.emr.keys = s.emr.keys ∧ u.emr.recs = s.emr.recs ∧ u.pwr.copyA = s.pwr.copyA
      ∧ u.pwr.copyB = s.pwr.copyB ∧ u.pwr.wear = s.pwr.wear ∧ u.mgt.flash = s.mgt.flash ∧ u.flt.main = s.flt.main ∧ u.flt.prot = s.flt.prot
    let cold := fun (u : State) => fresh u ∧ u.time = 0 ∧ u.oas.retired = [] ∧ u.mgt.i3c = false
      ∧ ∀ n, (spcOf u n).st = 0 ∧ (spcOf u n).gate = false ∧ (spcOf u n).pg = false
    let warm := fun (u : State) => fresh u ∧ u.pwr.step = (if s.pwr.pwrOk then 1 else 0) ∧ u.time = s.time ∧ u.oas.retired = s.oas.retired ∧ u.spc = s.spc
      ∧ u.mgt.i3c = s.mgt.i3c ∧ u.mgt.dynAddr = s.mgt.dynAddr
    let waits := fun (k : Nat) (u : State) => u.pwr.devReady = false ∧ u.pwr.resetReq = k ∧ u.pwr.writing = true
    let power := fun (p : PwrSt) => { s with pwr := p }
    let req := s.pwr.resetReq
    let i := Instr.bootStepAdvance test unwrap readA readB codes bad
    let k := s.pwr.step
    let runs := alive s = true ∧ s.pwr.stopped = false ∧ s.flt.terminal = false ∧ req = 0 ∧ (k = 1 ∨ scanHolds s = false)
    let passes := ∃ u, ends i u ∧ u.pwr.progress = k ∧ u.pwr.step = k + 1 ∧ (k ≠ 8 → u.pwr.devReady = s.pwr.devReady)
    let stored := fun (P : BootRec → Prop) (u : State) =>
      (bad.val < 4 → ∃ r, u.emr.recs.head? = some (some r) ∧ P r ∧ r.boots = u.pwr.boots ∧ r.time = s.time)
        ∧ (bad.val = 4 → u.pwr.stopped = true ∧ (fltOf u fNvmWriteFail).latch = true)
    let stops := fun (code : Nat) => ∃ u, ends i u ∧ u.pwr.stopped = true ∧ u.pwr.step = k ∧ u.pwr.devReady = s.pwr.devReady
      ∧ stored (fun r => r.outcome = k ∧ r.fcode = code ∧ r.digFh = 0 ∧ (k < 4 → r.digSet = 0)) u
    (s.pwr.pwrOk = true → ends .pwrOkRise s)
    ∧ (s.pwr.pwrOk = false → (s.pwr.writing = true → ends .pwrOkRise (power { s.pwr with pwrOk := true }))
      ∧ (s.pwr.writing = false → ∃ u, ends .pwrOkRise u ∧ cold u ∧ u.pwr.pwrOk = true ∧ u.pwr.step = 1))
    ∧ (s.pwr.pwrOk = false → ends .pwrOkFall s)
    ∧ (s.pwr.pwrOk = true → ∃ u, ends .pwrOkFall u ∧ u.pwr.pwrOk = false ∧ u.pwr.devReady = false ∧ u.tap = State.reset.tap
      ∧ (∀ n, (spcOf u n).st = 0 ∧ (spcOf u n).gate = false)
      ∧ (s.pwr.writing = false → cold u ∧ u.pwr.step = 0 ∧ u.pwr.vid = false) ∧ (s.pwr.writing = true → waits 2 u))
    ∧ (let off := s.pwr.pwrOk = false ∨ s.flt.terminal = true
      (s.pwr.resetN = false → ends .resetN s)
      ∧ (s.pwr.resetN = true → (off → ends .resetN (power { s.pwr with resetN := false }))
        ∧ (¬ off → ∃ u, ends .resetN u ∧ u.pwr.resetN = false ∧ alive u = false
          ∧ (s.pwr.writing = false → cold u ∧ u.pwr.step = 1) ∧ (s.pwr.writing = true → waits 2 u)))
      ∧ (s.pwr.warmN = false → ends .warmResetN s)
      ∧ (s.pwr.warmN = true → (off → ends .warmResetN (power { s.pwr with warmN := false }))
        ∧ (¬ off → ∃ u, ends .warmResetN u ∧ u.pwr.warmN = false ∧ alive u = false
          ∧ (s.pwr.writing = false → if s.pwr.resetN = true then warm u else cold u ∧ u.pwr.step = 1)
          ∧ (s.pwr.writing = true → waits (if s.pwr.resetN = true then max req 1 else 2) u))))
    ∧ ends (.resetBallRise true) (power { s.pwr with warmN := true }) ∧ ends (.resetBallRise false) (power { s.pwr with resetN := true })
    ∧ (let due := s.flt.devpend = true ∧ s.flt.terminal = false
      (¬ due → ends .deviceResetStart s)
      ∧ (due → ∃ u, ends .deviceResetStart u ∧ (s.pwr.writing = false → warm u) ∧ (s.pwr.writing = true → waits (max req 1) u)))
    ∧ (¬ runs ∨ k = 0 ∨ 8 < k → ends i s)
    ∧ (runs → k = 1 →
      let l := lifeRead s
      let id := if s.emr.wrapped ≠ none ∧ s.emr.secret ≠ none then unwrap = true else l ≠ some .provisioned ∧ l ≠ some .sealed
      (test = false → stops 0x0101)
      ∧ (test = true → (l = none → stops 0x0102) ∧ (l = some .decommissioned → stops 0x0001)
        ∧ (l ≠ none → l ≠ some .decommissioned → (¬ id → stops 0x0103)
          ∧ (id → passes ∧ ∃ u, ends i u ∧ some u.emr.life = l ∧ s.pwr.boots < u.pwr.boots ∧ ∀ r ∈ readRecs s, r.boots < u.pwr.boots))))
    ∧ (runs → k = 2 →
      let x := bootSlot s
      let code := fun (b : Bool) => slotCode s (if b = true then readB else readA) b
      let from_ := fun (b : Bool) => passes ∧ ∃ u, ends i u ∧ u.mgt.runSlot = some (b2n b) ∧ u.pwr.rec_.fwSvn = hdNat s b 8 4
      (code x = 0 → from_ x) ∧ (code x ≠ 0 → code (!x) = 0 → from_ (!x))
      ∧ (code x ≠ 0 → code (!x) ≠ 0 → stops 0x0201 ∧ ∃ u, ends i u ∧ u.pwr.rec_.sloterr = code false + 16 * code true))
    ∧ (runs → k = 3 →
      let cs := comps s (runB s)
      let fits := fun (c : Comp) =>
        let m := memWrite [] 0 (compBytes s c)
        if c.typ = 1 then c.len ≤ 0x20000 else progForm m c.len = true ∧ prNat m 7 1 = 0 ∧ progSigned s m c.len = true
      ((∃ c ∈ cs, ¬ fits c) → stops 0x0301)
      ∧ ((∀ c ∈ cs, fits c) → passes
        ∧ ∃ u, ends i u ∧ ∀ c ∈ cs, c.typ = 1 → ∀ n ∈ coresOf c.cores, (coreOf s n).st = .reset → coreOf u n = { st := .run }))
    ∧ (runs → k = 4 → passes ∧ ∃ u, ends i u ∧ u.pwr.bootCopy = bootCopyOf s.pwr.copyA s.pwr.copyB)
    ∧ (runs → k = 5 →
      let code := fun (n : Nat) => codes.toNat / 4 ^ n % 4
      ((∃ n, n < 64 ∧ code n = 3) → stops 0x0501)
      ∧ ((∀ n, n < 64 → code n ≠ 3) → passes ∧ ∃ u, ends i u ∧ u.dlr.nearTotal = 1026944 ∧ ((∃ n, n < 64 ∧ code n = 2) → (fltOf u fOasMargin).latch = true)))
    ∧ (runs → k = 6 → (bad.val < 4 → passes) ∧ ∃ u, ends i u ∧ stored (fun r => r.outcome = 0 ∧ r.fcode = 0) u)
    ∧ (runs → k = 7 → passes ∧ ∃ u, ends i u ∧ ∀ n, n < 32 → (spcOf s n).st = 0 → spcCfg s n 0 63 63 = 1 → (spcOf u n).st = 1 ∨ (spcOf u n).st = 2)
    ∧ (runs → k = 8 → passes ∧ ∃ u, ends i u ∧ u.pwr.devReady = true
      ∧ ∀ p, p < 96 → portRole s p = 1 → (cxpOf s p).perst = true → (cxpOf s p).link = 0 → cxpOf u p = { cxpOf s p with link := 1 })
    ∧ (s.pwr.idle = false → ends (.deviceIdleExit source) s)
    ∧ (s.pwr.idle = true → ∃ u, ends (.deviceIdleExit source) u ∧ u.pwr.idle = false
      ∧ u.pwr.lastWake = (match source with | some n => n.val | none => 0x1FFF)
      ∧ ∀ n, n < 64 → (regFld s aOasCfg 44 40 : Int) < (sval 8 (stackTemp s (n / 8)) - sval 8 (subOf s n).temp).natAbs →
        n ∈ u.oas.queue ∨ ∃ j, s.oas.active = some (n, j))

/-- R6, R181, R236, R483, R484, R490, R494, R500, R510 to R512, R523 and R525: stores to registers. A store to an unassigned address does nothing. In a register that keeps what is written, each field
takes the value presented if that lies in its range and the field is not an RWL field of a SEALED device, and keeps its own otherwise; no other
register changes. A store to FLT_SRC, PMU_BW, SPC_CTL, SPC_STAT, MELD_PRED_ACC or DLR_OAS_RETRAIN does what the operation on that unit does. SEV takes a
value that R483 does not refuse. A forced raise acts while INJECT is 1, on every source but 193 and 194: it latches with the SEV of the same
store applied, is counted, and names the objects of FLT_INJECT; a clear in the same store does not beat it. TIME events are credited up to each
microsecond. A bandwidth window ends at a multiple of its length, its totals going to the next of 16 entries; a clear starts anew. MELD_PRED_ACC
writes or shows one predictor counter. (The first entry after a clear: log entry 40, DEDUCED.) -/
def Obligations.RegisterStoresFaultsAndMonitors : Prop :=
  ∀ (s : State) (addr : BitVec 48) (v : Word) (src : Fin 2048) (sev : Fin 8) (clr en : Bool) (port : Fin 96) (window : Fin 1048576) (slot : Fin 32)
    (bits : Fin 16) (counter : Fin 4) (index : Fin 32768),
    let ends := fun (i : Instr) (t : State) => exec i s = .next (done t)
    let a := addr.toNat
    let special := [aDlrHeatThr, aPaceCfg, aOasRetrain, aIcuFallback, aAlarmCfg]
    let store := exec (.registerWrite addr v) s
    (a < 0x20000000 ∨ 0x2C000000 ≤ a ∨ a % 8 ≠ 0 → ends (.registerWrite addr v) s)
    ∧ (∀ d ∈ regTable, d.has a = true → a ∉ special → ¬ (0x25200000 ≤ a ∧ a < 0x25200200) → ¬ (aCxpRt 0 ≤ a ∧ a < aCxpRt 4096) →
      ∃ u, ends (.registerWrite addr v) u
        ∧ (∀ f ∈ d.fields, let x := fld v f.hi f.lo
          fld (regGet u a) f.hi f.lo = if (f.rwl = true ∧ s.emr.life = .sealed) ∨ x < f.min ∨ f.max < x then fld (regGet s a) f.hi f.lo else x)
        ∧ ∀ b, b ≠ a → regGet u b = regGet s b)
    ∧ (a = 0x25001000 + 8 * src.val → fld v 61 59 = sev.val →
      store = exec (if v.getLsbD 62 = true then .fltForce src sev (v.getLsbD 63) else if v.getLsbD 63 = true then .fltLatchClear src sev else .fltSevWrite src sev) s)
    ∧ (a = 0x25120000 + 512 * port.val → fld v 19 0 = window.val → store = exec (.pmuBwClear port (v.getLsbD 63) window) s)
    ∧ (a = 0x25200200 + 8 * slot.val →
      (v.getLsbD 3 = true → store = exec (.spcClear slot (v.getLsbD 2) (v.getLsbD 1)) s)
      ∧ (v.getLsbD 3 = false → v.getLsbD 2 = true → store = exec (.spcOff slot (v.getLsbD 1)) s)
      ∧ (v.getLsbD 3 = false → v.getLsbD 2 = false → v.getLsbD 1 = true → store = exec (.spcOn slot) s)
      ∧ (v.getLsbD 3 = false → v.getLsbD 2 = false → v.getLsbD 1 = false → store = .next (done s)))
    ∧ (a = 0x25200400 + 16 * slot.val → fld v 35 32 = bits.val → store = exec (.spcEventsClear slot bits) s)
    ∧ (a = 0x24600010 → fld v 17 16 = counter.val → fld v 14 0 = index.val →
      store = exec (if v.getLsbD 63 = true then .meldPredWrite counter index else .meldPredLoad index) s)
    ∧ (a = 0x24740008 → v.getLsbD 63 = true → store = exec (.oasRetrainReq (fld v 5 0)) s)
    ∧ (let n := src.val
      let refused := n = 193 ∨ n = 194 ∨ ∃ sc df fl, fltInfo n = some (sc, df, fl) ∧ (sev.val < fl ∨ 4 < sev.val ∨ (sev.val = 2 ∧ sc = .none))
      let taken := if sevOk n sev.val = true then some sev.val else (fltOf s n).sev
      let input := 5120 + n
      let level := srcEdge input (srcOf s input) = false
      let forces := regFld s aFltCfg 63 63 = 1 ∧ n ≠ 193 ∧ n ≠ 194
      (fltInfo n = none → ends (.fltForce src sev clr) s ∧ ends (.fltSevWrite src sev) s ∧ ends (.fltLatchClear src sev) s)
      ∧ (fltInfo n ≠ none →
        (sevOk n sev.val = false ↔ refused)
        ∧ (∃ u, ends (.fltSevWrite src sev) u ∧ fltOf u n = { fltOf s n with sev := taken })
        ∧ (∃ u, ends (.fltLatchClear src sev) u ∧ (n ≠ 165 ∨ level → fltOf u n = { fltOf s n with sev := taken, latch := false })
          ∧ (level → (srcOf u input).levelIn = false))
        ∧ (¬ forces → exec (.fltForce src sev clr) s = exec (if clr = true then .fltLatchClear src sev else .fltSevWrite src sev) s)
        ∧ (forces → ∃ u, ends (.fltForce src sev clr) u ∧ (fltOf u n).latch = true ∧ (fltOf u n).sev = taken
          ∧ (fltOf u n).lastSev = (match taken with | some k => k | none => sevOf s n)
          ∧ (n ≠ 165 → (fltOf u n).count = min (2 ^ 32 - 1) ((fltOf s n).count + 1))
          ∧ (level → (srcOf u input).levelIn = true)
          ∧ (2 ≤ (fltOf u n).lastSev → s.flt.devpend = false → ∃ r ∈ u.flt.raised, r.n = n ∧ ∃ sc df fl, fltInfo n = some (sc, df, fl)
            ∧ r.dom = (if sc = .domain then regFld s aFltInject 59 48 else 0xFFFF) ∧ r.port = (if sc = .port then regFld s aFltInject 40 34 else 0xFF)))))
    ∧ (let now := (s.time / 1000 + 1) * 1000
      ∃ u, ends .pmuTimeCredit u ∧ u.time = now ∧ ∀ k c, s.pmu.cnts = [(k, c)] → bit c.cfg 63 = true → bit c.cfg 62 = false → fld c.cfg 47 32 = 0xC001 →
        bit c.cfg 15 = false → bit c.cfg 7 = false → c.value + (now - s.time) < 2 ^ 48 → u.pmu.cnts = [(k, { c with value := c.value + (now - s.time) })])
    ∧ (let b := bwOf s port.val
      let i := Instr.bwWindowEnd port
      let w := b.window * 1000
      (b.en = false → ends i s)
      ∧ (b.en = true → ∃ u, ends i u ∧ u.time = max s.time ((s.time / w + 1) * w) ∧ bwOf u port.val =
        if b.armed = true then { b with armed := false, rx := 0, tx := 0 }
        else { b with
          hist := sset (0, 0) b.hist ((b.newest + 1) % 16) (b.rx, b.tx), newest := (b.newest + 1) % 16, seq := (b.seq + 1) % 2 ^ 32, rx := 0, tx := 0 })
      ∧ ∃ u, ends (.pmuBwClear port en window) u ∧ bwOf u port.val =
        { en := en, window := if 1 ≤ window.val ∧ window.val ≤ 1000000 then window.val else b.window, armed := en })
    ∧ (∃ u, ends (.meldPredWrite counter index) u ∧ predOf u index.val = counter.val ∧ u.meld.acc = (counter.val, index.val)
      ∧ ∀ k, k ≠ index.val → predOf u k = predOf s k)
    ∧ ends (.meldPredLoad index) { s with meld := { s.meld with acc := (predOf s index.val, index.val) } }

/-- R65, R74, R81, R455, R549 and R550: the test access port. With PWR_OK low it stays in reset. An instruction that the lifecycle state accepts is in force, every other
one acts as BYPASS; IDCODE answers 0x14860B6F; an accepted boundary instruction loads the boundary cells. The debug port accesses memory, at P1, in the states
that accept EMR_DEBUG only: a locked line makes a read give zeros and a write do nothing, and sounds the alarm; an address that has no memory, and an
access that the Gate refuses, are answered with the status; else the bytes are read or written. (The cells are one number, and reset selects IDCODE:
log entry 66, PRESUMED. An access through the aperture is refused: log entry 62, DEDUCED.) -/
def Obligations.TestAccessPort : Prop :=
  ∀ (s : State) (cells : Nat) (addr : Word) (len : Fin 65) (wr : Bool) (bytes : List Byte),
    let ends := fun (i : Instr) (t : State) => exec i s = .next (done t)
    let ir := fun (k : Nat) => { s with tap := { s.tap with ir := k } }
    let open_ := s.emr.life = .manufacture ∨ s.emr.life = .debugUnlocked ∨ s.emr.life = .provisioned
    let loads : List (Instr × Nat) := [(.extest cells, 0), (.samplePreload cells, 1), (.extestPulse cells, 3), (.extestTrain cells, 4)]
    let say := fun (c : Chan) (code : Nat) (ws : List Nat) (t : State) => { t with out := .resp c code ws :: t.out }
    let debug := Instr.debugAccess addr len wr bytes
    ends .tapReset { s with tap := { ir := 2, cells := 0 } }
    ∧ (s.pwr.pwrOk = false → (∀ x ∈ loads, ends x.1 s) ∧ ends .clamp s ∧ ends .highz s ∧ ends .bypass s ∧ ends .idcode s ∧ ends debug s)
    ∧ (s.pwr.pwrOk = true →
      ends .idcode (say .jtag 0 [0x14860B6F] (ir 2)) ∧ ends .bypass (ir 0xFF)
      ∧ (open_ → (∀ x ∈ loads, ends x.1 { s with tap := { ir := x.2, cells := cells } }) ∧ ends .clamp (ir 5) ∧ ends .highz (ir 6))
      ∧ (¬ open_ → (∀ x ∈ loads, ends x.1 (ir 0xFF)) ∧ ends .clamp (ir 0xFF) ∧ ends .highz (ir 0xFF))
      ∧ (let may := open_ ∨ (s.emr.life = .sealed ∧ regFld s aDbgCfg 0 0 = 1)
        let t := ir 0x22
        let a := addr.toNat
        let n := if wr = true then bytes.length else len.val
        let clear := ∀ l ∈ linesOf a n, lockedLine t l = false
        let shared := 0x10000000 ≤ a ∧ a + n ≤ 0x11000000
        (¬ may → ends debug (ir 0xFF))
        ∧ (may → alive s = false ∨ n = 0 ∨ 64 < n → ends debug t)
        ∧ (may → alive s = true → 1 ≤ n → n ≤ 64 →
          (¬ clear → ∃ u, ends debug u ∧ u.emr.alarmN = true ∧ (wr = false → Out.resp .jtag 0 [0] ∈ u.out) ∧ u.flg.mem = t.flg.mem)
          ∧ (clear → a ≤ 0x1FFFF ∨ (0x100000 ≤ a ∧ a ≤ 0x13FFFF) ∨ (a < 0x11000000 ∧ 0x11000000 < a + n) → ends debug (say .jtag Status.invalid.code [] t))
          ∧ (clear → shared → ∀ q, dasCheck t a n .p1 (if wr = true then .w else .r) = some q →
            ∃ u, ends debug (say .jtag Status.denied.code [] u) ∧ u.flg.mem = t.flg.mem)
          ∧ (clear → shared → dasCheck t a n .p1 (if wr = true then .w else .r) = none →
            (wr = false → rangeBad t a n = true → ends debug (say .jtag Status.poisoned.code [] t))
            ∧ (wr = false → rangeBad t a n = false →
              ends debug (say .jtag 0 [leNat ((List.range n).map (fun i => memByte t.flg.mem (a + i)))] t))
            ∧ (wr = true → ∃ u m e, ends debug u ∧ u = { t with flg := { t.flg with mem := m, bad := e } }
              ∧ (∀ i < n, memByte m (a + i) = bytes.getD i 0) ∧ ∀ k, k < a ∨ a + n ≤ k → memByte m k = memByte t.flg.mem k)))))

/-- R228 to R240: the Oasis at work. A poll sets a stack's band from its temperature, raises DLR_OAS_HOT on entering band 3, and queues subchannels that have drifted. A read
eye below EYE_MIN, the 10,000th full-load millisecond after a light training and a request queue a subchannel too; a queued or training one merges. One subchannel
trains at a time, in the order of the queue, for at most 64 steps; success records temperature and load class, failure waits 1 s, from the third in a
row on, which raises its fault, 10 s. A channel serves the oldest entry of each queue: a read returns zeros from a scrubbed line, poison
on another domain's line or a poisoned one, else the data; a write merges. An error that patrol finds is counted, recorded and handled by
area; a near-tier parcel retires at an uncorrectable error, or where two passes running correct one line. -/
def Obligations.OasisOperation : Prop :=
  ∀ (s : State) (stack sub margin ch util oa err : Nat) (temp : Byte) (last ok wr : Bool),
    let ends := fun (i : Instr) (t : State) => exec i s = .next (done t)
    let x := subOf s sub
    let joins := fun (n : Nat) (u : State) => n ∈ u.oas.queue ∨ ∃ k, s.oas.active = some (n, k)
    let queued := fun (n : Nat) (u : State) =>
      u.oas.queue = if 64 ≤ n ∨ n ∈ s.oas.queue ∨ s.oas.active.map (fun y => y.1) = some n then s.oas.queue else s.oas.queue ++ [n]
    let later := fun (t : Nat) (u : State) => u.time = max s.time t
    (8 ≤ stack → ends (.oasisRefresh stack) s ∧ ends (.zqLatch stack) s ∧ ends (.oasisTempPoll stack temp) s)
    ∧ (stack < 8 →
      ends (.oasisRefresh stack) { s with oas := { s.oas with refresh := sset 0 s.oas.refresh stack (sget 0 s.oas.refresh stack + 1) } }
      ∧ ends (.zqLatch stack) { s with oas := { s.oas with zq := sset 0 s.oas.zq stack s.time } }
      ∧ ∃ u b, ends (.oasisTempPoll stack temp) u ∧ sget (0, 0) u.oas.therm stack = (b, temp.toNat)
        ∧ (temp.toInt ≤ 85 → b = 0) ∧ (85 < temp.toInt → temp.toInt ≤ 95 → b = 1) ∧ (95 < temp.toInt → temp.toInt ≤ 105 → b = 2) ∧ (105 < temp.toInt → b = 3)
        ∧ (b = 3 → (sget (0, 0) s.oas.therm stack).1 ≠ 3 → (fltOf u fOasHot).latch = true)
        ∧ (∀ n, n / 8 = stack → (regFld s aOasCfg 44 40 : Int) < (temp.toInt - sval 8 (subOf s n).temp).natAbs → joins n u)
        ∧ ∀ n ∈ u.oas.queue, n ∈ s.oas.queue ∨ (n / 8 = stack ∧ (regFld s aOasCfg 44 40 : Int) < (temp.toInt - sval 8 (subOf s n).temp).natAbs))
    ∧ (64 ≤ sub → ends (.oasisEyeMonitor sub margin) s)
    ∧ (sub < 64 → ∃ u, ends (.oasisEyeMonitor sub margin) u ∧ subOf u sub = { x with margin := margin % 256 }
      ∧ (margin % 256 < regFld s aOasCfg 55 48 → queued sub u) ∧ (regFld s aOasCfg 55 48 ≤ margin % 256 → u.oas.queue = s.oas.queue))
    ∧ (32 ≤ ch ∨ util < regFld s aOasCfg 38 32 → ends (.oasisLoadTick ch util) s)
    ∧ (ch < 32 → regFld s aOasCfg 38 32 ≤ util → ∃ u, ends (.oasisLoadTick ch util) u
      ∧ ∀ n, n / 2 = ch → (subOf u n = if (subOf s n).light = true ∧ (subOf s n).fullMs < 10000 then { subOf s n with fullMs := (subOf s n).fullMs + 1 } else subOf s n)
        ∧ ((subOf s n).light = true → (subOf s n).fullMs = 9999 → joins n u))
    ∧ (∃ u, ends (.oasRetrainReq sub) u ∧ queued (sub % 64) u ∧ regFld u aOasRetrain 5 0 = sub % 64)
    ∧ (let i := Instr.retrainStep last ok util
      let trained := fun (n : Nat) => ∃ u, ends i u ∧ u.oas.active = none ∧ (s.oas.active = none → u.oas.queue = s.oas.queue.drop 1)
        ∧ (ok = true → subOf u n = { subOf s n with
          temp := stackTemp s (n / 8), light := decide (util < regFld s aOasCfg 30 24), fullMs := 0, count := min 65535 ((subOf s n).count + 1), fails := 0, retry := 0 })
        ∧ (ok = false → subOf u n = { subOf s n with
          fails := (subOf s n).fails + 1, retry := s.time + if 2 ≤ (subOf s n).fails then 10000000000 else 1000000000 }
          ∧ ((subOf s n).fails = 2 → (fltOf u fOasRetrainFail).latch = true))
      (s.oas.active = none → s.oas.queue = [] → ends i s)
      ∧ (s.oas.active = none → ∀ n q, s.oas.queue = n :: q →
        (last = false → ends i { s with oas := { s.oas with active := some (n, 1), queue := q } }) ∧ (last = true → trained n))
      ∧ ∀ n k, s.oas.active = some (n, k) → (last = true ∨ 63 ≤ k → trained n)
        ∧ (last = false → k < 63 → ends i { s with oas := { s.oas with active := some (n, k + 1) } }))
    ∧ (x.retry = 0 → ends (.retrainRetry sub) s)
    ∧ (x.retry ≠ 0 → ∃ u, ends (.retrainRetry sub) u ∧ later x.retry u ∧ queued sub u ∧ subOf u sub = { x with retry := 0 })
    ∧ (let i := Instr.oasisPatrol oa err
      let l := oa % 2 ^ 38 / 64
      let a := 64 * l
      let before := if l < s.oas.patrolAt then s.oas.patrolNew else s.oas.patrolOld
      let near := 0x150000000 ≤ a ∧ a < 0x3FFE000000
      let p := (a - 0x150000000) / 0x40000
      let retires := fun (u : State) => p ∈ s.oas.retired ∨ s.oas.retired.length < 4096 →
        p ∈ u.oas.retired ∧ (p ∉ s.oas.retired → u.dlr.near = rdel s.dlr.near p ∧ (nearInUse s p = true → (fltOf u fOasRetire).latch = true))
      ∃ u, ends i u ∧ u.oas.patrolAt = l + 1 ∧ u.oas.patrolOld = before
        ∧ (err ≠ 1 → err ≠ 2 → u.oas.ecc = s.oas.ecc ∧ u.oas.retired = s.oas.retired)
        ∧ (err = 1 → u.oas.ecc = (s.oas.ecc.1, min (2 ^ 32 - 1) (s.oas.ecc.2 + 1)) ∧ u.oas.eccLast = (true, 1, oaChannel a, l) ∧ l ∈ u.oas.patrolNew
          ∧ (l ∈ before → near → retires u) ∧ (l ∉ before → u.oas.retired = s.oas.retired))
        ∧ (err = 2 → u.oas.ecc = (min 65535 (s.oas.ecc.1 + 1), s.oas.ecc.2) ∧ u.oas.eccLast = (true, 2, oaChannel a, l)
          ∧ (a < 0x100000000 → (fltOf u fOasMapUncorr).latch = true ∧ ((∀ q ∈ s.dlr.cars, q.2.idx / 4 ≠ l) → ∀ idx, idx / 4 = l →
            (∀ e, sfind? s.dlr.tlb idx = some e → mapOf u idx = e)
            ∧ (sfind? s.dlr.tlb idx = none → ∀ d, domOfIdx s idx = some d →
              (mapOf u idx).kind = .poisoned ∧ (mapOf u idx).ext = true ∧ (mapOf u idx).tag = d)))
          ∧ (0x100000000 ≤ a → a < 0x120000000 → (fltOf u fOasUncorr).latch = true ∧ ∀ q ∈ u.dlr.heat, q.1 / 32 ≠ (a - 0x100000000) / 64)
          ∧ (near → (fltOf u fOasUncorr).latch = true ∧ oLine u a = { oLine s a with pois := true } ∧ retires u)
          ∧ (0x120000000 ≤ a → a < 0x150000000 → (fltOf u fOasUncorr).latch = true ∧ l ∈ u.oas.bad)))
    ∧ (let i := Instr.oasisAccessDone ch wr err
      let woken := fun (t : State) => { t with reqs := t.reqs.map (fun r => if r.phase = .oasisFull ch then { r with phase := .ready } else r) }
      (wr = false → rdQ s ch = [] → ends i (woken s)) ∧ (wr = true → wrQ s ch = [] → ends i (woken s))
      ∧ (wr = true → ∀ b q, wrQ s ch = b :: q → ∃ u, ends i (woken u) ∧ wrQ u ch = q ∧ rdQ u ch = rdQ s ch ∧ u.reqs = s.reqs
        ∧ (∀ k, k / 64 ≠ b.oa / 64 → oLine u k = oLine s k)
        ∧ ∀ w m, b.wr = some (w, m) → oLine u b.oa = if m = BitVec.allOnes 64 then w
          else { data := mergeLine (if (oLine s b.oa).scr = true then 0 else (oLine s b.oa).data) w.data m, tag := w.tag, pois := (oLine s b.oa).pois || w.pois, scr := false })
      ∧ (wr = false → ∀ b q, rdQ s ch = b :: q → ∃ u, ends i u
        ∧ (reqOf s b.req = none → rdQ u ch = q)
        ∧ ∀ r, reqOf s b.req = some r → r.fetch = false → (∀ c o z p1 p2, r.op ≠ .atomic c o z p1 p2) → err ≠ 1 → err ≠ 2 →
          let y := oasNow s b.oa
          let out := if y.scr = true then (0, y.pois) else if y.tag ≠ r.dom ∨ y.pois = true then (0, true) else (y.data, false)
          ∃ t, u = woken (finishReq r (.data out.1 out.2) t) ∧ rdQ t ch = q ∧ t.oas.lines = s.oas.lines ∧ t.reqs = s.reqs
            ∧ (y.scr = false → y.tag ≠ r.dom → (fltOf t fOasTag).latch = true)))

/-- A step runs the command at the front of the queue with the rest of the queue, whatever the command and the state; with nothing queued, a powered device
passes one nanosecond, in which at most the event counters and the interrupt sources of their overflows change, and an unpowered one stays as
it is. (What the empty queue means: log entry 1, DESIGN CHOICE.) -/
def Obligations.StepRunsFrontCommand : Prop :=
  (∀ (s : State) (c : Instr) (rest : List Instr), step { s with pending := c :: rest } = exec c { s with pending := rest })
  ∧ (∀ s : State, s.pending = [] → s.pwr.pwrOk = false → step s = .next s)
  ∧ ∀ s : State, s.pending = [] → s.pwr.pwrOk = true → ∃ u, step s = .next u ∧ Counted { s with time := s.time + 1 } u

/-- R495 with the model's form of a step: every step, of every command in every state, answers a next state, never a fault and never a refusal, and leaves
no raise of a fault source without its reaction: the collector has taken every raise of the step before the next command runs. -/
def Obligations.EveryStepAnswersSettled : Prop :=
  ∀ s : State, Settled s → ∃ t, step s = .next t ∧ Settled t

/-- R6, R231, R246, R329, R434, R452, R480, R515, R532 and R550, with the Reset columns of the field maps: the state after reset. No raise is left and the kept memories
are in canonical form; device time is 0, DEVICE_READY low and the queue empty. Every core is in RESET with control registers 0, every interrupt source IDLE,
no latch set, no link up, every slot controller in OFF with its gate off, bundle management in SMBus mode, the test access port on IDCODE, and the
configuration registers read as their field maps say. (That PWR_OK has not risen yet, and values that no field map gives: log entry 2, DESIGN CHOICE.) -/
def Obligations.ResetState : Prop :=
  let s := State.reset
  Settled s ∧ Memory.wf s.flg.mem ∧ s.time = 0 ∧ s.pwr.devReady = false ∧ s.pending = [] ∧ s.reqs = [] ∧ s.mgt.i3c = false ∧ s.tap.ir = 2
    ∧ s.flt.terminal = false ∧ s.flt.devpend = false ∧ faultN s = false ∧ s.emr.life = .manufacture
    ∧ (∀ n, (coreOf s n).st = .reset ∧ (coreOf s n).depth = 0 ∧ (coreOf s n).ie = false ∧ (coreOf s n).p2 = false ∧ (coreOf s n).steps = 0)
    ∧ (∀ n, (srcOf s n).st = .idle ∧ (fltOf s n).latch = false ∧ (fltOf s n).count = 0 ∧ (ringOf s n).en = false ∧ (slotOf s n).st = 0)
    ∧ (∀ p, (cxpOf s p).link = 0 ∧ (trlOf s p).up = false ∧ (bwOf s p).window = 1000 ∧ (bwOf s p).en = false)
    ∧ (∀ n, (spcOf s n).st = 0 ∧ (spcOf s n).gate = false ∧ rdQ s n = [] ∧ wrQ s n = [] ∧ (oLine s n).scr = true)
    ∧ (∀ k, memByte s.flg.mem k = 0)
    ∧ ∀ p ∈ [(aPaceCfg, 0, 16, 1300), (aCohCfg, 40, 12, 40), (aCohCfg, 0, 9, 8), (aMeldCfg, 0, 7, 16), (aDlrHeatThr, 16, 14, 256), (aDlrHeatThr, 0, 14, 16),
        (aOasCfg, 48, 8, 8), (aOasCfg, 40, 5, 5), (aFltCfg, 40, 8, 64), (aFltCfg, 36, 4, 8), (aFltCfg, 32, 4, 4), (aFltCfg, 63, 1, 0),
        (aTrlCfg, 44, 10, 10), (aLaneChk, 40, 1, 1), (aCxpCfg, 0, 14, 100), (aScope, 0, 64, 0), (aIcuFallback, 0, 6, 0)],
      (regGet s p.1).toNat / 2 ^ p.2.1 % 2 ^ p.2.2.1 = p.2.2.2
end

