-- ==== Sys2Proof/Laws/Done.lean ====
section
/-!
SUPPORT. Laws/Done.lean: what follows a command's own effect: nothing where nothing waits, and never a raise left over.
-/
namespace Sys2Proof.Machine
open Sys2Proof.Safety

theorem settleN_raised : ∀ (n : Nat) (s : State), (settleN n s).flt.raised = []
  | 0, _ => rfl
  | n + 1, s => by
    rw [settleN]
    cases h : s.flt.raised with
    | nil => exact h
    | cons r t => exact settleN_raised n _

@[simp] theorem settle_raised (s : State) : (settle s).flt.raised = [] := by
  rw [settle]; exact settleN_raised 4 s

/-- No step leaves a raise without its reaction (R495). -/
@[simp] theorem done_raised (s : State) : (done s).flt.raised = [] := by
  rw [done]; exact settle_raised _

/-- Nothing raised: the collector does nothing. -/
theorem settle_none {s : State} (h : s.flt.raised = []) : settle s = s := by
  simp only [settle, settleN, h]

theorem pump_none {s : State} (h : s.reqs = []) : pump s = s := by
  simp [pump, h, pumpN]

theorem serveWaits_none {s : State} (h : s.erg.waits = []) : serveWaits s = s := by
  simp [serveWaits, h]

theorem foldl_same {α β : Type} (f : β → α → β) (b : β) : ∀ l : List α, (∀ x ∈ l, f b x = b) → l.foldl f b = b
  | [], _ => rfl
  | x :: t, h => by
    rw [List.foldl_cons, h x (by simp), foldl_same f b t (fun y hy => h y (by simp [hy]))]

theorem capStep_none {s : State} (h : Quiet s) : capStep s = s := by
  have h1 : removalsStep s = s := by
    have e : ({ s.dom with removals := [] } : DomSt) = s.dom := by rw [← h.removals]
    simp only [removalsStep, h.removals, List.foldl_nil, e]
  have h2 : releasesStep s = s := by
    have e : ({ s.dom with releases := [] } : DomSt) = s.dom := by rw [← h.releases]
    simp only [releasesStep, h.releases, List.foldl_nil, e]
  have h3 : offersStep s = s := by
    have e : ({ s.dom with offers := [] } : DomSt) = s.dom := by rw [← h.offers]
    simp only [offersStep, h.offers, List.filter_nil, List.foldl_nil, e]
  have h4 : retireStep s = s := by
    refine foldl_same _ _ _ fun p hp => ?_
    simp [h.doms p hp]
  have h5 : evacStep s = s := by
    refine foldl_same _ _ _ fun p hp => ?_
    have := h.devs p hp
    revert this
    dsimp only
    cases (devOf s p.1).st <;> simp
  simp only [capStep, h1, h2, h3, h4, h5]

/-- Where nothing waits, nothing follows the command's own effect. -/
theorem done_quiet {s : State} (h : Quiet s) : done s = s := by
  simp only [done, pump_none h.reqs, settle_none h.raised, capStep_none h, serveWaits_none h.waits]

/-- Quiet rests on a few fields. -/
theorem quiet_of {s u : State} (h : Quiet s) (hr : u.reqs = s.reqs) (hw : u.erg.waits = s.erg.waits) (hd : u.dom = s.dom)
    (hf : u.flt.raised = s.flt.raised) : Quiet u := by
  obtain ⟨a, b, c, d, e, f, g, i⟩ := h
  refine ⟨hr.trans a, hw.trans b, ?_, ?_, ?_, ?_, ?_, hf.trans i⟩ <;> simp only [hd, devOf] <;> assumption

/-- A command whose effect is u completes. -/
theorem completes_of {s u : State} {P : State → Prop} (hP : P u) (hr : u.reqs = s.reqs) (hw : u.erg.waits = s.erg.waits) (hd : u.dom = s.dom)
    (hf : u.flt.raised = s.flt.raised) : Completes (finish u) s P :=
  ⟨u, rfl, hP, fun h => done_quiet (quiet_of h hr hw hd hf)⟩

end Sys2Proof.Machine
end

