-- ==== Sys2Proof/Laws/Store.lean ====
section
/-!
SUPPORT. Laws/Store.lean: a read after a write of a sparse store or of the byte memory, and that every operation keeps the canonical form.
-/
namespace Sys2Proof.Machine

variable {α : Type}

@[simp] theorem sget_nil (d : α) (k : Nat) : sget d [] k = d := rfl
@[simp] theorem sfind_nil (k : Nat) : sfind? ([] : SMap α) k = none := rfl

theorem sget_eq_sfind (d : α) (m : SMap α) (k : Nat) : sget d m k = (sfind? m k).getD d := by
  induction m with
  | nil => rfl
  | cons p t ih => obtain ⟨a, v⟩ := p; simp only [sget, sfind?]; split <;> simp [ih]

@[simp] theorem sget_sput_self (d : α) (m : SMap α) (k : Nat) (v : α) : sget d (sput m k v) k = v := by
  induction m with
  | nil => simp [sput, sget]
  | cons p t ih =>
    obtain ⟨a, w⟩ := p
    simp only [sput]
    split
    · simp [sget]
    · split
      · simp [sget]
      · simp [sget, *]

theorem sget_sput_ne (d : α) (m : SMap α) {j k : Nat} (h : j ≠ k) (v : α) : sget d (sput m k v) j = sget d m j := by
  induction m with
  | nil => simp [sput, sget, h]
  | cons p t ih =>
    obtain ⟨a, w⟩ := p
    simp only [sput]
    split
    · simp [sget, h]
    · split
      · rename_i h1; subst h1; simp [sget, h]
      · simp [sget, ih]

@[simp] theorem sget_sdel_self (d : α) (m : SMap α) (k : Nat) : sget d (sdel m k) k = d := by
  induction m with
  | nil => rfl
  | cons p t ih => obtain ⟨a, w⟩ := p; simp only [sdel]; split <;> simp_all [sget]

theorem sget_sdel_ne (d : α) (m : SMap α) {j k : Nat} (h : j ≠ k) : sget d (sdel m k) j = sget d m j := by
  induction m with
  | nil => rfl
  | cons p t ih =>
    obtain ⟨a, w⟩ := p
    simp only [sdel]
    split
    · rename_i h1; subst h1; simp [sget, h, ih]
    · simp [sget, ih]

variable [DecidableEq α]

@[simp] theorem sget_sset_self (d : α) (m : SMap α) (k : Nat) (v : α) : sget d (sset d m k v) k = v := by
  simp only [sset]; split <;> simp [*]

theorem sget_sset_ne (d : α) (m : SMap α) {j k : Nat} (h : j ≠ k) (v : α) : sget d (sset d m k v) j = sget d m j := by
  simp only [sset]; split <;> simp [sget_sput_ne, sget_sdel_ne, h]

theorem sget_sset (d : α) (m : SMap α) (j k : Nat) (v : α) : sget d (sset d m k v) j = if j = k then v else sget d m j := by
  split
  · rename_i h; subst h; simp
  · rename_i h; exact sget_sset_ne d m h v

omit [DecidableEq α] in
theorem sput_sput (m : SMap α) (k : Nat) (v w : α) : sput (sput m k v) k w = sput m k w := by
  induction m with
  | nil => simp [sput]
  | cons p t ih =>
    obtain ⟨a, x⟩ := p
    by_cases h1 : k < a
    · simp [sput, h1]
    · by_cases h2 : k = a
      · subst h2; simp [sput]
      · simp [sput, h1, h2, ih]

omit [DecidableEq α] in
theorem sdel_sput (m : SMap α) (k : Nat) (v : α) : sdel (sput m k v) k = sdel m k := by
  induction m with
  | nil => simp [sput, sdel]
  | cons p t ih =>
    obtain ⟨a, x⟩ := p
    by_cases h1 : k < a
    · simp [sput, sdel, h1]
    · by_cases h2 : k = a
      · subst h2; simp [sput, sdel]
      · simp [sput, sdel, h1, h2, ih]

/-- Of two writes at one key the last one stands, where the first one wrote no default. -/
theorem sset_sset {d : α} (m : SMap α) (k : Nat) {v : α} (h : v ≠ d) (w : α) : sset d (sset d m k v) k w = sset d m k w := by
  by_cases hw : w = d <;> simp [sset, h, hw, sput_sput, sdel_sput]

/-! ### The canonical form -/

omit [DecidableEq α] in
theorem rising_mono {lo lo' : Nat} (h : lo' ≤ lo) : ∀ {m : SMap α}, rising lo m = true → rising lo' m = true
  | [], _ => rfl
  | (a, _) :: t, hm => by
    simp only [rising, Bool.and_eq_true, decide_eq_true_eq] at hm ⊢
    exact ⟨by omega, hm.2⟩

omit [DecidableEq α] in
theorem rising_sput (k : Nat) (v : α) : ∀ {lo : Nat} {m : SMap α}, lo ≤ k → rising lo m = true → rising lo (sput m k v) = true
  | lo, [], h, _ => by simp [sput, rising, h]
  | lo, (a, w) :: t, h, hm => by
    simp only [rising, Bool.and_eq_true, decide_eq_true_eq] at hm
    simp only [sput]
    split
    · rename_i h1
      simp only [rising, Bool.and_eq_true, decide_eq_true_eq]
      exact ⟨h, by omega, hm.2⟩
    · split
      · rename_i h2; subst h2
        simp only [rising, Bool.and_eq_true, decide_eq_true_eq]
        exact ⟨h, hm.2⟩
      · simp only [rising, Bool.and_eq_true, decide_eq_true_eq]
        exact ⟨hm.1, rising_sput k v (by omega) hm.2⟩

omit [DecidableEq α] in
theorem rising_sdel (k : Nat) : ∀ {lo : Nat} {m : SMap α}, rising lo m = true → rising lo (sdel m k) = true
  | _, [], _ => rfl
  | lo, (a, w) :: t, hm => by
    simp only [rising, Bool.and_eq_true, decide_eq_true_eq] at hm
    simp only [sdel]
    split
    · exact rising_mono (by omega) (rising_sdel k hm.2)
    · simp only [rising, Bool.and_eq_true, decide_eq_true_eq]
      exact ⟨hm.1, rising_sdel k hm.2⟩

omit [DecidableEq α] in
theorem all_sput (p : Nat × α → Bool) (k : Nat) (v : α) (h : p (k, v) = true) :
    ∀ {m : SMap α}, m.all p = true → (sput m k v).all p = true
  | [], _ => by simp [sput, h]
  | (a, w) :: t, hm => by
    simp only [List.all_cons, Bool.and_eq_true] at hm
    simp only [sput]
    split
    · simp [h, hm.1, hm.2]
    · split
      · simp [h, hm.2]
      · simp [hm.1, all_sput p k v h hm.2]

omit [DecidableEq α] in
theorem all_sdel (p : Nat × α → Bool) (k : Nat) : ∀ {m : SMap α}, m.all p = true → (sdel m k).all p = true
  | [], _ => rfl
  | (a, w) :: t, hm => by
    simp only [List.all_cons, Bool.and_eq_true] at hm
    simp only [sdel]
    split
    · exact all_sdel p k hm.2
    · simp [hm.1, all_sdel p k hm.2]

/-- A write keeps the canonical form. -/
theorem swf_sset (d : α) (m : SMap α) (k : Nat) (v : α) (h : swf d m = true) : swf d (sset d m k v) = true := by
  simp only [swf, Bool.and_eq_true] at h ⊢
  simp only [sset]
  split
  · exact ⟨rising_sdel k h.1, all_sdel _ k h.2⟩
  · rename_i hv
    exact ⟨rising_sput k v (by omega) h.1, all_sput _ k v (by simp [hv]) h.2⟩

omit [DecidableEq α] in
theorem rising_filter (p : Nat × α → Bool) : ∀ {lo : Nat} {m : SMap α}, rising lo m = true → rising lo (m.filter p) = true
  | _, [], _ => rfl
  | lo, (a, w) :: t, hm => by
    simp only [rising, Bool.and_eq_true, decide_eq_true_eq] at hm
    simp only [List.filter_cons]
    split
    · simp only [rising, Bool.and_eq_true, decide_eq_true_eq]
      exact ⟨hm.1, rising_filter p hm.2⟩
    · exact rising_mono (by omega) (rising_filter p hm.2)

/-! ### Byte memory -/

@[simp] theorem memByte_memSet_self (m : Memory) (a : Nat) (b : Byte) : memByte (memSet m a b) a = b := by
  simp [memByte, memSet]

theorem memByte_memSet_ne (m : Memory) {a c : Nat} (h : c ≠ a) (b : Byte) : memByte (memSet m a b) c = memByte m c := by
  simp [memByte, memSet, sget_sset_ne _ _ h]

/-- A write leaves every byte outside it. -/
theorem memByte_memWrite_out : ∀ (l : List Byte) (m : Memory) (a c : Nat), ¬(a ≤ c ∧ c < a + l.length) →
    memByte (memWrite m a l) c = memByte m c
  | [], _, _, _, _ => rfl
  | b :: t, m, a, c, h => by
    simp only [memWrite]
    simp only [List.length_cons] at h
    rw [memByte_memWrite_out t _ (a + 1) c (by omega), memByte_memSet_ne _ (by omega)]

/-- A read after a write gives the bytes written. -/
theorem memRead_memWrite : ∀ (l : List Byte) (m : Memory) (a : Nat), memRead (memWrite m a l) a l.length = l
  | [], _, _ => rfl
  | b :: t, m, a => by
    simp only [memWrite, List.length_cons, memRead]
    rw [memRead_memWrite t _ (a + 1), memByte_memWrite_out t _ (a + 1) a (by omega), memByte_memSet_self]

theorem memSet_wf (m : Memory) (a : Nat) (b : Byte) (h : m.wf = true) : (memSet m a b).wf = true := swf_sset _ _ _ _ h

theorem memWrite_wf : ∀ (l : List Byte) (m : Memory) (a : Nat), m.wf = true → (memWrite m a l).wf = true
  | [], _, _, h => h
  | _ :: t, _, a, h => memWrite_wf t _ (a + 1) (memSet_wf _ _ _ h)

theorem memClear_wf (m : Memory) (a n : Nat) (h : m.wf = true) : (memClear m a n).wf = true := by
  simp only [Memory.wf, swf, Bool.and_eq_true] at h ⊢
  refine ⟨rising_filter _ h.1, ?_⟩
  simp only [memClear, List.all_eq_true, List.mem_filter] at h ⊢
  exact fun x hx => h.2 x hx.1

end Sys2Proof.Machine
end

