-- ==== Sys2Proof/Laws/Core.lean ====
section
/-!
SUPPORT. Laws/Core.lean: what counting an event changes, and what starting and retiring an instruction do to the state.
-/
namespace Sys2Proof.Machine
open Sys2Proof.Safety

theorem Fired_refl (k : Nat) (x : IcuSrc) : Fired k x x := Or.inl rfl

theorem Fired_trans {k : Nat} {x y z : IcuSrc} (h : Fired k x y) (h' : Fired k y z) : Fired k x z := by
  rcases h with rfl | ⟨hk, ⟨he, rfl⟩ | ⟨he, rfl⟩⟩
  · exact h'
  · rcases h' with rfl | ⟨_, ⟨_, rfl⟩ | ⟨he', _⟩⟩
    · exact Or.inr ⟨hk, Or.inl ⟨he, rfl⟩⟩
    · refine Or.inr ⟨hk, Or.inl ⟨he, ?_⟩⟩
      cases x.st <;> rfl
    · have : srcEdge k x = false := he'
      rw [he] at this; cases this
  · rcases h' with rfl | ⟨_, ⟨he', _⟩ | ⟨_, rfl⟩⟩
    · exact Or.inr ⟨hk, Or.inr ⟨he, rfl⟩⟩
    · have : srcEdge k x = true := he'
      rw [he] at this; cases this
    · refine Or.inr ⟨hk, Or.inr ⟨he, ?_⟩⟩
      cases hx : x.st <;> simp

theorem Counted_refl (s : State) : Counted s s := ⟨_, _, rfl, fun _ => Fired_refl _ _⟩

/-- A state that only a counter distinguishes. -/
theorem counted_cnts (s : State) (c : SMap Cnt) : Counted s { s with pmu := { s.pmu with cnts := c } } := ⟨c, s.icu.srcs, rfl, fun _ => Fired_refl _ _⟩

theorem Counted_trans {s t u : State} : Counted s t → Counted t u → Counted s u := by
  rintro ⟨c, i, rfl, h⟩ ⟨c', i', rfl, h'⟩
  exact ⟨c', i', rfl, fun k => Fired_trans (h k) (h' k)⟩

@[simp] theorem srcOf_srcPut (n : Nat) (x : IcuSrc) (s : State) : srcOf (srcPut n x s) n = x := by simp [srcOf, srcPut]

theorem srcOf_srcPut_ne {k n : Nat} (h : k ≠ n) (x : IcuSrc) (s : State) : srcOf (srcPut n x s) k = srcOf s k := by
  simp [srcOf, srcPut, sget_sset_ne _ _ h]

/-- An overflow source is asserted. -/
theorem srcInput_counted (n : Nat) (hn : 2048 ≤ n) (s : State) : Counted s (srcInput n true s) := by
  have put : ∀ x, Fired n (srcOf s n) x → Counted s (srcPut n x s) := by
    intro x hx
    refine ⟨s.pmu.cnts, _, rfl, fun k => ?_⟩
    by_cases hk : k = n
    · subst hk; rw [sget_sset_self]; exact hx
    · rw [sget_sset_ne _ _ hk]; exact Fired_refl _ _
  simp only [srcInput]
  split
  · exact Counted_refl s
  · split
    · rename_i he
      exact put _ (Or.inr ⟨hn, Or.inl ⟨he, rfl⟩⟩)
    · rename_i he
      refine put _ (Or.inr ⟨hn, Or.inr ⟨by simpa using he, ?_⟩⟩)
      cases (srcOf s n).st <;> simp

theorem cntOverflow_counted (n : Nat) (c : Cnt) (s : State) : Counted s (cntOverflow n c s) := by
  simp only [cntOverflow]
  split
  · exact srcInput_counted _ (by omega) _
  · exact Counted_refl s

theorem chainFrom_counted : ∀ (k n : Nat) (s : State), Counted s (chainFrom k n s)
  | 0, _, s => Counted_refl s
  | k + 1, n, s => by
    rw [chainFrom]
    split
    · exact Counted_refl s
    · split
      · split
        · exact counted_cnts s _
        · exact Counted_trans (Counted_trans (counted_cnts s _) (cntOverflow_counted _ _ _)) (chainFrom_counted k _ _)
      · exact Counted_refl s

theorem cntAdd_counted (n : Nat) (c : Cnt) (k : Nat) (s : State) : Counted s (cntAdd n c k s) := by
  simp only [cntAdd]
  split
  · exact counted_cnts s _
  · exact Counted_trans (Counted_trans (counted_cnts s _) (cntOverflow_counted _ _ _)) (chainFrom_counted _ _ _)

/-- Counting an event changes event counters, and the interrupt sources of their overflows. -/
theorem countN_counted (ev : Nat) (d p : Option Nat) (k : Nat) (s : State) : Counted s (countN ev d p k s) := by
  have : ∀ (l : SMap Cnt) (t : State), Counted s t →
      Counted s (l.foldl (fun s' p_1 => if cntTakes p_1.2 ev d p then cntAdd p_1.1 p_1.2 k s' else s') t) := by
    intro l
    induction l with
    | nil => exact fun _ h => h
    | cons a l ih =>
      intro t h
      rw [List.foldl_cons]
      refine ih _ ?_
      split
      · exact Counted_trans h (cntAdd_counted _ _ _ _)
      · exact h
  exact this _ s (Counted_refl s)

theorem countP_counted (ev n : Nat) (s : State) : Counted s (countP ev n s) := countN_counted _ _ _ _ _
theorem countD_counted (ev n : Nat) (s : State) : Counted s (countD ev n s) := countN_counted _ _ _ _ _
theorem countDP_counted (ev n p : Nat) (s : State) : Counted s (countDP ev n p s) := countN_counted _ _ _ _ _

/-- A command whose effect is counted completes. -/
theorem completes_counted {s t u : State} {P : State → Prop} (hc : Counted t u) (hP : P u) (hr : t.reqs = s.reqs)
    (hw : t.erg.waits = s.erg.waits) (hd : t.dom = s.dom) (hf : t.flt.raised = s.flt.raised) : Completes (finish u) s P := by
  obtain ⟨c, i, rfl, _⟩ := hc
  exact completes_of hP hr hw hd hf

@[simp] theorem coreOf_corePut (n : Nat) (c : Core) (s : State) : coreOf (corePut n c s) n = c := by simp [coreOf, corePut]

theorem coreOf_corePut_ne {k n : Nat} (h : k ≠ n) (c : Core) (s : State) : coreOf (corePut n c s) k = coreOf s k := by
  simp [coreOf, corePut, sget_sset_ne _ _ h]

@[simp] theorem gReg_zero (c : Core) : gReg c 0 = 0 := rfl

theorem gReg_gSet (c : Core) (k j : Nat) (v : Word) : gReg (gSet c k v) j = if j = k ∧ k ≠ 0 then v else gReg c j := by
  by_cases hk : k = 0
  · simp [gSet, hk]
  · by_cases hj : j = 0
    · subst hj; simp [Ne.symm hk]
    · by_cases h : j = k
      · subst h; simp [gReg, gSet, hj]
      · simp [gReg, gSet, hj, hk, h, sget_sset_ne _ _ h]

/-- The core's fields that an instruction does not name stay. -/
@[simp] theorem gSet_fields (c : Core) (k : Nat) (v : Word) :
    (gSet c k v).st = c.st ∧ (gSet c k v).pc = c.pc ∧ (gSet c k v).busy = c.busy ∧ (gSet c k v).ask = c.ask ∧ (gSet c k v).smp = c.smp
      ∧ (gSet c k v).steps = c.steps ∧ (gSet c k v).depth = c.depth := by
  simp only [gSet]; split <;> simp

/-- An instruction of a core that runs acts. -/
theorem start_runs {s : State} {n : Nat} (h : CoreRuns s n) (insn : Nat) (addr : Core → Nat) (f : State → State) :
    start n insn addr f s = f s := by
  have hs : csmpStart n insn (addr (coreOf s n)) s = s := by
    simp only [csmpStart]
    rcases h.off with e | e <;> simp [e]
  simp [start, h.run, h.free, hs, h.fetch]

/-- Two writes of a core that is out of RESET: the last one stands. -/
theorem corePut_corePut (n : Nat) {c : Core} (h : c.st ≠ .reset) (d : Core) (s : State) : corePut n d (corePut n c s) = corePut n d s := by
  have hc : c ≠ {} := fun e => h (by rw [e])
  simp only [corePut]; rw [sset_sset _ _ hc]

/-- The sample of an instruction that is not sampled: nothing. -/
theorem csmpEnd_none {s : State} {n : Nat} (h : (coreOf s n).smp = none) (k : Option Nat) : csmpEnd n k s = s := by
  simp only [csmpEnd, h]

theorem boundary_none {s : State} {n : Nat} (h : (coreOf s n).ask = none) : boundary n s = s := by
  simp only [boundary, h]

/-- What an instruction of a core in RUN changes when it retires with a value in gd, from a state whose core is c with gd written. -/
theorem retireAt_eq {s : State} {n : Nat} (ha : (coreOf s n).ask = none) (hs : (coreOf s n).smp = none) (pc : Nat) :
    retireAt n pc s = countP 0x7001 n (corePut n { coreOf s n with pc := pc, steps := (coreOf s n).steps + 1, busy := .none } s) := by
  obtain ⟨c, i, e, _⟩ := countP_counted 0x7001 n (corePut n { coreOf s n with pc := pc, steps := (coreOf s n).steps + 1, busy := .none } s)
  have hc : coreOf (countP 0x7001 n (corePut n { coreOf s n with pc := pc, steps := (coreOf s n).steps + 1, busy := .none } s)) n
      = { coreOf s n with pc := pc, steps := (coreOf s n).steps + 1, busy := .none } := by
    rw [e]; exact coreOf_corePut _ _ _
  rw [retireAt, csmpEnd_none (by rw [hc]; exact hs), boundary_none (by rw [hc]; exact ha)]

/-- An instruction whose effect is to write gd retires. -/
theorem retireWith_retires {s : State} {n : Nat} (h : CoreRuns s n) (gd : Nat) (v : Word) :
    Retires s n gd v ((coreOf s n).pc + 4) (retireWith n gd v s) := by
  have hg := gSet_fields (coreOf s n) gd v
  have hst : (gSet (coreOf s n) gd v).st ≠ .reset := by rw [hg.1, h.run]; decide
  rw [retireWith, retire, retireAt_eq (by simp [h.ask]) (by simp [h.smp])]
  simp only [coreOf_corePut, corePut_corePut n hst, hg, Retires, retiredCore]
  exact countP_counted _ _ _

/-- An instruction that writes no register retires. -/
theorem retireAt_retires {s : State} {n : Nat} (h : CoreRuns s n) (pc : Nat) : Retires s n 0 0 pc (retireAt n pc s) := by
  rw [retireAt_eq h.ask h.smp]
  exact countP_counted _ _ _

/-- An instruction that retires completes. -/
theorem completes_retires {s u : State} {n gd pc : Nat} {v : Word} (h : Retires s n gd v pc u) : Completes (finish u) s (Retires s n gd v pc) :=
  completes_counted h h rfl rfl rfl rfl

/-- An instruction retires from a state that its effect has changed, with a value in gd. -/
theorem retireWith_retires_of {s : State} {n : Nat} (h : (coreOf s n).st = .run) (ha : (coreOf s n).ask = none) (hs : (coreOf s n).smp = none)
    (gd : Nat) (v : Word) : Retires s n gd v ((coreOf s n).pc + 4) (retireWith n gd v s) := by
  have hg := gSet_fields (coreOf s n) gd v
  have hst : (gSet (coreOf s n) gd v).st ≠ .reset := by rw [hg.1, h]; decide
  rw [retireWith, retire, retireAt_eq (by simp [ha]) (by simp [hs])]
  simp only [coreOf_corePut, corePut_corePut n hst, hg, Retires, retiredCore]
  exact countP_counted _ _ _

/-- An instruction that writes no register retires from a state that its effect has changed. -/
theorem retireAt_retires_of {s : State} {n : Nat} (ha : (coreOf s n).ask = none) (hs : (coreOf s n).smp = none) (pc : Nat) :
    Retires s n 0 0 pc (retireAt n pc s) := by
  rw [retireAt_eq ha hs]
  exact countP_counted _ _ _

/-! ### Memory words -/

@[simp] theorem memPut_cores (a k v : Nat) (s : State) : (memPut a k v s).flg.cores = s.flg.cores := rfl
@[simp] theorem memHeal_cores (a : Nat) (s : State) : (memHeal a s).flg.cores = s.flg.cores := rfl
@[simp] theorem coreOf_memPut (a k v : Nat) (s : State) (n : Nat) : coreOf (memPut a k v s) n = coreOf s n := rfl
@[simp] theorem coreOf_memHeal (a : Nat) (s : State) (n : Nat) : coreOf (memHeal a s) n = coreOf s n := rfl
@[simp] theorem coreOf_stWord (n a : Nat) (v : Word) (s : State) (m : Nat) : coreOf (stWord n a v s) m = coreOf s m := rfl

@[simp] theorem length_leBytes : ∀ k v, (leBytes k v).length = k
  | 0, _ => rfl
  | k + 1, v => by simp [leBytes, length_leBytes k]

/-- The bytes of a number hold it. -/
theorem leNat_leBytes : ∀ k v, leNat (leBytes k v) = v % 256 ^ k
  | 0, v => by simp [leBytes, leNat, Nat.mod_one]
  | k + 1, v => by
    rw [leBytes, leNat, leNat_leBytes k, Nat.pow_succ, Nat.mul_comm (256 ^ k), Nat.mod_mul]
    simp [BitVec.toNat_ofNat]

/-- A number read where it was written. -/
theorem memNat_memPut (a k v : Nat) (s : State) : memNat (memPut a k v s) a k = v % 256 ^ k := by
  have := memRead_memWrite (leBytes k v) s.flg.mem a
  rw [length_leBytes] at this
  simp only [memNat, memPut, this, leNat_leBytes]

/-- A write leaves the bytes outside it. -/
theorem memPut_out (a k v : Nat) (s : State) (c : Nat) (h : ¬(a ≤ c ∧ c < a + k)) :
    memByte (memPut a k v s).flg.mem c = memByte s.flg.mem c := by
  simp only [memPut]
  exact memByte_memWrite_out _ _ _ _ (by rw [length_leBytes]; exact h)

theorem memRead_congr : ∀ (k : Nat) (m m' : Memory) (a : Nat), (∀ c, a ≤ c → c < a + k → memByte m c = memByte m' c) → memRead m a k = memRead m' a k
  | 0, _, _, _, _ => rfl
  | k + 1, m, m', a, h => by
    rw [memRead, memRead, h a (by omega) (by omega), memRead_congr k m m' (a + 1) (fun c h1 h2 => h c (by omega) (by omega))]

/-- Words written to local data memory: the cores, and everything but memory and the marks of bad words, stay. -/
theorem stWords_frame (n : Nat) : ∀ (l : List Word) (a : Nat) (s : State), ∃ m b, stWords n a l s = { s with flg := { s.flg with mem := m, bad := b } }
  | [], _, s => ⟨s.flg.mem, s.flg.bad, rfl⟩
  | w :: t, a, s => by
    obtain ⟨m, b, e⟩ := stWords_frame n t (a + 8) (stWord n a w s)
    exact ⟨m, b, by rw [stWords, e]; rfl⟩

@[simp] theorem coreOf_stWords (n a : Nat) (l : List Word) (s : State) (k : Nat) : coreOf (stWords n a l s) k = coreOf s k := by
  obtain ⟨m, b, e⟩ := stWords_frame n l a s
  rw [e]; rfl

/-- Words written leave every byte outside them. -/
theorem stWord_out (n a : Nat) (w : Word) (s : State) (c : Nat)
    (h : ¬(coreWin n + 0x40000 + (a - 0x100000) ≤ c ∧ c < coreWin n + 0x40000 + (a - 0x100000) + 8)) :
    memByte (stWord n a w s).flg.mem c = memByte s.flg.mem c := by
  rw [stWord]
  exact memPut_out _ 8 _ _ c h

theorem stWords_out (n : Nat) (l : List Word) : ∀ (a : Nat) (s : State) (c : Nat),
    ¬(coreWin n + 0x40000 + (a - 0x100000) ≤ c ∧ c < coreWin n + 0x40000 + (a - 0x100000) + 8 * l.length) → 0x100000 ≤ a →
    memByte (stWords n a l s).flg.mem c = memByte s.flg.mem c := by
  induction l with
  | nil => intros; rfl
  | cons w t ih =>
    intro a s c h ha
    have hl : (w :: t).length = t.length + 1 := rfl
    rw [hl] at h
    have h1 : ¬(coreWin n + 0x40000 + (a + 8 - 0x100000) ≤ c ∧ c < coreWin n + 0x40000 + (a + 8 - 0x100000) + 8 * t.length) := by
      have e : a + 8 - 0x100000 = a - 0x100000 + 8 := by omega
      rw [e]; omega
    rw [stWords, ih (a + 8) (stWord n a w s) c h1 (by omega)]
    refine stWord_out n a w s c (fun hc => h ⟨hc.1, Nat.lt_of_lt_of_le hc.2 ?_⟩)
    exact Nat.add_le_add_left (by omega) _

/-- A word read depends on memory alone. -/
theorem ldWord_congr {s t : State} (h : s.flg.mem = t.flg.mem) (n a : Nat) : ldWord s n a = ldWord t n a := by
  simp only [ldWord, memNat, h]

/-- A word written reads back. -/
theorem ldWord_stWord (n a : Nat) (w : Word) (s : State) : ldWord (stWord n a w s) n a = w := by
  have e2 := memNat_memPut (coreWin n + 0x40000 + (a - 0x100000)) 8 w.toNat (memHeal (coreWin n + 0x40000 + (a - 0x100000)) s)
  rw [ldWord, stWord, e2]
  apply BitVec.eq_of_toNat_eq
  have := w.isLt
  simp only [word, BitVec.toNat_ofNat]
  omega

/-- Words written above a word leave it. -/
theorem ldWord_stWords_above (n : Nat) (l : List Word) (a b : Nat) (s : State) (hb : 0x100000 ≤ b) (h : b + 8 ≤ a) :
    ldWord (stWords n a l s) n b = ldWord s n b := by
  have e := memRead_congr 8 (stWords n a l s).flg.mem s.flg.mem (coreWin n + 0x40000 + (b - 0x100000))
    (fun c h1 h2 => stWords_out n l a s c (by omega) (by omega))
  rw [ldWord, ldWord, memNat, memNat, e]

/-- Each of the words written reads back. -/
theorem ldWord_stWords (n : Nat) (l : List Word) : ∀ (a : Nat) (s : State) (i : Nat) (hi : i < l.length), 0x100000 ≤ a →
    ldWord (stWords n a l s) n (a + 8 * i) = l[i] := by
  induction l with
  | nil => intro a s i hi; exact absurd hi (by simp)
  | cons w t ih =>
    intro a s i hi ha
    cases i with
    | zero => rw [stWords]; exact (ldWord_stWords_above n t (a + 8) a _ ha (by omega)).trans (ldWord_stWord n a w s)
    | succ i =>
      rw [stWords, show a + 8 * (i + 1) = a + 8 + 8 * i by omega, ih (a + 8) _ i (by simpa using hi) (by omega)]
      simp

/-- Taking an entry with a frame free (R276). -/
theorem takeEntry_enters {s : State} {n : Nat} (hd : (coreOf s n).depth < 8) (ha : (coreOf s n).ask = none) (int : Bool)
    (code detail ret eaddr : Nat) : Enters s n int code detail ret eaddr (takeEntry n int code detail ret eaddr s) := by
  have hd' : ¬ 8 ≤ (coreOf s n).depth := by omega
  simp only [takeEntry, if_neg hd']
  have hw : [word (ret / 4 * 4), word (at_ (b2n (coreOf s n).ie) 1 + b2n (coreOf s n).p2),
      word (at_ (b2n int) 63 + at_ detail 8 + code), word (eaddr % 2 ^ 48)] = frameWords (coreOf s n) int code detail ret eaddr := by
    simp only [frameWords, at_, Nat.pow_one, Nat.mul_comm 2]
  rw [hw]
  have hc := countP_counted 0x7002 n (corePut n (enteredCore (coreOf s n) int)
    (stWords n (frameAddr (coreOf s n).depth) (frameWords (coreOf s n) int code detail ret eaddr) s))
  have hb : (coreOf (countP 0x7002 n (corePut n (enteredCore (coreOf s n) int)
      (stWords n (frameAddr (coreOf s n).depth) (frameWords (coreOf s n) int code detail ret eaddr) s))) n).ask = none := by
    obtain ⟨c, i, e, _⟩ := hc
    rw [e]
    exact (congrArg Core.ask (coreOf_corePut _ _ _)).trans ha
  exact (boundary_none hb).symm ▸ hc

/-- An exception of an instruction that is not sampled. -/
theorem except_enters {s : State} {n : Nat} (hd : (coreOf s n).depth < 8) (ha : (coreOf s n).ask = none) (hs : (coreOf s n).smp = none)
    (code detail eaddr : Nat) : Enters s n false code detail (coreOf s n).pc eaddr (except n code detail eaddr s) := by
  rw [except, csmpEnd_none hs]
  exact takeEntry_enters hd ha _ _ _ _ _

/-- An entry that completes. -/
theorem completes_enters {s u : State} {n : Nat} {int : Bool} {code detail ret eaddr : Nat} (h : Enters s n int code detail ret eaddr u) :
    Completes (finish u) s (Enters s n int code detail ret eaddr) := by
  obtain ⟨m, b, e⟩ := stWords_frame n (frameWords (coreOf s n) int code detail ret eaddr) (frameAddr (coreOf s n).depth) s
  refine completes_counted h h ?_ ?_ ?_ ?_ <;> rw [e] <;> rfl

/-- Counting commutes with the writes of words of local data memory. -/
theorem stWords_counts (n : Nat) (c : SMap Cnt) (i : SMap IcuSrc) : ∀ (l : List Word) (a : Nat) (s : State),
    stWords n a l { s with pmu := { s.pmu with cnts := c }, icu := { s.icu with srcs := i } }
      = { stWords n a l s with pmu := { s.pmu with cnts := c }, icu := { s.icu with srcs := i } } := by
  intro l
  induction l with
  | nil => intros; rfl
  | cons w t ih =>
    intro a s
    rw [stWords, stWords]
    exact ih (a + 8) (stWord n a w s)

/-- An entry after a count is an entry from the state before the count. -/
theorem enters_of_counted {s t u : State} {n : Nat} {int : Bool} {code detail ret eaddr : Nat} (h : Counted s t)
    (he : Enters t n int code detail ret eaddr u) : Enters s n int code detail ret eaddr u := by
  obtain ⟨c, i, rfl, hf⟩ := h
  obtain ⟨c', i', rfl, hf'⟩ := he
  have e := stWords_counts n c i (frameWords (coreOf s n) int code detail ret eaddr) (frameAddr (coreOf s n).depth) s
  obtain ⟨m, b, e3⟩ := stWords_frame n (frameWords (coreOf s n) int code detail ret eaddr) (frameAddr (coreOf s n).depth) s
  have e2 : coreOf { s with pmu := { s.pmu with cnts := c }, icu := { s.icu with srcs := i } } n = coreOf s n := rfl
  refine ⟨c', i', ?_, fun k => ?_⟩
  · rw [e2, e, e3]; rfl
  · have h2 := hf' k
    rw [e2, e] at h2
    rw [e3] at h2 ⊢
    exact Fired_trans (hf k) h2

end Sys2Proof.Machine
end

