-- ==== Sys2Proof/Laws/Dispatch.lean ====
section
/-!
SUPPORT. Laws/Dispatch.lean: the meaning of each command, as an equation of `exec` that needs no unfolding of its 443 arms.
-/
namespace Sys2Proof.Machine

variable (s : State)

@[simp] theorem exec_flitReceive (port : Nat) (seq : Nat) (err : Nat) (tlp : Option Nat) (classes : List Nat) : exec (.flitReceive port seq err tlp classes) s = execFlitReceive port seq err tlp classes s := rfl
@[simp] theorem exec_memrd (port : Nat) (tag : Nat) (hpa : Nat) (mv : Meta) (err : Nat) : exec (.memrd port tag hpa mv err) s = execMemrd port tag hpa mv err s := rfl
@[simp] theorem exec_memrddata (port : Nat) (tag : Nat) (hpa : Nat) (err : Nat) : exec (.memrddata port tag hpa err) s = execMemrddata port tag hpa err s := rfl
@[simp] theorem exec_meminv (port : Nat) (tag : Nat) (hpa : Nat) (mv : Meta) (err : Nat) : exec (.meminv port tag hpa mv err) s = execMeminv port tag hpa mv err s := rfl
@[simp] theorem exec_memwr (port : Nat) (tag : Nat) (hpa : Nat) (mv : Meta) (data : Line) (poison : Bool) (err : Nat) : exec (.memwr port tag hpa mv data poison err) s = execMemwr port tag hpa mv data poison err s := rfl
@[simp] theorem exec_memwrptl (port : Nat) (tag : Nat) (hpa : Nat) (mv : Meta) (data : Line) (mask : Word) (poison : Bool) (err : Nat) : exec (.memwrptl port tag hpa mv data mask poison err) s = execMemwrptl port tag hpa mv data mask poison err s := rfl
@[simp] theorem exec_memclnevct (port : Nat) (tag : Nat) (hpa : Nat) : exec (.memclnevct port tag hpa) s = execMemclnevct port tag hpa s := rfl
@[simp] theorem exec_memspecrd (port : Nat) (hpa : Nat) : exec (.memspecrd port hpa) s = execMemspecrd port hpa s := rfl
@[simp] theorem exec_birspi (port : Nat) (id : Nat) : exec (.birspi port id) s = execBirspi port id s := rfl
@[simp] theorem exec_birsps (port : Nat) (id : Nat) : exec (.birsps port id) s = execBirsps port id s := rfl
@[simp] theorem exec_birspe (port : Nat) (id : Nat) : exec (.birspe port id) s = execBirspe port id s := rfl
@[simp] theorem exec_biconflict (port : Nat) (id : Nat) : exec (.biconflict port id) s = execBiconflict port id s := rfl
@[simp] theorem exec_gateCacheFill (list : Nat) : exec (.gateCacheFill list) s = execGateCacheFill list s := rfl
@[simp] theorem exec_placementTlbFill (idx : Nat) : exec (.placementTlbFill idx) s = execPlacementTlbFill idx s := rfl
@[simp] theorem exec_fillCommit (idx : Nat) : exec (.fillCommit idx) s = execFillCommit idx s := rfl
@[simp] theorem exec_fillWaitExpire (idx : Nat) : exec (.fillWaitExpire idx) s = execFillWaitExpire idx s := rfl
@[simp] theorem exec_poolMemdata (port : Nat) (tag : Nat) (data : Line) (poison : Bool) : exec (.poolMemdata port tag data poison) s = execPoolMemdata port tag data poison s := rfl
@[simp] theorem exec_poolCmp (port : Nat) (tag : Nat) : exec (.poolCmp port tag) s = execPoolCmp port tag s := rfl
@[simp] theorem exec_poolErrorResponse (port : Nat) (tag : Nat) : exec (.poolErrorResponse port tag) s = execPoolErrorResponse port tag s := rfl
@[simp] theorem exec_passthroughForward (port : Nat) (vppb : Nat) (id : Nat) (len : Nat) (cls : Nat) (isReq : Bool) : exec (.passthroughForward port vppb id len cls isReq) s = execPassthroughForward port vppb id len cls isReq s := rfl
@[simp] theorem exec_pbrFlit (port : Nat) (dpid : Nat) (id : Nat) (len : Nat) (ioReq : Bool) (isReq : Bool) : exec (.pbrFlit port dpid id len ioReq isReq) s = execPbrFlit port dpid id len ioReq isReq s := rfl
@[simp] theorem exec_kmdConfigAccess (vcs : Fin 64) (dom : Fin 4096) (bar : Bool) (offset : Fin 65536) (wr : Bool) (value : Word) : exec (.kmdConfigAccess vcs dom bar offset wr value) s = execKmdConfigAccess vcs dom bar offset wr value s := rfl
@[simp] theorem exec_hdmDecoderCommit (vcs : Nat) (dom : Nat) (dec : Nat) (hpa : Nat) (size : Nat) (da : Nat) (bi : Bool) : exec (.hdmDecoderCommit vcs dom dec hpa size da bi) s = execHdmDecoderCommit vcs dom dec hpa size da bi s := rfl
@[simp] theorem exec_atomicopFetchadd (port : Nat) (vppb : Nat) (tag : Nat) (off : Nat) (w : MeldW) (a : Nat) : exec (.atomicopFetchadd port vppb tag off w a) s = execAtomicopFetchadd port vppb tag off w a s := rfl
@[simp] theorem exec_atomicopSwap (port : Nat) (vppb : Nat) (tag : Nat) (off : Nat) (w : MeldW) (a : Nat) : exec (.atomicopSwap port vppb tag off w a) s = execAtomicopSwap port vppb tag off w a s := rfl
@[simp] theorem exec_atomicopCas (port : Nat) (vppb : Nat) (tag : Nat) (off : Nat) (w : MeldW) (a : Nat) (b : Nat) : exec (.atomicopCas port vppb tag off w a b) s = execAtomicopCas port vppb tag off w a b s := rfl
@[simp] theorem exec_meldTrackerResume (unit : Nat) : exec (.meldTrackerResume unit) s = execMeldTrackerResume unit s := rfl
@[simp] theorem exec_meldFarTimeout (tag : Nat) : exec (.meldFarTimeout tag) s = execMeldFarTimeout tag s := rfl
@[simp] theorem exec_txRecord (port : Nat) : exec (.txRecord port) s = execTxRecord port s := rfl
@[simp] theorem exec_parkRelease (port : Nat) (cls : Nat) : exec (.parkRelease port cls) s = execParkRelease port cls s := rfl
@[simp] theorem exec_subqueueHeadFree (port : Nat) : exec (.subqueueHeadFree port) s = execSubqueueHeadFree port s := rfl
@[simp] theorem exec_creditAdvertise (port : Nat) (cls : Nat) (n : Nat) : exec (.creditAdvertise port cls n) s = execCreditAdvertise port cls n s := rfl
@[simp] theorem exec_creditReceived (port : Nat) (chan : Nat) (n : Nat) (infinite : Bool) : exec (.creditReceived port chan n infinite) s = execCreditReceived port chan n infinite s := rfl
@[simp] theorem exec_flitAck (port : Nat) (seq : Nat) : exec (.flitAck port seq) s = execFlitAck port seq s := rfl
@[simp] theorem exec_cxlReplayRequest (port : Nat) (seq : Nat) (selective : Bool) : exec (.cxlReplayRequest port seq selective) s = execCxlReplayRequest port seq selective s := rfl
@[simp] theorem exec_paceWindow (cycle : Nat) : exec (.paceWindow cycle) s = execPaceWindow cycle s := rfl
@[simp] theorem exec_paceLevelDecay : exec (.paceLevelDecay) s = execPaceLevelDecay s := rfl
@[simp] theorem exec_ergPatrolScrub (kind : Nat) (grain : Nat) (w : Nat) (cell : Nat) (rec_ : Nat) : exec (.ergPatrolScrub kind grain w cell rec_) s = execErgPatrolScrub kind grain w cell rec_ s := rfl
@[simp] theorem exec_linkDown (port : Nat) : exec (.linkDown port) s = execLinkDown port s := rfl
@[simp] theorem exec_hostLost (port : Nat) : exec (.hostLost port) s = execHostLost port s := rfl
@[simp] theorem exec_poolDeviceLost (dev : Nat) : exec (.poolDeviceLost dev) s = execPoolDeviceLost dev s := rfl
@[simp] theorem exec_lossWalkStep (dev : Nat) (n : Nat) : exec (.lossWalkStep dev n) s = execLossWalkStep dev n s := rfl
@[simp] theorem exec_initiateDcAdd (dom : Nat) (first : Nat) (n : Nat) (vcs : Nat) : exec (.initiateDcAdd dom first n vcs) s = execInitiateDcAdd dom first n vcs s := rfl
@[simp] theorem exec_addDcResponse (vcs : Nat) (dom : Nat) (accepted : List Nat) : exec (.addDcResponse vcs dom accepted) s = execAddDcResponse vcs dom accepted s := rfl
@[simp] theorem exec_releaseDc (vcs : Nat) (dom : Nat) (blocks : List Nat) : exec (.releaseDc vcs dom blocks) s = execReleaseDc vcs dom blocks s := rfl
@[simp] theorem exec_initiateDcRelease (dom : Nat) (blocks : List Nat) : exec (.initiateDcRelease dom blocks) s = execInitiateDcRelease dom blocks s := rfl
@[simp] theorem exec_releaseDrainDone (dom : Nat) : exec (.releaseDrainDone dom) s = execReleaseDrainDone dom s := rfl
@[simp] theorem exec_scrubParcelDone (dev : Nat) : exec (.scrubParcelDone dev) s = execScrubParcelDone dev s := rfl
@[simp] theorem exec_bindCreate (core : Fin 64) (gd : Fin 64) (ga : Fin 64) : exec (.bindCreate core gd ga) s = execBindCreate core gd ga s := rfl
@[simp] theorem exec_bindQuiesce (core : Fin 64) (gd : Fin 64) (ga : Fin 64) : exec (.bindQuiesce core gd ga) s = execBindQuiesce core gd ga s := rfl
@[simp] theorem exec_bindResume (core : Fin 64) (gd : Fin 64) (ga : Fin 64) : exec (.bindResume core gd ga) s = execBindResume core gd ga s := rfl
@[simp] theorem exec_bindVppb (core : Fin 64) (gd : Fin 64) (ga : Fin 64) (lds : Nat) : exec (.bindVppb core gd ga lds) s = execBindVppb core gd ga lds s := rfl
@[simp] theorem exec_bindPooldev (core : Fin 64) (gd : Fin 64) (ga : Fin 64) (lds : Nat) (cap : Nat) : exec (.bindPooldev core gd ga lds cap) s = execBindPooldev core gd ga lds cap s := rfl
@[simp] theorem exec_bindEvacuate (core : Fin 64) (gd : Fin 64) (ga : Fin 64) : exec (.bindEvacuate core gd ga) s = execBindEvacuate core gd ga s := rfl
@[simp] theorem exec_bindRetire (core : Fin 64) (gd : Fin 64) (ga : Fin 64) : exec (.bindRetire core gd ga) s = execBindRetire core gd ga s := rfl
@[simp] theorem exec_bindConstraint (core : Fin 64) (gd : Fin 64) (ga : Fin 64) : exec (.bindConstraint core gd ga) s = execBindConstraint core gd ga s := rfl
@[simp] theorem exec_bindWall (core : Fin 64) (gd : Fin 64) (ga : Fin 64) : exec (.bindWall core gd ga) s = execBindWall core gd ga s := rfl
@[simp] theorem exec_unbindVppb (core : Fin 64) (gd : Fin 64) (ga : Fin 64) : exec (.unbindVppb core gd ga) s = execUnbindVppb core gd ga s := rfl
@[simp] theorem exec_unbindPooldev (core : Fin 64) (gd : Fin 64) (ga : Fin 64) : exec (.unbindPooldev core gd ga) s = execUnbindPooldev core gd ga s := rfl
@[simp] theorem exec_winset (core : Fin 64) (gd : Fin 64) (ga : Fin 64) : exec (.winset core gd ga) s = execWinset core gd ga s := rfl
@[simp] theorem exec_winclr (core : Fin 64) (gd : Fin 64) (ga : Fin 64) : exec (.winclr core gd ga) s = execWinclr core gd ga s := rfl
@[simp] theorem exec_winclrDrainDone (win : Nat) : exec (.winclrDrainDone win) s = execWinclrDrainDone win s := rfl
@[simp] theorem exec_gatesetWrite (core : Fin 64) (gd : Fin 64) (ga : Fin 64) : exec (.gatesetWrite core gd ga) s = execGatesetWrite core gd ga s := rfl
@[simp] theorem exec_gatesetStage (core : Fin 64) (gd : Fin 64) (ga : Fin 64) : exec (.gatesetStage core gd ga) s = execGatesetStage core gd ga s := rfl
@[simp] theorem exec_gatesetInsert (core : Fin 64) (gd : Fin 64) (ga : Fin 64) : exec (.gatesetInsert core gd ga) s = execGatesetInsert core gd ga s := rfl
@[simp] theorem exec_gatesetSwap (core : Fin 64) (gd : Fin 64) (ga : Fin 64) : exec (.gatesetSwap core gd ga) s = execGatesetSwap core gd ga s := rfl
@[simp] theorem exec_gatesetPin (core : Fin 64) (gd : Fin 64) (ga : Fin 64) : exec (.gatesetPin core gd ga) s = execGatesetPin core gd ga s := rfl
@[simp] theorem exec_gateclrUnlink (core : Fin 64) (gd : Fin 64) (ga : Fin 64) : exec (.gateclrUnlink core gd ga) s = execGateclrUnlink core gd ga s := rfl
@[simp] theorem exec_gateclrFree (core : Fin 64) (gd : Fin 64) (ga : Fin 64) : exec (.gateclrFree core gd ga) s = execGateclrFree core gd ga s := rfl
@[simp] theorem exec_gsyncRetire : exec (.gsyncRetire) s = execGsyncRetire s := rfl
@[simp] theorem exec_msyncRetire : exec (.msyncRetire) s = execMsyncRetire s := rfl
@[simp] theorem exec_lineQueueGrant (dom : Nat) (da : Nat) : exec (.lineQueueGrant dom da) s = execLineQueueGrant dom da s := rfl
@[simp] theorem exec_trackerFreeResume (slice : Nat) : exec (.trackerFreeResume slice) s = execTrackerFreeResume slice s := rfl
@[simp] theorem exec_holdExpire (dom : Nat) (da : Nat) : exec (.holdExpire dom da) s = execHoldExpire dom da s := rfl
@[simp] theorem exec_lcEvictComplete (dom : Nat) (da : Nat) : exec (.lcEvictComplete dom da) s = execLcEvictComplete dom da s := rfl
@[simp] theorem exec_bisnpTimeout (id : Nat) : exec (.bisnpTimeout id) s = execBisnpTimeout id s := rfl
@[simp] theorem exec_hreqS (tile : Nat) (sw : Nat) (dom : Nat) (line : Nat) (tag : Nat) : exec (.hreqS tile sw dom line tag) s = execHreqS tile sw dom line tag s := rfl
@[simp] theorem exec_hreqX (tile : Nat) (sw : Nat) (dom : Nat) (line : Nat) (tag : Nat) : exec (.hreqX tile sw dom line tag) s = execHreqX tile sw dom line tag s := rfl
@[simp] theorem exec_hreqCur (tile : Nat) (sw : Nat) (dom : Nat) (line : Nat) (tag : Nat) (notrack : Bool) : exec (.hreqCur tile sw dom line tag notrack) s = execHreqCur tile sw dom line tag notrack s := rfl
@[simp] theorem exec_hreqWr (tile : Nat) (sw : Nat) (dom : Nat) (line : Nat) (tag : Nat) (notrack : Bool) (data : Line) (mask : Word) (poison : Bool) : exec (.hreqWr tile sw dom line tag notrack data mask poison) s = execHreqWr tile sw dom line tag notrack data mask poison s := rfl
@[simp] theorem exec_hwb (tile : Nat) (sw : Nat) (dom : Nat) (line : Nat) (tag : Nat) (kept : Nat) (data : Option Line) (poison : Bool) : exec (.hwb tile sw dom line tag kept data poison) s = execHwb tile sw dom line tag kept data poison s := rfl
@[simp] theorem exec_hgntS (tile : Nat) (dom : Nat) (line : Nat) (tag : Nat) (st : Nat) (data : Line) : exec (.hgntS tile dom line tag st data) s = execHgntS tile dom line tag st data s := rfl
@[simp] theorem exec_hgntX (tile : Nat) (dom : Nat) (line : Nat) (tag : Nat) (st : Nat) (data : Line) : exec (.hgntX tile dom line tag st data) s = execHgntX tile dom line tag st data s := rfl
@[simp] theorem exec_hcmp (tile : Nat) (dom : Nat) (line : Nat) (tag : Nat) (st : Nat) : exec (.hcmp tile dom line tag st) s = execHcmp tile dom line tag st s := rfl
@[simp] theorem exec_hsnpInv (tile : Nat) (home : Nat) (dom : Nat) (line : Nat) (tag : Nat) : exec (.hsnpInv tile home dom line tag) s = execHsnpInv tile home dom line tag s := rfl
@[simp] theorem exec_hsnpData (tile : Nat) (home : Nat) (dom : Nat) (line : Nat) (tag : Nat) : exec (.hsnpData tile home dom line tag) s = execHsnpData tile home dom line tag s := rfl
@[simp] theorem exec_hsnpCur (tile : Nat) (home : Nat) (dom : Nat) (line : Nat) (tag : Nat) : exec (.hsnpCur tile home dom line tag) s = execHsnpCur tile home dom line tag s := rfl
@[simp] theorem exec_hrspI (tile : Nat) (sw : Nat) (dom : Nat) (line : Nat) (tag : Nat) (data : Option Line) (poison : Bool) : exec (.hrspI tile sw dom line tag data poison) s = execHrspI tile sw dom line tag data poison s := rfl
@[simp] theorem exec_hrspS (tile : Nat) (sw : Nat) (dom : Nat) (line : Nat) (tag : Nat) (data : Option Line) (poison : Bool) : exec (.hrspS tile sw dom line tag data poison) s = execHrspS tile sw dom line tag data poison s := rfl
@[simp] theorem exec_hrspE (tile : Nat) (sw : Nat) (dom : Nat) (line : Nat) (tag : Nat) (data : Option Line) (poison : Bool) : exec (.hrspE tile sw dom line tag data poison) s = execHrspE tile sw dom line tag data poison s := rfl
@[simp] theorem exec_hmeld (tile : Nat) (sw : Nat) (dom : Nat) (line : Nat) (tag : Nat) (op : Nat) (width : Nat) (off : Nat) (notrack : Bool) (a : Nat) (b : Nat) : exec (.hmeld tile sw dom line tag op width off notrack a b) s = execHmeld tile sw dom line tag op width off notrack a b s := rfl
@[simp] theorem exec_hmeldRsp (tile : Nat) (dom : Nat) (line : Nat) (tag : Nat) (st : Nat) (old : Nat) (qdepth : Nat) (same : Bool) : exec (.hmeldRsp tile dom line tag st old qdepth same) s = execHmeldRsp tile dom line tag st old qdepth same s := rfl
@[simp] theorem exec_hsnpTimeout (id : Nat) : exec (.hsnpTimeout id) s = execHsnpTimeout id s := rfl
@[simp] theorem exec_heartbeat (tile : Nat) (sw : Nat) (incarn : Nat) : exec (.heartbeat tile sw incarn) s = execHeartbeat tile sw incarn s := rfl
@[simp] theorem exec_heartbeatSend : exec (.heartbeatSend) s = execHeartbeatSend s := rfl
@[simp] theorem exec_switchLost (sw : Nat) : exec (.switchLost sw) s = execSwitchLost sw s := rfl
@[simp] theorem exec_messageForward (tile : Nat) (op : Nat) (src : Nat) (dst : Nat) (hops : Nat) (dom : Nat) (tag : Nat) (st : Nat) (line : Nat) (args : Nat) (notrack : Bool) (data : Option Line) (mask : Option Word) : exec (.messageForward tile op src dst hops dom tag st line args notrack data mask) s = execMessageForward tile op src dst hops dom tag st line args notrack data mask s := rfl
@[simp] theorem exec_routeFenceEnd (tile : Nat) : exec (.routeFenceEnd tile) s = execRouteFenceEnd tile s := rfl
@[simp] theorem exec_caravanMoveStart : exec (.caravanMoveStart) s = execCaravanMoveStart s := rfl
@[simp] theorem exec_chunkComplete (car : Nat) (lines : List Line) (poison : Nat) (err : Nat) : exec (.chunkComplete car lines poison err) s = execChunkComplete car lines poison err s := rfl
@[simp] theorem exec_moveFlip (car : Nat) : exec (.moveFlip car) s = execMoveFlip car s := rfl
@[simp] theorem exec_switchMaxExpire (car : Nat) : exec (.switchMaxExpire car) s = execSwitchMaxExpire car s := rfl
@[simp] theorem exec_migrationAllowance : exec (.migrationAllowance) s = execMigrationAllowance s := rfl
@[simp] theorem exec_epochEnd : exec (.epochEnd) s = execEpochEnd s := rfl
@[simp] theorem exec_heatSweep (n : Nat) : exec (.heatSweep n) s = execHeatSweep n s := rfl
@[simp] theorem exec_pmapsetExtend (core : Fin 64) (gd : Fin 64) (ga : Fin 64) : exec (.pmapsetExtend core gd ga) s = execPmapsetExtend core gd ga s := rfl
@[simp] theorem exec_pmapsetRelease (core : Fin 64) (gd : Fin 64) (ga : Fin 64) : exec (.pmapsetRelease core gd ga) s = execPmapsetRelease core gd ga s := rfl
@[simp] theorem exec_pmapsetPin (core : Fin 64) (gd : Fin 64) (ga : Fin 64) : exec (.pmapsetPin core gd ga) s = execPmapsetPin core gd ga s := rfl
@[simp] theorem exec_pmapgetEntry (core : Fin 64) (gd : Fin 64) (ga : Fin 64) : exec (.pmapgetEntry core gd ga) s = execPmapgetEntry core gd ga s := rfl
@[simp] theorem exec_pmapgetLegs (core : Fin 64) (gd : Fin 64) (ga : Fin 64) : exec (.pmapgetLegs core gd ga) s = execPmapgetLegs core gd ga s := rfl
@[simp] theorem exec_moveStart (core : Fin 64) (gd : Fin 64) (ga : Fin 64) : exec (.moveStart core gd ga) s = execMoveStart core gd ga s := rfl
@[simp] theorem exec_moveCancel (core : Fin 64) (gd : Fin 64) (ga : Fin 64) : exec (.moveCancel core gd ga) s = execMoveCancel core gd ga s := rfl
@[simp] theorem exec_movestat (core : Fin 64) (gd : Fin 64) (ga : Fin 64) : exec (.movestat core gd ga) s = execMovestat core gd ga s := rfl
@[simp] theorem exec_heatRead (core : Fin 64) (gd : Fin 64) (ga : Fin 64) : exec (.heatRead core gd ga) s = execHeatRead core gd ga s := rfl
@[simp] theorem exec_heatSet (core : Fin 64) (gd : Fin 64) (ga : Fin 64) : exec (.heatSet core gd ga) s = execHeatSet core gd ga s := rfl
@[simp] theorem exec_sfquery (core : Fin 64) (gd : Fin 64) (ga : Fin 64) : exec (.sfquery core gd ga) s = execSfquery core gd ga s := rfl
@[simp] theorem exec_lineflush (core : Fin 64) (gd : Fin 64) (ga : Fin 64) : exec (.lineflush core gd ga) s = execLineflush core gd ga s := rfl
@[simp] theorem exec_lineflushDone (slot : Nat) (outcome : Nat) : exec (.lineflushDone slot outcome) s = execLineflushDone slot outcome s := rfl
@[simp] theorem exec_meld (core : Fin 64) (gd : Fin 64) (ga : Fin 64) : exec (.meld core gd ga) s = execMeld core gd ga s := rfl
@[simp] theorem exec_mirrorSet (core : Fin 64) (gd : Fin 64) (ga : Fin 64) : exec (.mirrorSet core gd ga) s = execMirrorSet core gd ga s := rfl
@[simp] theorem exec_mirrorClear (core : Fin 64) (gd : Fin 64) (ga : Fin 64) : exec (.mirrorClear core gd ga) s = execMirrorClear core gd ga s := rfl
@[simp] theorem exec_qossetProfile (core : Fin 64) (gd : Fin 64) (ga : Fin 64) : exec (.qossetProfile core gd ga) s = execQossetProfile core gd ga s := rfl
@[simp] theorem exec_qossetDomain (core : Fin 64) (gd : Fin 64) (ga : Fin 64) : exec (.qossetDomain core gd ga) s = execQossetDomain core gd ga s := rfl
@[simp] theorem exec_qossetPortq (core : Fin 64) (gd : Fin 64) (ga : Fin 64) : exec (.qossetPortq core gd ga) s = execQossetPortq core gd ga s := rfl
@[simp] theorem exec_qossetAlpha (core : Fin 64) (gd : Fin 64) (ga : Fin 64) : exec (.qossetAlpha core gd ga) s = execQossetAlpha core gd ga s := rfl
@[simp] theorem exec_qossetReserve (core : Fin 64) (gd : Fin 64) (ga : Fin 64) : exec (.qossetReserve core gd ga) s = execQossetReserve core gd ga s := rfl
@[simp] theorem exec_portctlDisable (core : Fin 64) (gd : Fin 64) (ga : Fin 64) : exec (.portctlDisable core gd ga) s = execPortctlDisable core gd ga s := rfl
@[simp] theorem exec_portctlEnable (core : Fin 64) (gd : Fin 64) (ga : Fin 64) : exec (.portctlEnable core gd ga) s = execPortctlEnable core gd ga s := rfl
@[simp] theorem exec_portctlRetrain (core : Fin 64) (gd : Fin 64) (ga : Fin 64) : exec (.portctlRetrain core gd ga) s = execPortctlRetrain core gd ga s := rfl
@[simp] theorem exec_portctlPace (core : Fin 64) (gd : Fin 64) (ga : Fin 64) : exec (.portctlPace core gd ga) s = execPortctlPace core gd ga s := rfl
@[simp] theorem exec_nvstoreStage (core : Fin 64) (gd : Fin 64) (ga : Fin 64) : exec (.nvstoreStage core gd ga) s = execNvstoreStage core gd ga s := rfl
@[simp] theorem exec_nvstoreCommit (core : Fin 64) (gd : Fin 64) (ga : Fin 64) : exec (.nvstoreCommit core gd ga) s = execNvstoreCommit core gd ga s := rfl
@[simp] theorem exec_nvmBlockWriteDone (hist : Bool) (ok : Bool) : exec (.nvmBlockWriteDone hist ok) s = execNvmBlockWriteDone hist ok s := rfl
@[simp] theorem exec_nvstoreDiscard (core : Fin 64) (gd : Fin 64) (ga : Fin 64) : exec (.nvstoreDiscard core gd ga) s = execNvstoreDiscard core gd ga s := rfl
@[simp] theorem exec_nvstat (core : Fin 64) (gd : Fin 64) (ga : Fin 64) : exec (.nvstat core gd ga) s = execNvstat core gd ga s := rfl
@[simp] theorem exec_cntcfg (core : Fin 64) (gd : Fin 64) (ga : Fin 64) : exec (.cntcfg core gd ga) s = execCntcfg core gd ga s := rfl
@[simp] theorem exec_cntread (core : Fin 64) (gd : Fin 64) (ga : Fin 64) : exec (.cntread core gd ga) s = execCntread core gd ga s := rfl
@[simp] theorem exec_samplecfg (core : Fin 64) (gd : Fin 64) (ga : Fin 64) : exec (.samplecfg core gd ga) s = execSamplecfg core gd ga s := rfl
@[simp] theorem exec_resultputAck (core : Fin 64) (gd : Fin 64) (ga : Fin 64) : exec (.resultputAck core gd ga) s = execResultputAck core gd ga s := rfl
@[simp] theorem exec_resultputPost (core : Fin 64) (gd : Fin 64) (ga : Fin 64) : exec (.resultputPost core gd ga) s = execResultputPost core gd ga s := rfl
@[simp] theorem exec_add (core : Fin 64) (gd : Fin 64) (ga : Fin 64) (gb : Fin 64) : exec (.add core gd ga gb) s = execAdd core gd ga gb s := rfl
@[simp] theorem exec_sub (core : Fin 64) (gd : Fin 64) (ga : Fin 64) (gb : Fin 64) : exec (.sub core gd ga gb) s = execSub core gd ga gb s := rfl
@[simp] theorem exec_and (core : Fin 64) (gd : Fin 64) (ga : Fin 64) (gb : Fin 64) : exec (.and core gd ga gb) s = execAnd core gd ga gb s := rfl
@[simp] theorem exec_or (core : Fin 64) (gd : Fin 64) (ga : Fin 64) (gb : Fin 64) : exec (.or core gd ga gb) s = execOr core gd ga gb s := rfl
@[simp] theorem exec_xor (core : Fin 64) (gd : Fin 64) (ga : Fin 64) (gb : Fin 64) : exec (.xor core gd ga gb) s = execXor core gd ga gb s := rfl
@[simp] theorem exec_sll (core : Fin 64) (gd : Fin 64) (ga : Fin 64) (gb : Fin 64) : exec (.sll core gd ga gb) s = execSll core gd ga gb s := rfl
@[simp] theorem exec_srl (core : Fin 64) (gd : Fin 64) (ga : Fin 64) (gb : Fin 64) : exec (.srl core gd ga gb) s = execSrl core gd ga gb s := rfl
@[simp] theorem exec_sra (core : Fin 64) (gd : Fin 64) (ga : Fin 64) (gb : Fin 64) : exec (.sra core gd ga gb) s = execSra core gd ga gb s := rfl
@[simp] theorem exec_slt (core : Fin 64) (gd : Fin 64) (ga : Fin 64) (gb : Fin 64) : exec (.slt core gd ga gb) s = execSlt core gd ga gb s := rfl
@[simp] theorem exec_sltu (core : Fin 64) (gd : Fin 64) (ga : Fin 64) (gb : Fin 64) : exec (.sltu core gd ga gb) s = execSltu core gd ga gb s := rfl
@[simp] theorem exec_clz (core : Fin 64) (gd : Fin 64) (ga : Fin 64) (gb : Fin 64) : exec (.clz core gd ga gb) s = execClz core gd ga gb s := rfl
@[simp] theorem exec_ctz (core : Fin 64) (gd : Fin 64) (ga : Fin 64) (gb : Fin 64) : exec (.ctz core gd ga gb) s = execCtz core gd ga gb s := rfl
@[simp] theorem exec_popc (core : Fin 64) (gd : Fin 64) (ga : Fin 64) (gb : Fin 64) : exec (.popc core gd ga gb) s = execPopc core gd ga gb s := rfl
@[simp] theorem exec_addi (core : Fin 64) (gd : Fin 64) (ga : Fin 64) (imm : BitVec 15) : exec (.addi core gd ga imm) s = execAddi core gd ga imm s := rfl
@[simp] theorem exec_andi (core : Fin 64) (gd : Fin 64) (ga : Fin 64) (imm : BitVec 15) : exec (.andi core gd ga imm) s = execAndi core gd ga imm s := rfl
@[simp] theorem exec_ori (core : Fin 64) (gd : Fin 64) (ga : Fin 64) (imm : BitVec 15) : exec (.ori core gd ga imm) s = execOri core gd ga imm s := rfl
@[simp] theorem exec_xori (core : Fin 64) (gd : Fin 64) (ga : Fin 64) (imm : BitVec 15) : exec (.xori core gd ga imm) s = execXori core gd ga imm s := rfl
@[simp] theorem exec_slli (core : Fin 64) (gd : Fin 64) (ga : Fin 64) (imm : BitVec 13) : exec (.slli core gd ga imm) s = execSlli core gd ga imm s := rfl
@[simp] theorem exec_srli (core : Fin 64) (gd : Fin 64) (ga : Fin 64) (imm : BitVec 13) : exec (.srli core gd ga imm) s = execSrli core gd ga imm s := rfl
@[simp] theorem exec_srai (core : Fin 64) (gd : Fin 64) (ga : Fin 64) (imm : BitVec 13) : exec (.srai core gd ga imm) s = execSrai core gd ga imm s := rfl
@[simp] theorem exec_limm (core : Fin 64) (gd : Fin 64) (imm : BitVec 21) : exec (.limm core gd imm) s = execLimm core gd imm s := rfl
@[simp] theorem exec_limmh (core : Fin 64) (gd : Fin 64) (imm : BitVec 21) : exec (.limmh core gd imm) s = execLimmh core gd imm s := rfl
@[simp] theorem exec_ldb (core : Fin 64) (gd : Fin 64) (ga : Fin 64) (imm : BitVec 15) (err : Nat) : exec (.ldb core gd ga imm err) s = execLdb core gd ga imm err s := rfl
@[simp] theorem exec_ldh (core : Fin 64) (gd : Fin 64) (ga : Fin 64) (imm : BitVec 15) (err : Nat) : exec (.ldh core gd ga imm err) s = execLdh core gd ga imm err s := rfl
@[simp] theorem exec_ldw (core : Fin 64) (gd : Fin 64) (ga : Fin 64) (imm : BitVec 15) (err : Nat) : exec (.ldw core gd ga imm err) s = execLdw core gd ga imm err s := rfl
@[simp] theorem exec_ldd (core : Fin 64) (gd : Fin 64) (ga : Fin 64) (imm : BitVec 15) (err : Nat) : exec (.ldd core gd ga imm err) s = execLdd core gd ga imm err s := rfl
@[simp] theorem exec_stb (core : Fin 64) (gs : Fin 64) (ga : Fin 64) (imm : BitVec 15) (err : Nat) : exec (.stb core gs ga imm err) s = execStb core gs ga imm err s := rfl
@[simp] theorem exec_sth (core : Fin 64) (gs : Fin 64) (ga : Fin 64) (imm : BitVec 15) (err : Nat) : exec (.sth core gs ga imm err) s = execSth core gs ga imm err s := rfl
@[simp] theorem exec_stw (core : Fin 64) (gs : Fin 64) (ga : Fin 64) (imm : BitVec 15) (err : Nat) : exec (.stw core gs ga imm err) s = execStw core gs ga imm err s := rfl
@[simp] theorem exec_std (core : Fin 64) (gs : Fin 64) (ga : Fin 64) (imm : BitVec 15) : exec (.std core gs ga imm) s = execStd core gs ga imm s := rfl
@[simp] theorem exec_mul (core : Fin 64) (gd : Fin 64) (ga : Fin 64) (gb : Fin 64) : exec (.mul core gd ga gb) s = execMul core gd ga gb s := rfl
@[simp] theorem exec_mulhu (core : Fin 64) (gd : Fin 64) (ga : Fin 64) (gb : Fin 64) : exec (.mulhu core gd ga gb) s = execMulhu core gd ga gb s := rfl
@[simp] theorem exec_mulhs (core : Fin 64) (gd : Fin 64) (ga : Fin 64) (gb : Fin 64) : exec (.mulhs core gd ga gb) s = execMulhs core gd ga gb s := rfl
@[simp] theorem exec_divu (core : Fin 64) (gd : Fin 64) (ga : Fin 64) (gb : Fin 64) : exec (.divu core gd ga gb) s = execDivu core gd ga gb s := rfl
@[simp] theorem exec_divs (core : Fin 64) (gd : Fin 64) (ga : Fin 64) (gb : Fin 64) : exec (.divs core gd ga gb) s = execDivs core gd ga gb s := rfl
@[simp] theorem exec_remu (core : Fin 64) (gd : Fin 64) (ga : Fin 64) (gb : Fin 64) : exec (.remu core gd ga gb) s = execRemu core gd ga gb s := rfl
@[simp] theorem exec_rems (core : Fin 64) (gd : Fin 64) (ga : Fin 64) (gb : Fin 64) : exec (.rems core gd ga gb) s = execRems core gd ga gb s := rfl
@[simp] theorem exec_cget (core : Fin 64) (gd : Fin 64) (ga : Fin 64) (imm : BitVec 14) : exec (.cget core gd ga imm) s = execCget core gd ga imm s := rfl
@[simp] theorem exec_cset (core : Fin 64) (gd : Fin 64) (ga : Fin 64) (imm : BitVec 14) : exec (.cset core gd ga imm) s = execCset core gd ga imm s := rfl
@[simp] theorem exec_ladd (core : Fin 64) (gd : Fin 64) (ga : Fin 64) (gb : Fin 64) (w32 : Bool) (err : Nat) : exec (.ladd core gd ga gb w32 err) s = execLadd core gd ga gb w32 err s := rfl
@[simp] theorem exec_land (core : Fin 64) (gd : Fin 64) (ga : Fin 64) (gb : Fin 64) (w32 : Bool) (err : Nat) : exec (.land core gd ga gb w32 err) s = execLand core gd ga gb w32 err s := rfl
@[simp] theorem exec_lor (core : Fin 64) (gd : Fin 64) (ga : Fin 64) (gb : Fin 64) (w32 : Bool) (err : Nat) : exec (.lor core gd ga gb w32 err) s = execLor core gd ga gb w32 err s := rfl
@[simp] theorem exec_lxor (core : Fin 64) (gd : Fin 64) (ga : Fin 64) (gb : Fin 64) (w32 : Bool) (err : Nat) : exec (.lxor core gd ga gb w32 err) s = execLxor core gd ga gb w32 err s := rfl
@[simp] theorem exec_lswap (core : Fin 64) (gd : Fin 64) (ga : Fin 64) (gb : Fin 64) (w32 : Bool) (err : Nat) : exec (.lswap core gd ga gb w32 err) s = execLswap core gd ga gb w32 err s := rfl
@[simp] theorem exec_lcas (core : Fin 64) (gd : Fin 64) (ga : Fin 64) (gb : Fin 64) (w32 : Bool) (err : Nat) : exec (.lcas core gd ga gb w32 err) s = execLcas core gd ga gb w32 err s := rfl
@[simp] theorem exec_beq (core : Fin 64) (ga : Fin 64) (gb : Fin 64) (off : BitVec 12) : exec (.beq core ga gb off) s = execBeq core ga gb off s := rfl
@[simp] theorem exec_bne (core : Fin 64) (ga : Fin 64) (gb : Fin 64) (off : BitVec 12) : exec (.bne core ga gb off) s = execBne core ga gb off s := rfl
@[simp] theorem exec_blt (core : Fin 64) (ga : Fin 64) (gb : Fin 64) (off : BitVec 12) : exec (.blt core ga gb off) s = execBlt core ga gb off s := rfl
@[simp] theorem exec_bge (core : Fin 64) (ga : Fin 64) (gb : Fin 64) (off : BitVec 12) : exec (.bge core ga gb off) s = execBge core ga gb off s := rfl
@[simp] theorem exec_bltu (core : Fin 64) (ga : Fin 64) (gb : Fin 64) (off : BitVec 12) : exec (.bltu core ga gb off) s = execBltu core ga gb off s := rfl
@[simp] theorem exec_bgeu (core : Fin 64) (ga : Fin 64) (gb : Fin 64) (off : BitVec 12) : exec (.bgeu core ga gb off) s = execBgeu core ga gb off s := rfl
@[simp] theorem exec_bra (core : Fin 64) (ga : Fin 64) (gb : Fin 64) (off : BitVec 12) : exec (.bra core ga gb off) s = execBra core ga gb off s := rfl
@[simp] theorem exec_jmp (core : Fin 64) (off : BitVec 27) : exec (.jmp core off) s = execJmp core off s := rfl
@[simp] theorem exec_jal (core : Fin 64) (off : BitVec 27) : exec (.jal core off) s = execJal core off s := rfl
@[simp] theorem exec_jr (core : Fin 64) (gd : Fin 64) (ga : Fin 64) (gb : Fin 64) : exec (.jr core gd ga gb) s = execJr core gd ga gb s := rfl
@[simp] theorem exec_jalr (core : Fin 64) (gd : Fin 64) (ga : Fin 64) (gb : Fin 64) : exec (.jalr core gd ga gb) s = execJalr core gd ga gb s := rfl
@[simp] theorem exec_qpush (core : Fin 64) (gd : Fin 64) (ga : Fin 64) (gb : Fin 64) : exec (.qpush core gd ga gb) s = execQpush core gd ga gb s := rfl
@[simp] theorem exec_qpop (core : Fin 64) (gd : Fin 64) (ga : Fin 64) (gb : Fin 64) : exec (.qpop core gd ga gb) s = execQpop core gd ga gb s := rfl
@[simp] theorem exec_qpeek (core : Fin 64) (gd : Fin 64) (ga : Fin 64) (gb : Fin 64) : exec (.qpeek core gd ga gb) s = execQpeek core gd ga gb s := rfl
@[simp] theorem exec_qmark (core : Fin 64) (gd : Fin 64) (ga : Fin 64) (gb : Fin 64) : exec (.qmark core gd ga gb) s = execQmark core gd ga gb s := rfl
@[simp] theorem exec_qrewind (core : Fin 64) (gd : Fin 64) (ga : Fin 64) (gb : Fin 64) : exec (.qrewind core gd ga gb) s = execQrewind core gd ga gb s := rfl
@[simp] theorem exec_qrel (core : Fin 64) (gd : Fin 64) (ga : Fin 64) (gb : Fin 64) : exec (.qrel core gd ga gb) s = execQrel core gd ga gb s := rfl
@[simp] theorem exec_qstat (core : Fin 64) (gd : Fin 64) (ga : Fin 64) (gb : Fin 64) : exec (.qstat core gd ga gb) s = execQstat core gd ga gb s := rfl
@[simp] theorem exec_wait (core : Fin 64) (gd : Fin 64) (ga : Fin 64) (gb : Fin 64) : exec (.wait core gd ga gb) s = execWait core gd ga gb s := rfl
@[simp] theorem exec_sleep (core : Fin 64) (gd : Fin 64) (ga : Fin 64) (gb : Fin 64) : exec (.sleep core gd ga gb) s = execSleep core gd ga gb s := rfl
@[simp] theorem exec_waitEnd (core : Nat) : exec (.waitEnd core) s = execWaitEnd core s := rfl
@[simp] theorem exec_sleepWake (core : Nat) : exec (.sleepWake core) s = execSleepWake core s := rfl
@[simp] theorem exec_waitSleepDeadline (core : Nat) : exec (.waitSleepDeadline core) s = execWaitSleepDeadline core s := rfl
@[simp] theorem exec_intclaim (core : Fin 64) (gd : Fin 64) (ga : Fin 64) (gb : Fin 64) : exec (.intclaim core gd ga gb) s = execIntclaim core gd ga gb s := rfl
@[simp] theorem exec_intdone (core : Fin 64) (gd : Fin 64) (ga : Fin 64) (gb : Fin 64) : exec (.intdone core gd ga gb) s = execIntdone core gd ga gb s := rfl
@[simp] theorem exec_trap (core : Fin 64) (gd : Fin 64) (ga : Fin 64) (gb : Fin 64) : exec (.trap core gd ga gb) s = execTrap core gd ga gb s := rfl
@[simp] theorem exec_eret (core : Fin 64) (gd : Fin 64) (ga : Fin 64) (gb : Fin 64) (err : Nat) : exec (.eret core gd ga gb err) s = execEret core gd ga gb err s := rfl
@[simp] theorem exec_fenceL (core : Fin 64) (gd : Fin 64) (ga : Fin 64) (gb : Fin 64) : exec (.fenceL core gd ga gb) s = execFenceL core gd ga gb s := rfl
@[simp] theorem exec_fenceF (core : Fin 64) (gd : Fin 64) (ga : Fin 64) (gb : Fin 64) : exec (.fenceF core gd ga gb) s = execFenceF core gd ga gb s := rfl
@[simp] theorem exec_gsync (core : Fin 64) (gd : Fin 64) (ga : Fin 64) (gb : Fin 64) : exec (.gsync core gd ga gb) s = execGsync core gd ga gb s := rfl
@[simp] theorem exec_msync (core : Fin 64) (gd : Fin 64) (ga : Fin 64) (gb : Fin 64) : exec (.msync core gd ga gb) s = execMsync core gd ga gb s := rfl
@[simp] theorem exec_halt (core : Fin 64) (gd : Fin 64) (ga : Fin 64) (gb : Fin 64) : exec (.halt core gd ga gb) s = execHalt core gd ga gb s := rfl
@[simp] theorem exec_interruptEntry (core : Fin 64) : exec (.interruptEntry core) s = execInterruptEntry core s := rfl
@[simp] theorem exec_coreReset (core : Fin 64) : exec (.coreReset core) s = execCoreReset core s := rfl
@[simp] theorem exec_coreStart (core : Fin 64) : exec (.coreStart core) s = execCoreStart core s := rfl
@[simp] theorem exec_coreHaltreq (core : Fin 64) : exec (.coreHaltreq core) s = execCoreHaltreq core s := rfl
@[simp] theorem exec_qringEnable (ring : Nat) (value : Word) : exec (.qringEnable ring value) s = execQringEnable ring value s := rfl
@[simp] theorem exec_qringDisable (ring : Nat) (value : Word) : exec (.qringDisable ring value) s = execQringDisable ring value s := rfl
@[simp] theorem exec_ringIdleExpire (ring : Nat) : exec (.ringIdleExpire ring) s = execRingIdleExpire ring s := rfl
@[simp] theorem exec_pendclr (source : Nat) : exec (.pendclr source) s = execPendclr source s := rfl
@[simp] theorem exec_icuSwset (n : Nat) : exec (.icuSwset n) s = execIcuSwset n s := rfl
@[simp] theorem exec_refclkLoss (tile : Nat) : exec (.refclkLoss tile) s = execRefclkLoss tile s := rfl
@[simp] theorem exec_refclkRelock (tile : Nat) : exec (.refclkRelock tile) s = execRefclkRelock tile s := rfl
@[simp] theorem exec_timeHoldover : exec (.timeHoldover) s = execTimeHoldover s := rfl
@[simp] theorem exec_timeReferenceReturn : exec (.timeReferenceReturn) s = execTimeReferenceReturn s := rfl
@[simp] theorem exec_laneTrainingDone (port : Nat) (failed : Nat) (inv : Nat) (rev : Bool) : exec (.laneTrainingDone port failed inv rev) s = execLaneTrainingDone port failed inv rev s := rfl
@[simp] theorem exec_laneAdaptStep (lane : Nat) : exec (.laneAdaptStep lane) s = execLaneAdaptStep lane s := rfl
@[simp] theorem exec_eyeMeasure (lane : Nat) (h : Nat) (w : Nat) : exec (.eyeMeasure lane h w) s = execEyeMeasure lane h w s := rfl
@[simp] theorem exec_utilWindow (utils : List Nat) : exec (.utilWindow utils) s = execUtilWindow utils s := rfl
@[simp] theorem exec_checkRemeasure (lane : Nat) (h : Nat) (w : Nat) : exec (.checkRemeasure lane h w) s = execCheckRemeasure lane h w s := rfl
@[simp] theorem exec_trlEqStepEnd (lane : Nat) (h : Nat) (w : Nat) : exec (.trlEqStepEnd lane h w) s = execTrlEqStepEnd lane h w s := rfl
@[simp] theorem exec_laneOutOfService (lane : Nat) (cause : Nat) : exec (.laneOutOfService lane cause) s = execLaneOutOfService lane cause s := rfl
@[simp] theorem exec_lossOfSignal (lane : Nat) (left : Nat) : exec (.lossOfSignal lane left) s = execLossOfSignal lane left s := rfl
@[simp] theorem exec_alignmentMarker (lane : Nat) (found : Bool) (logical : Nat) (mcount : Nat) (flags : Nat) (errs : Nat) (skew : Nat) : exec (.alignmentMarker lane found logical mcount flags errs skew) s = execAlignmentMarker lane found logical mcount flags errs skew s := rfl
@[simp] theorem exec_linkUp (port : Nat) (flit : Nat) (rate : Nat) (width : Nat) (io : Bool) (mem : Bool) (cache : Bool) (pbr : Bool) (vcs : Nat) : exec (.linkUp port flit rate width io mem cache pbr vcs) s = execLinkUp port flit rate width io mem cache pbr vcs s := rfl
@[simp] theorem exec_pauseStart (port : Nat) : exec (.pauseStart port) s = execPauseStart port s := rfl
@[simp] theorem exec_pauseResume (port : Nat) (width : Nat) (rate : Nat) : exec (.pauseResume port width rate) s = execPauseResume port width rate s := rfl
@[simp] theorem exec_pauseLimitExpire (port : Nat) : exec (.pauseLimitExpire port) s = execPauseLimitExpire port s := rfl
@[simp] theorem exec_memCtoExpire (port : Nat) (tag : Nat) : exec (.memCtoExpire port tag) s = execMemCtoExpire port tag s := rfl
@[simp] theorem exec_ioCtoExpire (tag : Nat) : exec (.ioCtoExpire tag) s = execIoCtoExpire tag s := rfl
@[simp] theorem exec_ideKeyRefresh (port : Nat) (stream : Nat) : exec (.ideKeyRefresh port stream) s = execIdeKeyRefresh port stream s := rfl
@[simp] theorem exec_doeRequest (fn : Nat) (prot : Nat) (len : Nat) (index : Nat) : exec (.doeRequest fn prot len index) s = execDoeRequest fn prot len index s := rfl
@[simp] theorem exec_doeAbort (fn : Nat) : exec (.doeAbort fn) s = execDoeAbort fn s := rfl
@[simp] theorem exec_perstAssert (port : Nat) : exec (.perstAssert port) s = execPerstAssert port s := rfl
@[simp] theorem exec_perstDeassert (port : Nat) : exec (.perstDeassert port) s = execPerstDeassert port s := rfl
@[simp] theorem exec_perstRelease (port : Nat) : exec (.perstRelease port) s = execPerstRelease port s := rfl
@[simp] theorem exec_trlFrameRx (tile : Nat) (good : Bool) (typ : Nat) (seq : Nat) (ack : Nat) (pace : Nat) (nak : Bool) (spa : Nat) (spb : Nat) (health : Nat) (classes : List Nat) (reserved : Bool) : exec (.trlFrameRx tile good typ seq ack pace nak spa spb health classes reserved) s = execTrlFrameRx tile good typ seq ack pace nak spa spb health classes reserved s := rfl
@[simp] theorem exec_trlFrameTx (tile : Nat) : exec (.trlFrameTx tile) s = execTrlFrameTx tile s := rfl
@[simp] theorem exec_replayAckTimeout (tile : Nat) : exec (.replayAckTimeout tile) s = execReplayAckTimeout tile s := rfl
@[simp] theorem exec_spillMeterRelease (tile : Nat) : exec (.spillMeterRelease tile) s = execSpillMeterRelease tile s := rfl
@[simp] theorem exec_paceSilence (tile : Nat) : exec (.paceSilence tile) s = execPaceSilence tile s := rfl
@[simp] theorem exec_trlFrameTimeout (tile : Nat) : exec (.trlFrameTimeout tile) s = execTrlFrameTimeout tile s := rfl
@[simp] theorem exec_trlDetect (tile : Nat) (lanes : Nat) : exec (.trlDetect tile lanes) s = execTrlDetect tile lanes s := rfl
@[simp] theorem exec_trlTrainRetry (tile : Nat) : exec (.trlTrainRetry tile) s = execTrlTrainRetry tile s := rfl
@[simp] theorem exec_trainFrame (tile : Nat) (tstate : Nat) (peer : Nat) (peerPort : Nat) (flags : Nat) (fabric : Nat) (session : Nat) (nextRx : Nat) (tsend : Nat) (techo : Nat) (thold : Nat) : exec (.trainFrame tile tstate peer peerPort flags fabric session nextRx tsend techo thold) s = execTrainFrame tile tstate peer peerPort flags fabric session nextRx tsend techo thold s := rfl
@[simp] theorem exec_resumeMaxExpire (tile : Nat) : exec (.resumeMaxExpire tile) s = execResumeMaxExpire tile s := rfl
@[simp] theorem exec_spareReq (tile : Nat) (lane : Nat) (spare : Nat) (mode : Nat) : exec (.spareReq tile lane spare mode) s = execSpareReq tile lane spare mode s := rfl
@[simp] theorem exec_spareCheckDone (tile : Nat) (half : Nat) : exec (.spareCheckDone tile half) s = execSpareCheckDone tile half s := rfl
@[simp] theorem exec_spareDone (tile : Nat) (lane : Nat) (spare : Nat) : exec (.spareDone tile lane spare) s = execSpareDone tile lane spare s := rfl
@[simp] theorem exec_spareRefuse (tile : Nat) : exec (.spareRefuse tile) s = execSpareRefuse tile s := rfl
@[simp] theorem exec_idleEnterExpire (tile : Nat) : exec (.idleEnterExpire tile) s = execIdleEnterExpire tile s := rfl
@[simp] theorem exec_idleReq (tile : Nat) : exec (.idleReq tile) s = execIdleReq tile s := rfl
@[simp] theorem exec_idleAck (tile : Nat) : exec (.idleAck tile) s = execIdleAck tile s := rfl
@[simp] theorem exec_idleNak (tile : Nat) : exec (.idleNak tile) s = execIdleNak tile s := rfl
@[simp] theorem exec_idleExit (tile : Nat) : exec (.idleExit tile) s = execIdleExit tile s := rfl
@[simp] theorem exec_eqReq (tile : Nat) (words : List Nat) : exec (.eqReq tile words) s = execEqReq tile words s := rfl
@[simp] theorem exec_eqRsp (tile : Nat) (words : List Nat) : exec (.eqRsp tile words) s = execEqRsp tile words s := rfl
@[simp] theorem exec_entdaa (addr : Fin 128) : exec (.entdaa addr) s = execEntdaa addr s := rfl
@[simp] theorem exec_setdasa (static : Fin 128) (dynamic : Fin 128) : exec (.setdasa static dynamic) s = execSetdasa static dynamic s := rfl
@[simp] theorem exec_setnewda (addr : Fin 128) : exec (.setnewda addr) s = execSetnewda addr s := rfl
@[simp] theorem exec_rstdaa : exec (.rstdaa) s = execRstdaa s := rfl
@[simp] theorem exec_getpid : exec (.getpid) s = execGetpid s := rfl
@[simp] theorem exec_getbcr : exec (.getbcr) s = execGetbcr s := rfl
@[simp] theorem exec_getdcr : exec (.getdcr) s = execGetdcr s := rfl
@[simp] theorem exec_getstatus : exec (.getstatus) s = execGetstatus s := rfl
@[simp] theorem exec_getmrl : exec (.getmrl) s = execGetmrl s := rfl
@[simp] theorem exec_getmwl : exec (.getmwl) s = execGetmwl s := rfl
@[simp] theorem exec_setmrl (len : Fin 65536) : exec (.setmrl len) s = execSetmrl len s := rfl
@[simp] theorem exec_setmwl (len : Fin 65536) : exec (.setmwl len) s = execSetmwl len s := rfl
@[simp] theorem exec_enec (events : Fin 256) : exec (.enec events) s = execEnec events s := rfl
@[simp] theorem exec_disec (events : Fin 256) : exec (.disec events) s = execDisec events s := rfl
@[simp] theorem exec_rstact (action : Fin 256) : exec (.rstact action) s = execRstact action s := rfl
@[simp] theorem exec_smbusBlockRead (addr : Fin 128) (cmd : Fin 256) : exec (.smbusBlockRead addr cmd) s = execSmbusBlockRead addr cmd s := rfl
@[simp] theorem exec_setEndpointId (eid : Fin 256) : exec (.setEndpointId eid) s = execSetEndpointId eid s := rfl
@[simp] theorem exec_getEndpointId : exec (.getEndpointId) s = execGetEndpointId s := rfl
@[simp] theorem exec_getMctpVersionSupport : exec (.getMctpVersionSupport) s = execGetMctpVersionSupport s := rfl
@[simp] theorem exec_getMessageTypeSupport : exec (.getMessageTypeSupport) s = execGetMessageTypeSupport s := rfl
@[simp] theorem exec_getEndpointUuid : exec (.getEndpointUuid) s = execGetEndpointUuid s := rfl
@[simp] theorem exec_identify (inband : Bool) : exec (.identify inband) s = execIdentify inband s := rfl
@[simp] theorem exec_backgroundOperationStatus (inband : Bool) : exec (.backgroundOperationStatus inband) s = execBackgroundOperationStatus inband s := rfl
@[simp] theorem exec_getResponseMessageLimit (inband : Bool) : exec (.getResponseMessageLimit inband) s = execGetResponseMessageLimit inband s := rfl
@[simp] theorem exec_setResponseMessageLimit (inband : Bool) (n : Fin 256) : exec (.setResponseMessageLimit inband n) s = execSetResponseMessageLimit inband n s := rfl
@[simp] theorem exec_getEventRecords (inband : Bool) (log : Fin 5) : exec (.getEventRecords inband log) s = execGetEventRecords inband log s := rfl
@[simp] theorem exec_clearEventRecords (inband : Bool) (log : Fin 5) (all : Bool) (handles : List Nat) : exec (.clearEventRecords inband log all handles) s = execClearEventRecords inband log all handles s := rfl
@[simp] theorem exec_getEventInterruptPolicy (inband : Bool) : exec (.getEventInterruptPolicy inband) s = execGetEventInterruptPolicy inband s := rfl
@[simp] theorem exec_setEventInterruptPolicy (inband : Bool) (policy : Nat) : exec (.setEventInterruptPolicy inband policy) s = execSetEventInterruptPolicy inband policy s := rfl
@[simp] theorem exec_identifySwitchDevice (inband : Bool) : exec (.identifySwitchDevice inband) s = execIdentifySwitchDevice inband s := rfl
@[simp] theorem exec_getPhysicalPortState (inband : Bool) (ports : List Nat) : exec (.getPhysicalPortState inband ports) s = execGetPhysicalPortState inband ports s := rfl
@[simp] theorem exec_physicalPortControl (inband : Bool) (port : Nat) (op : Nat) : exec (.physicalPortControl inband port op) s = execPhysicalPortControl inband port op s := rfl
@[simp] theorem exec_sendPpbCxlioConfigRequest (inband : Bool) (port : Nat) (reg : Fin 4096) (wr : Bool) (value : BitVec 32) : exec (.sendPpbCxlioConfigRequest inband port reg wr value) s = execSendPpbCxlioConfigRequest inband port reg wr value s := rfl
@[simp] theorem exec_getVirtualCxlSwitchInfo (inband : Bool) (vcs : Fin 64) : exec (.getVirtualCxlSwitchInfo inband vcs) s = execGetVirtualCxlSwitchInfo inband vcs s := rfl
@[simp] theorem exec_fmBindVppb (inband : Bool) (vcs : Fin 64) (vppb : Fin 256) (port : Fin 128) (ld : Option (Fin 16)) (lds : Nat) : exec (.fmBindVppb inband vcs vppb port ld lds) s = execFmBindVppb inband vcs vppb port ld lds s := rfl
@[simp] theorem exec_fmUnbindVppb (inband : Bool) (vcs : Fin 64) (vppb : Fin 256) : exec (.fmUnbindVppb inband vcs vppb) s = execFmUnbindVppb inband vcs vppb s := rfl
@[simp] theorem exec_generateAerEvent (inband : Bool) (vcs : Fin 64) (vppb : Fin 256) (err : BitVec 32) : exec (.generateAerEvent inband vcs vppb err) s = execGenerateAerEvent inband vcs vppb err s := rfl
@[simp] theorem exec_tunnelManagementCommand (inband : Bool) (port : Nat) : exec (.tunnelManagementCommand inband port) s = execTunnelManagementCommand inband port s := rfl
@[simp] theorem exec_sendLdCxlioConfigRequest (inband : Bool) (port : Nat) : exec (.sendLdCxlioConfigRequest inband port) s = execSendLdCxlioConfigRequest inband port s := rfl
@[simp] theorem exec_sendLdCxlioMemoryRequest (inband : Bool) (port : Nat) : exec (.sendLdCxlioMemoryRequest inband port) s = execSendLdCxlioMemoryRequest inband port s := rfl
@[simp] theorem exec_getDcdInfo (dom : Fin 4096) : exec (.getDcdInfo dom) s = execGetDcdInfo dom s := rfl
@[simp] theorem exec_getHostDcRegionConfig (dom : Fin 4096) : exec (.getHostDcRegionConfig dom) s = execGetHostDcRegionConfig dom s := rfl
@[simp] theorem exec_setDcRegionConfig : exec (.setDcRegionConfig) s = execSetDcRegionConfig s := rfl
@[simp] theorem exec_getDcRegionExtentLists (dom : Fin 4096) : exec (.getDcRegionExtentLists dom) s = execGetDcRegionExtentLists dom s := rfl
@[simp] theorem exec_fxExec (inband : Bool) (fn : Fin 65536) (words : List Word) (lds : Nat) (cap : Nat) : exec (.fxExec inband fn words lds cap) s = execFxExec inband fn words lds cap s := rfl
@[simp] theorem exec_barrierGsync (inband : Bool) : exec (.barrierGsync inband) s = execBarrierGsync inband s := rfl
@[simp] theorem exec_barrierMsync (inband : Bool) : exec (.barrierMsync inband) s = execBarrierMsync inband s := rfl
@[simp] theorem exec_resultGet (inband : Bool) (slot : Fin 65536) (ack : Bool) : exec (.resultGet inband slot ack) s = execResultGet inband slot ack s := rfl
@[simp] theorem exec_tunnelKmd (inband : Bool) (dom : Fin 4096) (opcode : Nat) (first : Nat) (n : Nat) (vcs : Nat) (blocks : List Nat) : exec (.tunnelKmd inband dom opcode first n vcs blocks) s = execTunnelKmd inband dom opcode first n vcs blocks s := rfl
@[simp] theorem exec_memRead (inband : Bool) (das : Word) (len : Nat) (dahi : Fin 4096) : exec (.memRead inband das len dahi) s = execMemRead inband das len dahi s := rfl
@[simp] theorem exec_memWrite (inband : Bool) (das : Word) (dahi : Fin 4096) (bytes : List Byte) : exec (.memWrite inband das dahi bytes) s = execMemWrite inband das dahi bytes s := rfl
@[simp] theorem exec_progLoad (inband : Bool) (core : Fin 256) (first : Bool) (last : Bool) (offset : Nat) (bytes : List Byte) : exec (.progLoad inband core first last offset bytes) s = execProgLoad inband core first last offset bytes s := rfl
@[simp] theorem exec_progStop (inband : Bool) (core : Fin 256) : exec (.progStop inband core) s = execProgStop inband core s := rfl
@[simp] theorem exec_fmRingPush (inband : Bool) (ring : Fin 65536) (entry : Line) : exec (.fmRingPush inband ring entry) s = execFmRingPush inband ring entry s := rfl
@[simp] theorem exec_fmRingPop (inband : Bool) (ring : Fin 65536) : exec (.fmRingPop inband ring) s = execFmRingPop inband ring s := rfl
@[simp] theorem exec_bootRecordGet (inband : Bool) (age : Fin 256) : exec (.bootRecordGet inband age) s = execBootRecordGet inband age s := rfl
@[simp] theorem exec_measureLogGet (inband : Bool) (first : Nat) : exec (.measureLogGet inband first) s = execMeasureLogGet inband first s := rfl
@[simp] theorem exec_faultHistoryGet (inband : Bool) (first : Nat) : exec (.faultHistoryGet inband first) s = execFaultHistoryGet inband first s := rfl
@[simp] theorem exec_flashWrite (inband : Bool) (offset : Nat) (last : Bool) (bytes : List Byte) : exec (.flashWrite inband offset last bytes) s = execFlashWrite inband offset last bytes s := rfl
@[simp] theorem exec_flashSectorDone : exec (.flashSectorDone) s = execFlashSectorDone s := rfl
@[simp] theorem exec_flashRead (inband : Bool) (offset : Nat) (len : Nat) : exec (.flashRead inband offset len) s = execFlashRead inband offset len s := rfl
@[simp] theorem exec_kmdIdentify (vcs : Fin 64) (dom : Fin 4096) : exec (.kmdIdentify vcs dom) s = execKmdIdentify vcs dom s := rfl
@[simp] theorem exec_kmdGetEventRecords (vcs : Fin 64) (dom : Fin 4096) (log : Fin 5) : exec (.kmdGetEventRecords vcs dom log) s = execKmdGetEventRecords vcs dom log s := rfl
@[simp] theorem exec_kmdClearEventRecords (vcs : Fin 64) (dom : Fin 4096) (log : Fin 5) (all : Bool) (handles : List Nat) : exec (.kmdClearEventRecords vcs dom log all handles) s = execKmdClearEventRecords vcs dom log all handles s := rfl
@[simp] theorem exec_kmdGetEventIntPolicy (vcs : Fin 64) (dom : Fin 4096) : exec (.kmdGetEventIntPolicy vcs dom) s = execKmdGetEventIntPolicy vcs dom s := rfl
@[simp] theorem exec_kmdSetEventIntPolicy (vcs : Fin 64) (dom : Fin 4096) (policy : Nat) : exec (.kmdSetEventIntPolicy vcs dom policy) s = execKmdSetEventIntPolicy vcs dom policy s := rfl
@[simp] theorem exec_getTimestamp (vcs : Fin 64) (dom : Fin 4096) : exec (.getTimestamp vcs dom) s = execGetTimestamp vcs dom s := rfl
@[simp] theorem exec_setTimestamp (vcs : Fin 64) (dom : Fin 4096) (time : Word) : exec (.setTimestamp vcs dom time) s = execSetTimestamp vcs dom time s := rfl
@[simp] theorem exec_getSupportedLogs (vcs : Fin 64) (dom : Fin 4096) : exec (.getSupportedLogs vcs dom) s = execGetSupportedLogs vcs dom s := rfl
@[simp] theorem exec_getLog (vcs : Fin 64) (dom : Fin 4096) (uuid : BitVec 128) : exec (.getLog vcs dom uuid) s = execGetLog vcs dom uuid s := rfl
@[simp] theorem exec_identifyMemoryDevice (vcs : Fin 64) (dom : Fin 4096) : exec (.identifyMemoryDevice vcs dom) s = execIdentifyMemoryDevice vcs dom s := rfl
@[simp] theorem exec_getDcConfiguration (vcs : Fin 64) (dom : Fin 4096) : exec (.getDcConfiguration vcs dom) s = execGetDcConfiguration vcs dom s := rfl
@[simp] theorem exec_getDcExtentList (vcs : Fin 64) (dom : Fin 4096) : exec (.getDcExtentList vcs dom) s = execGetDcExtentList vcs dom s := rfl
@[simp] theorem exec_lossListGet (vcs : Fin 64) (dom : Fin 4096) (incident : Nat) (first : Nat) : exec (.lossListGet vcs dom incident first) s = execLossListGet vcs dom incident first s := rfl
@[simp] theorem exec_kmdRingPush (vcs : Fin 64) (dom : Fin 4096) (entry : Line) : exec (.kmdRingPush vcs dom entry) s = execKmdRingPush vcs dom entry s := rfl
@[simp] theorem exec_kmdRingPop (vcs : Fin 64) (dom : Fin 4096) : exec (.kmdRingPop vcs dom) s = execKmdRingPop vcs dom s := rfl
@[simp] theorem exec_kmdBootRecordGet (vcs : Fin 64) (dom : Fin 4096) (age : Fin 256) : exec (.kmdBootRecordGet vcs dom age) s = execKmdBootRecordGet vcs dom age s := rfl
@[simp] theorem exec_consoleCommand (addr : Word) (wr : Bool) (bytes : List Byte) : exec (.consoleCommand addr wr bytes) s = execConsoleCommand addr wr bytes s := rfl
@[simp] theorem exec_genIdentity : exec (.genIdentity) s = execGenIdentity s := rfl
@[simp] theorem exec_installChain : exec (.installChain) s = execInstallChain s := rfl
@[simp] theorem exec_enrollKey : exec (.enrollKey) s = execEnrollKey s := rfl
@[simp] theorem exec_revokeKey : exec (.revokeKey) s = execRevokeKey s := rfl
@[simp] theorem exec_raiseSvn : exec (.raiseSvn) s = execRaiseSvn s := rfl
@[simp] theorem exec_seal : exec (.seal) s = execSeal s := rfl
@[simp] theorem exec_decommission : exec (.decommission) s = execDecommission s := rfl
@[simp] theorem exec_emrCommandDone : exec (.emrCommandDone) s = execEmrCommandDone s := rfl
@[simp] theorem exec_getVersion (fn : Nat) : exec (.getVersion fn) s = execGetVersion fn s := rfl
@[simp] theorem exec_getCapabilities (fn : Nat) (ver : Nat) : exec (.getCapabilities fn ver) s = execGetCapabilities fn ver s := rfl
@[simp] theorem exec_negotiateAlgorithms (fn : Nat) (rsapss : Bool) (sha512 : Bool) (ffdhe : Bool) (aead : Bool) (meas : Bool) : exec (.negotiateAlgorithms fn rsapss sha512 ffdhe aead meas) s = execNegotiateAlgorithms fn rsapss sha512 ffdhe aead meas s := rfl
@[simp] theorem exec_getDigests (fn : Nat) : exec (.getDigests fn) s = execGetDigests fn s := rfl
@[simp] theorem exec_getCertificate (fn : Nat) (slot : Nat) (offset : Nat) (len : Nat) : exec (.getCertificate fn slot offset len) s = execGetCertificate fn slot offset len s := rfl
@[simp] theorem exec_challenge (fn : Nat) (slot : Nat) (nonce : Nat) : exec (.challenge fn slot nonce) s = execChallenge fn slot nonce s := rfl
@[simp] theorem exec_getMeasurements (fn : Nat) (index : Nat) (sign : Bool) (nonce : Nat) : exec (.getMeasurements fn index sign nonce) s = execGetMeasurements fn index sign nonce s := rfl
@[simp] theorem exec_keyExchange (fn : Nat) (slot : Nat) (nonce : Nat) : exec (.keyExchange fn slot nonce) s = execKeyExchange fn slot nonce s := rfl
@[simp] theorem exec_finish (fn : Nat) (sess : Nat) (macOk : Bool) : exec (.finish fn sess macOk) s = execFinish fn sess macOk s := rfl
@[simp] theorem exec_keyUpdate (fn : Nat) (sess : Nat) (op : Nat) : exec (.keyUpdate fn sess op) s = execKeyUpdate fn sess op s := rfl
@[simp] theorem exec_spdmHeartbeat (fn : Nat) (sess : Nat) : exec (.spdmHeartbeat fn sess) s = execSpdmHeartbeat fn sess s := rfl
@[simp] theorem exec_endSession (fn : Nat) (sess : Nat) : exec (.endSession fn sess) s = execEndSession fn sess s := rfl
@[simp] theorem exec_vendorDefinedRequest (fn : Nat) (sess : Nat) (obj : Nat) (stream : Fin 2) (dir : Fin 2) (set : Fin 2) (key : BitVec 256) : exec (.vendorDefinedRequest fn sess obj stream dir set key) s = execVendorDefinedRequest fn sess obj stream dir set key s := rfl
@[simp] theorem exec_tamperSupply (holds : Bool) : exec (.tamperSupply holds) s = execTamperSupply holds s := rfl
@[simp] theorem exec_tamperTemp (holds : Bool) : exec (.tamperTemp holds) s = execTamperTemp holds s := rfl
@[simp] theorem exec_tamperMesh (holds : Bool) : exec (.tamperMesh holds) s = execTamperMesh holds s := rfl
@[simp] theorem exec_alarmLatchClear (bits : Fin 32) : exec (.alarmLatchClear bits) s = execAlarmLatchClear bits s := rfl
@[simp] theorem exec_emrChallenge : exec (.emrChallenge) s = execEmrChallenge s := rfl
@[simp] theorem exec_emrToken (token : BitVec 8192) : exec (.emrToken token) s = execEmrToken token s := rfl
@[simp] theorem exec_debugAccess (addr : Word) (len : Fin 65) (wr : Bool) (bytes : List Byte) : exec (.debugAccess addr len wr bytes) s = execDebugAccess addr len wr bytes s := rfl
@[simp] theorem exec_extest (cells : Nat) : exec (.extest cells) s = execExtest cells s := rfl
@[simp] theorem exec_samplePreload (cells : Nat) : exec (.samplePreload cells) s = execSamplePreload cells s := rfl
@[simp] theorem exec_idcode : exec (.idcode) s = execIdcode s := rfl
@[simp] theorem exec_extestPulse (cells : Nat) : exec (.extestPulse cells) s = execExtestPulse cells s := rfl
@[simp] theorem exec_extestTrain (cells : Nat) : exec (.extestTrain cells) s = execExtestTrain cells s := rfl
@[simp] theorem exec_clamp : exec (.clamp) s = execClamp s := rfl
@[simp] theorem exec_highz : exec (.highz) s = execHighz s := rfl
@[simp] theorem exec_bypass : exec (.bypass) s = execBypass s := rfl
@[simp] theorem exec_tapReset : exec (.tapReset) s = execTapReset s := rfl
@[simp] theorem exec_fltForce (src : Fin 2048) (sev : Fin 8) (clear : Bool) : exec (.fltForce src sev clear) s = execFltForce src sev clear s := rfl
@[simp] theorem exec_deviceResetStart : exec (.deviceResetStart) s = execDeviceResetStart s := rfl
@[simp] theorem exec_fltSevWrite (src : Fin 2048) (sev : Fin 8) : exec (.fltSevWrite src sev) s = execFltSevWrite src sev s := rfl
@[simp] theorem exec_fltLatchClear (src : Fin 2048) (sev : Fin 8) : exec (.fltLatchClear src sev) s = execFltLatchClear src sev s := rfl
@[simp] theorem exec_pmuTimeCredit : exec (.pmuTimeCredit) s = execPmuTimeCredit s := rfl
@[simp] theorem exec_bwWindowEnd (port : Fin 96) : exec (.bwWindowEnd port) s = execBwWindowEnd port s := rfl
@[simp] theorem exec_pmuBwClear (port : Fin 96) (en : Bool) (window : Fin 1048576) : exec (.pmuBwClear port en window) s = execPmuBwClear port en window s := rfl
@[simp] theorem exec_oasisRefresh (stack : Nat) : exec (.oasisRefresh stack) s = execOasisRefresh stack s := rfl
@[simp] theorem exec_zqLatch (stack : Nat) : exec (.zqLatch stack) s = execZqLatch stack s := rfl
@[simp] theorem exec_oasisTempPoll (stack : Nat) (temp : Byte) : exec (.oasisTempPoll stack temp) s = execOasisTempPoll stack temp s := rfl
@[simp] theorem exec_oasisEyeMonitor (sub : Nat) (margin : Nat) : exec (.oasisEyeMonitor sub margin) s = execOasisEyeMonitor sub margin s := rfl
@[simp] theorem exec_oasisLoadTick (ch : Nat) (util : Nat) : exec (.oasisLoadTick ch util) s = execOasisLoadTick ch util s := rfl
@[simp] theorem exec_oasRetrainReq (sub : Nat) : exec (.oasRetrainReq sub) s = execOasRetrainReq sub s := rfl
@[simp] theorem exec_retrainStep (last : Bool) (ok : Bool) (util : Nat) : exec (.retrainStep last ok util) s = execRetrainStep last ok util s := rfl
@[simp] theorem exec_retrainRetry (sub : Nat) : exec (.retrainRetry sub) s = execRetrainRetry sub s := rfl
@[simp] theorem exec_oasisPatrol (oa : Nat) (err : Nat) : exec (.oasisPatrol oa err) s = execOasisPatrol oa err s := rfl
@[simp] theorem exec_prsntChange (slot : Fin 32) (low : Bool) : exec (.prsntChange slot low) s = execPrsntChange slot low s := rfl
@[simp] theorem exec_spcPresenceWaitExpire (slot : Fin 32) : exec (.spcPresenceWaitExpire slot) s = execSpcPresenceWaitExpire slot s := rfl
@[simp] theorem exec_feedValid (slot : Fin 32) (b : Bool) (level : Fin 2048) : exec (.feedValid slot b level) s = execFeedValid slot b level s := rfl
@[simp] theorem exec_feedInvalid (slot : Fin 32) (b : Bool) (level : Fin 2048) : exec (.feedInvalid slot b level) s = execFeedInvalid slot b level s := rfl
@[simp] theorem exec_gateEnhanced (slot : Fin 32) (vout : Fin 2048) (early : Bool) : exec (.gateEnhanced slot vout early) s = execGateEnhanced slot vout early s := rfl
@[simp] theorem exec_bbmExpire (slot : Fin 32) : exec (.bbmExpire slot) s = execBbmExpire slot s := rfl
@[simp] theorem exec_preferredFeedReturn (slot : Fin 32) : exec (.preferredFeedReturn slot) s = execPreferredFeedReturn slot s := rfl
@[simp] theorem exec_fastTrip (slot : Fin 32) (sense : Fin 4096) : exec (.fastTrip slot sense) s = execFastTrip slot sense s := rfl
@[simp] theorem exec_shortInRamp (slot : Fin 32) (sense : Fin 4096) : exec (.shortInRamp slot sense) s = execShortInRamp slot sense s := rfl
@[simp] theorem exec_breakerTimerStart (slot : Fin 32) (sense : Fin 4096) : exec (.breakerTimerStart slot sense) s = execBreakerTimerStart slot sense s := rfl
@[simp] theorem exec_breakerTimerStop (slot : Fin 32) (sense : Fin 4096) : exec (.breakerTimerStop slot sense) s = execBreakerTimerStop slot sense s := rfl
@[simp] theorem exec_breaker (slot : Fin 32) : exec (.breaker slot) s = execBreaker slot s := rfl
@[simp] theorem exec_gateStuck (slot : Fin 32) : exec (.gateStuck slot) s = execGateStuck slot s := rfl
@[simp] theorem exec_fetShort (slot : Fin 32) (vout : Fin 2048) : exec (.fetShort slot vout) s = execFetShort slot vout s := rfl
@[simp] theorem exec_coolExpire (slot : Fin 32) : exec (.coolExpire slot) s = execCoolExpire slot s := rfl
@[simp] theorem exec_retriesReset (slot : Fin 32) : exec (.retriesReset slot) s = execRetriesReset slot s := rfl
@[simp] theorem exec_ewFall (slot : Fin 32) : exec (.ewFall slot) s = execEwFall slot s := rfl
@[simp] theorem exec_spcOn (slot : Fin 32) : exec (.spcOn slot) s = execSpcOn slot s := rfl
@[simp] theorem exec_spcOff (slot : Fin 32) (on : Bool) : exec (.spcOff slot on) s = execSpcOff slot on s := rfl
@[simp] theorem exec_spcClear (slot : Fin 32) (off : Bool) (on : Bool) : exec (.spcClear slot off on) s = execSpcClear slot off on s := rfl
@[simp] theorem exec_spcEventsClear (slot : Fin 32) (bits : Fin 16) : exec (.spcEventsClear slot bits) s = execSpcEventsClear slot bits s := rfl
@[simp] theorem exec_pwrOkRise : exec (.pwrOkRise) s = execPwrOkRise s := rfl
@[simp] theorem exec_pwrOkFall : exec (.pwrOkFall) s = execPwrOkFall s := rfl
@[simp] theorem exec_resetN : exec (.resetN) s = execResetN s := rfl
@[simp] theorem exec_warmResetN : exec (.warmResetN) s = execWarmResetN s := rfl
@[simp] theorem exec_bootStepAdvance (test : Bool) (unwrap : Bool) (readA : Bool) (readB : Bool) (codes : BitVec 128) (bad : Fin 5) : exec (.bootStepAdvance test unwrap readA readB codes bad) s = execBootStepAdvance test unwrap readA readB codes bad s := rfl
@[simp] theorem exec_deviceIdleExit (source : Option (Fin 8191)) : exec (.deviceIdleExit source) s = execDeviceIdleExit source s := rfl
@[simp] theorem exec_registerWrite (addr : BitVec 48) (value : Word) : exec (.registerWrite addr value) s = execRegisterWrite addr value s := rfl
@[simp] theorem exec_meldPredWrite (counter : Fin 4) (index : Fin 32768) : exec (.meldPredWrite counter index) s = execMeldPredWrite counter index s := rfl
@[simp] theorem exec_meldPredLoad (index : Fin 32768) : exec (.meldPredLoad index) s = execMeldPredLoad index s := rfl
@[simp] theorem exec_oasisAccessDone (ch : Nat) (wr : Bool) (err : Nat) : exec (.oasisAccessDone ch wr err) s = execOasisAccessDone ch wr err s := rfl
@[simp] theorem exec_ioCompletion (port : Nat) (tag : Nat) (data : List Nat) : exec (.ioCompletion port tag data) s = execIoCompletion port tag data s := rfl
@[simp] theorem exec_trlAlignConfigTimeout (tile : Nat) : exec (.trlAlignConfigTimeout tile) s = execTrlAlignConfigTimeout tile s := rfl
@[simp] theorem exec_resetBallRise (warm : Bool) : exec (.resetBallRise warm) s = execResetBallRise warm s := rfl
@[simp] theorem exec_lifecycleWarmReset : exec (.lifecycleWarmReset) s = execLifecycleWarmReset s := rfl
@[simp] theorem exec_feedWarn (slot : Fin 32) (level : Fin 2048) : exec (.feedWarn slot level) s = execFeedWarn slot level s := rfl
@[simp] theorem exec_voutBelowFeedUv (slot : Fin 32) (vout : Fin 2048) : exec (.voutBelowFeedUv slot vout) s = execVoutBelowFeedUv slot vout s := rfl
@[simp] theorem exec_cxlLowPowerEntry (port : Nat) (mode : Nat) (keep : Nat) : exec (.cxlLowPowerEntry port mode keep) s = execCxlLowPowerEntry port mode keep s := rfl
@[simp] theorem exec_cxlLowPowerExit (port : Nat) : exec (.cxlLowPowerExit port) s = execCxlLowPowerExit port s := rfl
@[simp] theorem exec_timeSlewEnd : exec (.timeSlewEnd) s = execTimeSlewEnd s := rfl

end Sys2Proof.Machine
end

