-- ==== Sys2Proof/Laws/Raise.lean ====
section
/-!
SUPPORT. Laws/Raise.lean: what a raise of a fault source and an input of the interrupt controller change.
-/
namespace Sys2Proof.Machine
open Sys2Proof.Safety

theorem Reported_refl (s : State) : Reported s s := ⟨_, _, _, _, _, rfl⟩

theorem Reported_trans {s t u : State} : Reported s t → Reported t u → Reported s u := by
  rintro ⟨c, i, f, l, h, rfl⟩ ⟨c', i', f', l', h', rfl⟩
  exact ⟨c', i', f', l', h', rfl⟩

theorem reported_of_counted {s u : State} : Counted s u → Reported s u := by
  rintro ⟨c, i, rfl, _⟩
  exact ⟨c, _, s.flt, s.dom.logs, s.pwr.histTry, rfl⟩

/-- A fold of steps that only report only reports. -/
theorem foldl_reported {β : Type} (f : State → β → State) (hf : ∀ s x, Reported s (f s x)) : ∀ (l : List β) (s : State), Reported s (l.foldl f s)
  | [], s => Reported_refl s
  | x :: t, s => by
    rw [List.foldl_cons]
    exact Reported_trans (hf s x) (foldl_reported f hf t _)

theorem fltPut_reported (n : Nat) (x : FltSrc) (s : State) : Reported s (fltPut n x s) := ⟨_, _, _, _, _, rfl⟩

theorem logPush_reported (v d l : Nat) (k : EvKind) (s : State) : Reported s (logPush v d l k s) :=
  ⟨s.pmu.cnts, s.icu, s.flt, _, s.pwr.histTry, rfl⟩

theorem histPush_reported (r : HistRec) (s : State) : Reported s (histPush r s) := by
  simp only [histPush]
  split <;> exact ⟨s.pmu.cnts, s.icu, _, s.dom.logs, 0, rfl⟩

theorem histWrite_reported (n sev dom port : Nat) (forced esc : Bool) (extra : List Word) (s : State) :
    Reported s (histWrite n sev dom port forced esc extra s) := by
  have h1 : Reported s { s with flt := { s.flt with recent := s.flt.recent.filter (fun t => (s.time < t + 1000000000 : Bool)) } } :=
    ⟨s.pmu.cnts, s.icu, _, s.dom.logs, s.pwr.histTry, rfl⟩
  unfold histWrite
  dsimp only
  split
  · exact Reported_trans h1 (fltPut_reported _ _ _)
  · split
    · exact Reported_trans (Reported_trans h1 (fltPut_reported _ _ _)) ⟨_, _, _, _, _, rfl⟩
    · split
      · exact Reported_trans (Reported_trans h1 (fltPut_reported _ _ _)) (histPush_reported _ _)
      · exact Reported_trans (Reported_trans (Reported_trans h1 (fltPut_reported _ _ _)) (histPush_reported _ _)) ⟨_, _, _, _, _, rfl⟩

theorem hostRecords_reported (n sev dom port : Nat) (forced esc : Bool) (s : State) : Reported s (hostRecords n sev dom port forced esc s) := by
  unfold hostRecords
  split
  · exact Reported_refl s
  · dsimp only
    split
    · exact Reported_refl s
    · split
      · exact fltPut_reported _ _ _
      · exact Reported_trans (fltPut_reported _ _ _) (foldl_reported _ (fun s x => logPush_reported _ _ _ _ s) _ _)

theorem fltRecordH_reported (hist : Bool) (n dom port : Nat) (forced : Bool) (extra : List Word) (s : State) :
    Reported s (fltRecordH hist n dom port forced extra s) := by
  unfold fltRecordH
  dsimp only
  have h0 := fltPut_reported n { fltOf s n with
    latch := true, lastSev := sevOf s n, count := satAdd (2 ^ 32 - 1) (fltOf s n).count 1 } s
  cases hist
  · exact Reported_trans (Reported_trans (Reported_trans h0 (fltPut_reported _ _ _)) (hostRecords_reported _ _ _ _ _ _ _)) ⟨_, _, _, _, _, rfl⟩
  · exact Reported_trans (Reported_trans (Reported_trans h0 (histWrite_reported _ _ _ _ _ _ _ _)) (hostRecords_reported _ _ _ _ _ _ _))
      ⟨_, _, _, _, _, rfl⟩

theorem srcPut_reported (n : Nat) (x : IcuSrc) (s : State) : Reported s (srcPut n x s) := ⟨s.pmu.cnts, _, s.flt, s.dom.logs, s.pwr.histTry, rfl⟩

theorem srcInput_reported (n : Nat) (b : Bool) (s : State) : Reported s (srcInput n b s) := by
  simp only [srcInput]
  split
  · exact Reported_refl s
  · split
    · split
      · exact srcPut_reported _ _ _
      · exact Reported_refl s
    · exact srcPut_reported _ _ _

theorem markStranded_reported (n : Nat) (s : State) : Reported s (markStranded n s).2 := by
  unfold markStranded
  split
  · split
    · exact Reported_refl s
    · exact ⟨s.pmu.cnts, _, s.flt, s.dom.logs, s.pwr.histTry, rfl⟩
  · exact ⟨s.pmu.cnts, _, s.flt, s.dom.logs, s.pwr.histTry, rfl⟩

theorem raiseStranded_reported : ∀ (k : Nat) (s : State), Reported s (raiseStranded k s)
  | 0, s => Reported_refl s
  | k + 1, s => by
    rw [raiseStranded]
    have h := Reported_trans (Reported_trans (fltRecordH_reported true fIcuStranded 0xFFFF 0xFF false [] s)
      (srcInput_reported (5120 + fIcuStranded) true _)) (markStranded_reported (5120 + fIcuStranded) _)
    split
    · exact Reported_trans h (raiseStranded_reported k _)
    · exact h

/-- An input of the interrupt controller only reports. -/
theorem icuInput_reported (n : Nat) (b : Bool) (s : State) : Reported s (icuInput n b s) := by
  have h := Reported_trans (srcInput_reported n b s) (markStranded_reported n _)
  unfold icuInput
  dsimp only
  split
  · exact Reported_trans h (raiseStranded_reported 2 _)
  · exact h

theorem icuEdge_reported (n : Nat) (s : State) : Reported s (icuEdge n s) := icuInput_reported n true s

/-- A raise only reports. -/
theorem raiseX_reported (n dom port : Nat) (forced : Bool) (extra : List Word) (s : State) : Reported s (raiseX n dom port forced extra s) := by
  unfold raiseX
  split
  · exact Reported_refl s
  · exact Reported_trans (fltRecordH_reported _ _ _ _ _ _ _) (icuInput_reported _ _ _)

theorem raiseN_reported (n : Nat) (s : State) : Reported s (raiseN n s) := raiseX_reported _ _ _ _ _ _
theorem raiseD_reported (n d : Nat) (s : State) : Reported s (raiseD n d s) := raiseX_reported _ _ _ _ _ _
theorem raiseP_reported (n p : Nat) (s : State) : Reported s (raiseP n p s) := raiseX_reported _ _ _ _ _ _

theorem strandScan_reported (s : State) : Reported s (strandScan s) := by
  refine foldl_reported _ (fun t p => ?_) _ _
  dsimp only
  split
  · exact Reported_trans (markStranded_reported _ _) (raiseStranded_reported 2 _)
  · exact markStranded_reported _ _

theorem dropClaims_reported (n : Nat) (s : State) : Reported s (dropClaims n s) := by
  unfold dropClaims
  dsimp only
  refine Reported_trans (foldl_reported _ (fun t p => ?_) _ _) ⟨_, _, _, _, _, rfl⟩
  have hp : Reported t (srcPut p.1 { srcOf t p.1 with st := .pending } t) := ⟨t.pmu.cnts, _, t.flt, t.dom.logs, t.pwr.histTry, rfl⟩
  have key : ∀ b : Bool, Reported t (if b = true then srcPut p.1 { srcOf t p.1 with st := .pending } t else t) := by
    intro b; cases b
    · exact Reported_refl t
    · exact hp
  exact key _

/-- A core written after a report. -/
theorem reported_corePut {s u : State} (h : Reported s u) (n : Nat) (c : Core) : Reported (corePut n c s) (corePut n c u) := by
  obtain ⟨a, b, d, e, f, rfl⟩ := h
  exact ⟨a, b, d, e, f, rfl⟩

/-- A word written after a report. -/
theorem reported_stWord {s u : State} (h : Reported s u) (n a : Nat) (w : Word) : Reported (stWord n a w s) (stWord n a w u) := by
  obtain ⟨a, b, d, e, f, rfl⟩ := h
  exact ⟨a, b, d, e, f, rfl⟩

theorem reported_stWords {s u : State} (h : Reported s u) (n : Nat) : ∀ (l : List Word) (a : Nat), Reported (stWords n a l s) (stWords n a l u) := by
  intro l
  induction l generalizing s u with
  | nil => exact fun _ => h
  | cons w t ih => intro a; rw [stWords, stWords]; exact ih (reported_stWord h n a w) (a + 8)

theorem coreOf_reported {s u : State} (h : Reported s u) (n : Nat) : coreOf u n = coreOf s n := by
  obtain ⟨a, b, d, e, f, rfl⟩ := h
  rfl

/-- What `Reported` leaves: every register and memory of the chapters that neither count, interrupt nor report. -/
theorem Signals_of_reported {s u : State} (h : Reported s u) : Signals s u := ⟨s.out, h⟩

theorem signals_reported {s t u : State} (h : Signals s t) (h' : Reported t u) : Signals s u := by
  obtain ⟨o, h⟩ := h
  exact ⟨o, Reported_trans h h'⟩

theorem coreOf_signals {s u : State} (h : Signals s u) (n : Nat) : coreOf u n = coreOf s n := by
  obtain ⟨o, h⟩ := h
  exact coreOf_reported h n

theorem signals_corePut {s u : State} (h : Signals s u) (n : Nat) (c : Core) : Signals (corePut n c s) (corePut n c u) := by
  obtain ⟨o, h⟩ := h
  exact ⟨o, reported_corePut h n c⟩

theorem signals_stWords {s u : State} (h : Signals s u) (n a : Nat) (l : List Word) : Signals (stWords n a l s) (stWords n a l u) := by
  obtain ⟨o, h⟩ := h
  have := reported_stWords h n l a
  have e : stWords n a l { s with out := o } = { stWords n a l s with out := o } := by
    clear this h
    induction l generalizing s a with
    | nil => rfl
    | cons w t ih => rw [stWords, stWords]; exact ih (s := stWord n a w s) (a + 8)
  rw [e] at this
  exact ⟨o, this⟩

/-- An instruction retires after an effect that signals. -/
theorem retire_signals {s t : State} {n : Nat} (h : Signals s t) (hr : (coreOf s n).st = .run) (ha : (coreOf s n).ask = none)
    (hs : (coreOf s n).smp = none) (gd : Nat) (v : Word) :
    Signals (corePut n (retiredCore (coreOf s n) gd v ((coreOf s n).pc + 4)) s) (retireWith n gd v t) := by
  have hc := coreOf_signals h n
  have R := retireWith_retires_of (s := t) (n := n) (by rw [hc]; exact hr) (by rw [hc]; exact ha) (by rw [hc]; exact hs) gd v
  rw [Retires, hc] at R
  exact signals_reported (signals_corePut h n _) (reported_of_counted R)

/-- A core that leaves service (R248). -/
theorem leaveService_leaves (n : Nat) (st : CState) (s : State) :
    Leaves s n { coreOf s n with st := st, busy := .none, stores := [], ask := none, statPc := (coreOf s n).pc, smp := none } (leaveService n st s) := by
  unfold leaveService
  refine ⟨s.gate.gsyncs.map (fun k => if k = n then 65 else k), s.dlr.msyncs.map (fun k => if k = n then 65 else k), ?_⟩
  exact Reported_trans (dropClaims_reported _ _) (strandScan_reported _)

theorem leaves_corePut {s u : State} {n : Nat} {c : Core} (h : Leaves s n c u) (hc : c.st ≠ .reset) (d : Core) : Leaves s n d (corePut n d u) := by
  obtain ⟨g, m, h⟩ := h
  refine ⟨g, m, ?_⟩
  have := reported_corePut h n d
  rwa [corePut_corePut n hc] at this

end Sys2Proof.Machine
end

