-- ==== Sys2Proof/Laws/Fx.lean ====
section
/-!
SUPPORT. Laws/Fx.lean: what an FX instruction does, once for every form: the operation runs on its descriptor, and its end writes the descriptor and gd.
-/
namespace Sys2Proof.Machine
open Sys2Proof.Safety

/-- An FX instruction whose descriptor names the form of its row runs that form. -/
theorem fxIssue_runs {s : State} {n gd ga lds cap : Nat} {f : FxForm} (h : FxRuns s n gd ga lds cap f) (fn : Nat) (forms : List FxForm)
    (run : FxForm → FxEnv → State → FxOut) :
    fxIssue n gd ga fn lds cap forms f run s = fxEnd (fxEnvOf s n gd ga f.words lds cap) (run f (fxEnvOf s n gd ga f.words lds cap) s) := by
  have hin : ∀ k, k ≤ f.words → inLocalData (gReg (coreOf s n) ga).toNat (8 * k) = true := by
    intro k hk
    have h1 := h.low
    have h2 := h.high
    have h3 : (gReg (coreOf s n) ga).toNat + 8 * k ≤ 0x140000 := by omega
    unfold inLocalData
    rw [Bool.and_eq_true]
    exact ⟨decide_eq_true h1, decide_eq_true h3⟩
  have hd : ∀ k, k ≤ f.words → fxDesc s n (gReg (coreOf s n) ga).toNat k = some (ldWords s n (gReg (coreOf s n) ga).toNat k) := by
    intro k hk
    rw [fxDesc, if_pos (by rw [hin k hk]; simp [h.aligned])]
  have h1 : fxDesc s n (gReg (coreOf s n) ga).toNat 1 = some [ldWord s n (gReg (coreOf s n) ga).toNat] := by
    rw [hd 1 h.words]; rfl
  have hf : fld (ldWord s n (gReg (coreOf s n) ga).toNat) 63 56 = f.form := by
    have := h.form
    obtain ⟨m, hm⟩ : ∃ m, f.words = m + 1 := ⟨f.words - 1, by have := h.words; omega⟩
    rw [hm] at this
    rw [← this]
    simp [FxEnv.form, FxEnv.word, fxEnvOf, ldWords, List.range_succ_eq_map]
  unfold fxIssue
  simp only [h1, hf, ne_eq, not_true, decide_false, Bool.false_and, Bool.false_eq_true, if_false]
  rw [start_runs h.runs]
  simp only [hd f.words (Nat.le_refl _), h.clean, Bool.false_eq_true, if_false]
  rfl

theorem foldl_stWord_frame (n a : Nat) : ∀ (l : List (Nat × Word)) (s : State),
    ∃ m b, l.foldl (fun s p => stWord n (a + 8 * p.1) p.2 s) s = { s with flg := { s.flg with mem := m, bad := b } }
  | [], s => ⟨s.flg.mem, s.flg.bad, rfl⟩
  | p :: t, s => by
    obtain ⟨m, b, e⟩ := foldl_stWord_frame n a t (stWord n (a + 8 * p.1) p.2 s)
    exact ⟨m, b, by rw [List.foldl_cons, e]; rfl⟩

theorem coreOf_foldl_stWord (n a : Nat) (l : List (Nat × Word)) (s : State) (k : Nat) :
    coreOf (l.foldl (fun s p => stWord n (a + 8 * p.1) p.2 s) s) k = coreOf s k := by
  obtain ⟨m, b, e⟩ := foldl_stWord_frame n a l s
  rw [e]; rfl

/-- The end of an operation that a core issued with a descriptor in its place. -/
theorem fxEnd_done {e : FxEnv} {n gd desc : Nat} (hw : e.who = .core n gd desc) (h0 : e.w.isEmpty = false) (hin : inLocalData desc (8 * e.w.length) = true)
    (h8 : desc % 8 = 0) (st : Status) (outs : List (Nat × Word)) (dn : Nat) (t : State) :
    fxEnd e (.done st outs dn t) = countP 0x7005 n (retireStatus n gd st
      (outs.foldl (fun s p => stWord n (desc + 8 * p.1) p.2 s) (stWord n desc (setFld (e.word 0) 31 0 dn) t))) := by
  simp only [fxEnd, hw, h0, hin, h8, Bool.not_false, Bool.and_self, beq_self_eq_true, if_true]

/-- The end of an operation that has a status. -/
theorem fxEnd_ends {s t : State} {n gd ga lds cap : Nat} {f : FxForm} (h : FxRuns s n gd ga lds cap f) (hr : (coreOf t n).st = .run)
    (ha : (coreOf t n).ask = none) (hs : (coreOf t n).smp = none) (st : Status) (outs : List (Nat × Word)) (dn : Nat) :
    FxEnds t (fxEnvOf s n gd ga f.words lds cap) n gd (gReg (coreOf s n) ga).toNat st outs dn
      (fxEnd (fxEnvOf s n gd ga f.words lds cap) (.done st outs dn t)) := by
  have hlen : (fxEnvOf s n gd ga f.words lds cap).w.length = f.words := by simp [fxEnvOf, ldWords]
  have h1 : (fxEnvOf s n gd ga f.words lds cap).w.isEmpty = false := by
    have := h.words
    cases e : (fxEnvOf s n gd ga f.words lds cap).w with
    | nil => rw [e] at hlen; simp at hlen; omega
    | cons => rfl
  have hin : inLocalData (gReg (coreOf s n) ga).toNat (8 * (fxEnvOf s n gd ga f.words lds cap).w.length) = true := by
    rw [hlen]
    unfold inLocalData
    rw [Bool.and_eq_true]
    exact ⟨decide_eq_true h.low, decide_eq_true h.high⟩
  rw [fxEnd_done rfl h1 hin h.aligned]
  have R := retireWith_retires_of (s := outs.foldl (fun s' p => stWord n ((gReg (coreOf s n) ga).toNat + 8 * p.1) p.2 s')
    (stWord n (gReg (coreOf s n) ga).toNat (setFld ((fxEnvOf s n gd ga f.words lds cap).word 0) 31 0 dn) t)) (n := n)
  simp only [Retires, coreOf_foldl_stWord, coreOf_stWord] at R
  exact Counted_trans (R hr ha hs gd (word st.code)) (countP_counted _ _ _)

end Sys2Proof.Machine
end

