-- ==== Sys2Proof/Laws/State.lean ====
section
/-!
SUPPORT. Laws/State.lean: what each operation that replaces a part of State leaves as it was, field by field, and what the reader of that part gives after it.
-/
namespace Sys2Proof.Machine

variable (s : State)

section
variable (x : Out)
@[simp] theorem emit_time : (emit x s).time = s.time := rfl
@[simp] theorem emit_dom : (emit x s).dom = s.dom := rfl
@[simp] theorem emit_gate : (emit x s).gate = s.gate := rfl
@[simp] theorem emit_erg : (emit x s).erg = s.erg := rfl
@[simp] theorem emit_reqs : (emit x s).reqs = s.reqs := rfl
@[simp] theorem emit_next : (emit x s).next = s.next := rfl
@[simp] theorem emit_coh : (emit x s).coh = s.coh := rfl
@[simp] theorem emit_meld : (emit x s).meld = s.meld := rfl
@[simp] theorem emit_dlr : (emit x s).dlr = s.dlr := rfl
@[simp] theorem emit_oas : (emit x s).oas = s.oas := rfl
@[simp] theorem emit_flg : (emit x s).flg = s.flg := rfl
@[simp] theorem emit_ring : (emit x s).ring = s.ring := rfl
@[simp] theorem emit_icu : (emit x s).icu = s.icu := rfl
@[simp] theorem emit_flt : (emit x s).flt = s.flt := rfl
@[simp] theorem emit_pmu : (emit x s).pmu = s.pmu := rfl
@[simp] theorem emit_lane : (emit x s).lane = s.lane := rfl
@[simp] theorem emit_cxp : (emit x s).cxp = s.cxp := rfl
@[simp] theorem emit_trl : (emit x s).trl = s.trl := rfl
@[simp] theorem emit_mgt : (emit x s).mgt = s.mgt := rfl
@[simp] theorem emit_emr : (emit x s).emr = s.emr := rfl
@[simp] theorem emit_spc : (emit x s).spc = s.spc := rfl
@[simp] theorem emit_pwr : (emit x s).pwr = s.pwr := rfl
@[simp] theorem emit_tap : (emit x s).tap = s.tap := rfl
@[simp] theorem emit_regs : (emit x s).regs = s.regs := rfl
@[simp] theorem emit_free : (emit x s).free = s.free := rfl
@[simp] theorem emit_pending : (emit x s).pending = s.pending := rfl
end

section
@[simp] theorem drawFree_time : (drawFree s).time = s.time := rfl
@[simp] theorem drawFree_dom : (drawFree s).dom = s.dom := rfl
@[simp] theorem drawFree_gate : (drawFree s).gate = s.gate := rfl
@[simp] theorem drawFree_erg : (drawFree s).erg = s.erg := rfl
@[simp] theorem drawFree_reqs : (drawFree s).reqs = s.reqs := rfl
@[simp] theorem drawFree_next : (drawFree s).next = s.next := rfl
@[simp] theorem drawFree_coh : (drawFree s).coh = s.coh := rfl
@[simp] theorem drawFree_meld : (drawFree s).meld = s.meld := rfl
@[simp] theorem drawFree_dlr : (drawFree s).dlr = s.dlr := rfl
@[simp] theorem drawFree_oas : (drawFree s).oas = s.oas := rfl
@[simp] theorem drawFree_flg : (drawFree s).flg = s.flg := rfl
@[simp] theorem drawFree_ring : (drawFree s).ring = s.ring := rfl
@[simp] theorem drawFree_icu : (drawFree s).icu = s.icu := rfl
@[simp] theorem drawFree_flt : (drawFree s).flt = s.flt := rfl
@[simp] theorem drawFree_pmu : (drawFree s).pmu = s.pmu := rfl
@[simp] theorem drawFree_lane : (drawFree s).lane = s.lane := rfl
@[simp] theorem drawFree_cxp : (drawFree s).cxp = s.cxp := rfl
@[simp] theorem drawFree_trl : (drawFree s).trl = s.trl := rfl
@[simp] theorem drawFree_mgt : (drawFree s).mgt = s.mgt := rfl
@[simp] theorem drawFree_emr : (drawFree s).emr = s.emr := rfl
@[simp] theorem drawFree_spc : (drawFree s).spc = s.spc := rfl
@[simp] theorem drawFree_pwr : (drawFree s).pwr = s.pwr := rfl
@[simp] theorem drawFree_tap : (drawFree s).tap = s.tap := rfl
@[simp] theorem drawFree_regs : (drawFree s).regs = s.regs := rfl
@[simp] theorem drawFree_out : (drawFree s).out = s.out := rfl
@[simp] theorem drawFree_pending : (drawFree s).pending = s.pending := rfl
end

section
@[simp] theorem takeNext_time : (takeNext s).time = s.time := rfl
@[simp] theorem takeNext_dom : (takeNext s).dom = s.dom := rfl
@[simp] theorem takeNext_gate : (takeNext s).gate = s.gate := rfl
@[simp] theorem takeNext_erg : (takeNext s).erg = s.erg := rfl
@[simp] theorem takeNext_reqs : (takeNext s).reqs = s.reqs := rfl
@[simp] theorem takeNext_coh : (takeNext s).coh = s.coh := rfl
@[simp] theorem takeNext_meld : (takeNext s).meld = s.meld := rfl
@[simp] theorem takeNext_dlr : (takeNext s).dlr = s.dlr := rfl
@[simp] theorem takeNext_oas : (takeNext s).oas = s.oas := rfl
@[simp] theorem takeNext_flg : (takeNext s).flg = s.flg := rfl
@[simp] theorem takeNext_ring : (takeNext s).ring = s.ring := rfl
@[simp] theorem takeNext_icu : (takeNext s).icu = s.icu := rfl
@[simp] theorem takeNext_flt : (takeNext s).flt = s.flt := rfl
@[simp] theorem takeNext_pmu : (takeNext s).pmu = s.pmu := rfl
@[simp] theorem takeNext_lane : (takeNext s).lane = s.lane := rfl
@[simp] theorem takeNext_cxp : (takeNext s).cxp = s.cxp := rfl
@[simp] theorem takeNext_trl : (takeNext s).trl = s.trl := rfl
@[simp] theorem takeNext_mgt : (takeNext s).mgt = s.mgt := rfl
@[simp] theorem takeNext_emr : (takeNext s).emr = s.emr := rfl
@[simp] theorem takeNext_spc : (takeNext s).spc = s.spc := rfl
@[simp] theorem takeNext_pwr : (takeNext s).pwr = s.pwr := rfl
@[simp] theorem takeNext_tap : (takeNext s).tap = s.tap := rfl
@[simp] theorem takeNext_regs : (takeNext s).regs = s.regs := rfl
@[simp] theorem takeNext_out : (takeNext s).out = s.out := rfl
@[simp] theorem takeNext_free : (takeNext s).free = s.free := rfl
@[simp] theorem takeNext_pending : (takeNext s).pending = s.pending := rfl
end

section
variable (x : Req)
@[simp] theorem reqPut_time : (reqPut x s).time = s.time := rfl
@[simp] theorem reqPut_dom : (reqPut x s).dom = s.dom := rfl
@[simp] theorem reqPut_gate : (reqPut x s).gate = s.gate := rfl
@[simp] theorem reqPut_erg : (reqPut x s).erg = s.erg := rfl
@[simp] theorem reqPut_next : (reqPut x s).next = s.next := rfl
@[simp] theorem reqPut_coh : (reqPut x s).coh = s.coh := rfl
@[simp] theorem reqPut_meld : (reqPut x s).meld = s.meld := rfl
@[simp] theorem reqPut_dlr : (reqPut x s).dlr = s.dlr := rfl
@[simp] theorem reqPut_oas : (reqPut x s).oas = s.oas := rfl
@[simp] theorem reqPut_flg : (reqPut x s).flg = s.flg := rfl
@[simp] theorem reqPut_ring : (reqPut x s).ring = s.ring := rfl
@[simp] theorem reqPut_icu : (reqPut x s).icu = s.icu := rfl
@[simp] theorem reqPut_flt : (reqPut x s).flt = s.flt := rfl
@[simp] theorem reqPut_pmu : (reqPut x s).pmu = s.pmu := rfl
@[simp] theorem reqPut_lane : (reqPut x s).lane = s.lane := rfl
@[simp] theorem reqPut_cxp : (reqPut x s).cxp = s.cxp := rfl
@[simp] theorem reqPut_trl : (reqPut x s).trl = s.trl := rfl
@[simp] theorem reqPut_mgt : (reqPut x s).mgt = s.mgt := rfl
@[simp] theorem reqPut_emr : (reqPut x s).emr = s.emr := rfl
@[simp] theorem reqPut_spc : (reqPut x s).spc = s.spc := rfl
@[simp] theorem reqPut_pwr : (reqPut x s).pwr = s.pwr := rfl
@[simp] theorem reqPut_tap : (reqPut x s).tap = s.tap := rfl
@[simp] theorem reqPut_regs : (reqPut x s).regs = s.regs := rfl
@[simp] theorem reqPut_out : (reqPut x s).out = s.out := rfl
@[simp] theorem reqPut_free : (reqPut x s).free = s.free := rfl
@[simp] theorem reqPut_pending : (reqPut x s).pending = s.pending := rfl
end

section
variable (n : Nat)
@[simp] theorem reqDel_time : (reqDel n s).time = s.time := rfl
@[simp] theorem reqDel_dom : (reqDel n s).dom = s.dom := rfl
@[simp] theorem reqDel_gate : (reqDel n s).gate = s.gate := rfl
@[simp] theorem reqDel_erg : (reqDel n s).erg = s.erg := rfl
@[simp] theorem reqDel_next : (reqDel n s).next = s.next := rfl
@[simp] theorem reqDel_coh : (reqDel n s).coh = s.coh := rfl
@[simp] theorem reqDel_meld : (reqDel n s).meld = s.meld := rfl
@[simp] theorem reqDel_dlr : (reqDel n s).dlr = s.dlr := rfl
@[simp] theorem reqDel_oas : (reqDel n s).oas = s.oas := rfl
@[simp] theorem reqDel_flg : (reqDel n s).flg = s.flg := rfl
@[simp] theorem reqDel_ring : (reqDel n s).ring = s.ring := rfl
@[simp] theorem reqDel_icu : (reqDel n s).icu = s.icu := rfl
@[simp] theorem reqDel_flt : (reqDel n s).flt = s.flt := rfl
@[simp] theorem reqDel_pmu : (reqDel n s).pmu = s.pmu := rfl
@[simp] theorem reqDel_lane : (reqDel n s).lane = s.lane := rfl
@[simp] theorem reqDel_cxp : (reqDel n s).cxp = s.cxp := rfl
@[simp] theorem reqDel_trl : (reqDel n s).trl = s.trl := rfl
@[simp] theorem reqDel_mgt : (reqDel n s).mgt = s.mgt := rfl
@[simp] theorem reqDel_emr : (reqDel n s).emr = s.emr := rfl
@[simp] theorem reqDel_spc : (reqDel n s).spc = s.spc := rfl
@[simp] theorem reqDel_pwr : (reqDel n s).pwr = s.pwr := rfl
@[simp] theorem reqDel_tap : (reqDel n s).tap = s.tap := rfl
@[simp] theorem reqDel_regs : (reqDel n s).regs = s.regs := rfl
@[simp] theorem reqDel_out : (reqDel n s).out = s.out := rfl
@[simp] theorem reqDel_free : (reqDel n s).free = s.free := rfl
@[simp] theorem reqDel_pending : (reqDel n s).pending = s.pending := rfl
end

section
variable (x : Req)
@[simp] theorem reqAdd_time : (reqAdd x s).time = s.time := rfl
@[simp] theorem reqAdd_dom : (reqAdd x s).dom = s.dom := rfl
@[simp] theorem reqAdd_gate : (reqAdd x s).gate = s.gate := rfl
@[simp] theorem reqAdd_erg : (reqAdd x s).erg = s.erg := rfl
@[simp] theorem reqAdd_next : (reqAdd x s).next = s.next := rfl
@[simp] theorem reqAdd_coh : (reqAdd x s).coh = s.coh := rfl
@[simp] theorem reqAdd_meld : (reqAdd x s).meld = s.meld := rfl
@[simp] theorem reqAdd_dlr : (reqAdd x s).dlr = s.dlr := rfl
@[simp] theorem reqAdd_oas : (reqAdd x s).oas = s.oas := rfl
@[simp] theorem reqAdd_flg : (reqAdd x s).flg = s.flg := rfl
@[simp] theorem reqAdd_ring : (reqAdd x s).ring = s.ring := rfl
@[simp] theorem reqAdd_icu : (reqAdd x s).icu = s.icu := rfl
@[simp] theorem reqAdd_flt : (reqAdd x s).flt = s.flt := rfl
@[simp] theorem reqAdd_pmu : (reqAdd x s).pmu = s.pmu := rfl
@[simp] theorem reqAdd_lane : (reqAdd x s).lane = s.lane := rfl
@[simp] theorem reqAdd_cxp : (reqAdd x s).cxp = s.cxp := rfl
@[simp] theorem reqAdd_trl : (reqAdd x s).trl = s.trl := rfl
@[simp] theorem reqAdd_mgt : (reqAdd x s).mgt = s.mgt := rfl
@[simp] theorem reqAdd_emr : (reqAdd x s).emr = s.emr := rfl
@[simp] theorem reqAdd_spc : (reqAdd x s).spc = s.spc := rfl
@[simp] theorem reqAdd_pwr : (reqAdd x s).pwr = s.pwr := rfl
@[simp] theorem reqAdd_tap : (reqAdd x s).tap = s.tap := rfl
@[simp] theorem reqAdd_regs : (reqAdd x s).regs = s.regs := rfl
@[simp] theorem reqAdd_out : (reqAdd x s).out = s.out := rfl
@[simp] theorem reqAdd_free : (reqAdd x s).free = s.free := rfl
@[simp] theorem reqAdd_pending : (reqAdd x s).pending = s.pending := rfl
end

section
variable (n : Nat) (x : Core)
@[simp] theorem corePut_time : (corePut n x s).time = s.time := rfl
@[simp] theorem corePut_dom : (corePut n x s).dom = s.dom := rfl
@[simp] theorem corePut_gate : (corePut n x s).gate = s.gate := rfl
@[simp] theorem corePut_erg : (corePut n x s).erg = s.erg := rfl
@[simp] theorem corePut_reqs : (corePut n x s).reqs = s.reqs := rfl
@[simp] theorem corePut_next : (corePut n x s).next = s.next := rfl
@[simp] theorem corePut_coh : (corePut n x s).coh = s.coh := rfl
@[simp] theorem corePut_meld : (corePut n x s).meld = s.meld := rfl
@[simp] theorem corePut_dlr : (corePut n x s).dlr = s.dlr := rfl
@[simp] theorem corePut_oas : (corePut n x s).oas = s.oas := rfl
@[simp] theorem corePut_ring : (corePut n x s).ring = s.ring := rfl
@[simp] theorem corePut_icu : (corePut n x s).icu = s.icu := rfl
@[simp] theorem corePut_flt : (corePut n x s).flt = s.flt := rfl
@[simp] theorem corePut_pmu : (corePut n x s).pmu = s.pmu := rfl
@[simp] theorem corePut_lane : (corePut n x s).lane = s.lane := rfl
@[simp] theorem corePut_cxp : (corePut n x s).cxp = s.cxp := rfl
@[simp] theorem corePut_trl : (corePut n x s).trl = s.trl := rfl
@[simp] theorem corePut_mgt : (corePut n x s).mgt = s.mgt := rfl
@[simp] theorem corePut_emr : (corePut n x s).emr = s.emr := rfl
@[simp] theorem corePut_spc : (corePut n x s).spc = s.spc := rfl
@[simp] theorem corePut_pwr : (corePut n x s).pwr = s.pwr := rfl
@[simp] theorem corePut_tap : (corePut n x s).tap = s.tap := rfl
@[simp] theorem corePut_regs : (corePut n x s).regs = s.regs := rfl
@[simp] theorem corePut_out : (corePut n x s).out = s.out := rfl
@[simp] theorem corePut_free : (corePut n x s).free = s.free := rfl
@[simp] theorem corePut_pending : (corePut n x s).pending = s.pending := rfl
end

section
variable (n : Nat) (x : Slot)
@[simp] theorem slotPut_time : (slotPut n x s).time = s.time := rfl
@[simp] theorem slotPut_dom : (slotPut n x s).dom = s.dom := rfl
@[simp] theorem slotPut_gate : (slotPut n x s).gate = s.gate := rfl
@[simp] theorem slotPut_erg : (slotPut n x s).erg = s.erg := rfl
@[simp] theorem slotPut_reqs : (slotPut n x s).reqs = s.reqs := rfl
@[simp] theorem slotPut_next : (slotPut n x s).next = s.next := rfl
@[simp] theorem slotPut_coh : (slotPut n x s).coh = s.coh := rfl
@[simp] theorem slotPut_meld : (slotPut n x s).meld = s.meld := rfl
@[simp] theorem slotPut_dlr : (slotPut n x s).dlr = s.dlr := rfl
@[simp] theorem slotPut_oas : (slotPut n x s).oas = s.oas := rfl
@[simp] theorem slotPut_ring : (slotPut n x s).ring = s.ring := rfl
@[simp] theorem slotPut_icu : (slotPut n x s).icu = s.icu := rfl
@[simp] theorem slotPut_flt : (slotPut n x s).flt = s.flt := rfl
@[simp] theorem slotPut_pmu : (slotPut n x s).pmu = s.pmu := rfl
@[simp] theorem slotPut_lane : (slotPut n x s).lane = s.lane := rfl
@[simp] theorem slotPut_cxp : (slotPut n x s).cxp = s.cxp := rfl
@[simp] theorem slotPut_trl : (slotPut n x s).trl = s.trl := rfl
@[simp] theorem slotPut_mgt : (slotPut n x s).mgt = s.mgt := rfl
@[simp] theorem slotPut_emr : (slotPut n x s).emr = s.emr := rfl
@[simp] theorem slotPut_spc : (slotPut n x s).spc = s.spc := rfl
@[simp] theorem slotPut_pwr : (slotPut n x s).pwr = s.pwr := rfl
@[simp] theorem slotPut_tap : (slotPut n x s).tap = s.tap := rfl
@[simp] theorem slotPut_regs : (slotPut n x s).regs = s.regs := rfl
@[simp] theorem slotPut_out : (slotPut n x s).out = s.out := rfl
@[simp] theorem slotPut_free : (slotPut n x s).free = s.free := rfl
@[simp] theorem slotPut_pending : (slotPut n x s).pending = s.pending := rfl
theorem slotOf_slotPut (k : Nat) : slotOf (slotPut n x s) k = if k = n then x else slotOf s k := by simp [slotOf, slotPut, sget_sset]
end

section
variable (a n v : Nat)
@[simp] theorem memPut_time : (memPut a n v s).time = s.time := rfl
@[simp] theorem memPut_dom : (memPut a n v s).dom = s.dom := rfl
@[simp] theorem memPut_gate : (memPut a n v s).gate = s.gate := rfl
@[simp] theorem memPut_erg : (memPut a n v s).erg = s.erg := rfl
@[simp] theorem memPut_reqs : (memPut a n v s).reqs = s.reqs := rfl
@[simp] theorem memPut_next : (memPut a n v s).next = s.next := rfl
@[simp] theorem memPut_coh : (memPut a n v s).coh = s.coh := rfl
@[simp] theorem memPut_meld : (memPut a n v s).meld = s.meld := rfl
@[simp] theorem memPut_dlr : (memPut a n v s).dlr = s.dlr := rfl
@[simp] theorem memPut_oas : (memPut a n v s).oas = s.oas := rfl
@[simp] theorem memPut_ring : (memPut a n v s).ring = s.ring := rfl
@[simp] theorem memPut_icu : (memPut a n v s).icu = s.icu := rfl
@[simp] theorem memPut_flt : (memPut a n v s).flt = s.flt := rfl
@[simp] theorem memPut_pmu : (memPut a n v s).pmu = s.pmu := rfl
@[simp] theorem memPut_lane : (memPut a n v s).lane = s.lane := rfl
@[simp] theorem memPut_cxp : (memPut a n v s).cxp = s.cxp := rfl
@[simp] theorem memPut_trl : (memPut a n v s).trl = s.trl := rfl
@[simp] theorem memPut_mgt : (memPut a n v s).mgt = s.mgt := rfl
@[simp] theorem memPut_emr : (memPut a n v s).emr = s.emr := rfl
@[simp] theorem memPut_spc : (memPut a n v s).spc = s.spc := rfl
@[simp] theorem memPut_pwr : (memPut a n v s).pwr = s.pwr := rfl
@[simp] theorem memPut_tap : (memPut a n v s).tap = s.tap := rfl
@[simp] theorem memPut_regs : (memPut a n v s).regs = s.regs := rfl
@[simp] theorem memPut_free : (memPut a n v s).free = s.free := rfl
@[simp] theorem memPut_pending : (memPut a n v s).pending = s.pending := rfl
end

section
variable (n : Nat) (x : IcuSrc)
@[simp] theorem srcPut_time : (srcPut n x s).time = s.time := rfl
@[simp] theorem srcPut_dom : (srcPut n x s).dom = s.dom := rfl
@[simp] theorem srcPut_gate : (srcPut n x s).gate = s.gate := rfl
@[simp] theorem srcPut_erg : (srcPut n x s).erg = s.erg := rfl
@[simp] theorem srcPut_reqs : (srcPut n x s).reqs = s.reqs := rfl
@[simp] theorem srcPut_next : (srcPut n x s).next = s.next := rfl
@[simp] theorem srcPut_coh : (srcPut n x s).coh = s.coh := rfl
@[simp] theorem srcPut_meld : (srcPut n x s).meld = s.meld := rfl
@[simp] theorem srcPut_dlr : (srcPut n x s).dlr = s.dlr := rfl
@[simp] theorem srcPut_oas : (srcPut n x s).oas = s.oas := rfl
@[simp] theorem srcPut_flg : (srcPut n x s).flg = s.flg := rfl
@[simp] theorem srcPut_ring : (srcPut n x s).ring = s.ring := rfl
@[simp] theorem srcPut_flt : (srcPut n x s).flt = s.flt := rfl
@[simp] theorem srcPut_pmu : (srcPut n x s).pmu = s.pmu := rfl
@[simp] theorem srcPut_lane : (srcPut n x s).lane = s.lane := rfl
@[simp] theorem srcPut_cxp : (srcPut n x s).cxp = s.cxp := rfl
@[simp] theorem srcPut_trl : (srcPut n x s).trl = s.trl := rfl
@[simp] theorem srcPut_mgt : (srcPut n x s).mgt = s.mgt := rfl
@[simp] theorem srcPut_emr : (srcPut n x s).emr = s.emr := rfl
@[simp] theorem srcPut_spc : (srcPut n x s).spc = s.spc := rfl
@[simp] theorem srcPut_pwr : (srcPut n x s).pwr = s.pwr := rfl
@[simp] theorem srcPut_tap : (srcPut n x s).tap = s.tap := rfl
@[simp] theorem srcPut_regs : (srcPut n x s).regs = s.regs := rfl
@[simp] theorem srcPut_out : (srcPut n x s).out = s.out := rfl
@[simp] theorem srcPut_free : (srcPut n x s).free = s.free := rfl
@[simp] theorem srcPut_pending : (srcPut n x s).pending = s.pending := rfl
end

section
variable (n : Nat) (x : FltSrc)
@[simp] theorem fltPut_time : (fltPut n x s).time = s.time := rfl
@[simp] theorem fltPut_dom : (fltPut n x s).dom = s.dom := rfl
@[simp] theorem fltPut_gate : (fltPut n x s).gate = s.gate := rfl
@[simp] theorem fltPut_erg : (fltPut n x s).erg = s.erg := rfl
@[simp] theorem fltPut_reqs : (fltPut n x s).reqs = s.reqs := rfl
@[simp] theorem fltPut_next : (fltPut n x s).next = s.next := rfl
@[simp] theorem fltPut_coh : (fltPut n x s).coh = s.coh := rfl
@[simp] theorem fltPut_meld : (fltPut n x s).meld = s.meld := rfl
@[simp] theorem fltPut_dlr : (fltPut n x s).dlr = s.dlr := rfl
@[simp] theorem fltPut_oas : (fltPut n x s).oas = s.oas := rfl
@[simp] theorem fltPut_flg : (fltPut n x s).flg = s.flg := rfl
@[simp] theorem fltPut_ring : (fltPut n x s).ring = s.ring := rfl
@[simp] theorem fltPut_icu : (fltPut n x s).icu = s.icu := rfl
@[simp] theorem fltPut_pmu : (fltPut n x s).pmu = s.pmu := rfl
@[simp] theorem fltPut_lane : (fltPut n x s).lane = s.lane := rfl
@[simp] theorem fltPut_cxp : (fltPut n x s).cxp = s.cxp := rfl
@[simp] theorem fltPut_trl : (fltPut n x s).trl = s.trl := rfl
@[simp] theorem fltPut_mgt : (fltPut n x s).mgt = s.mgt := rfl
@[simp] theorem fltPut_emr : (fltPut n x s).emr = s.emr := rfl
@[simp] theorem fltPut_spc : (fltPut n x s).spc = s.spc := rfl
@[simp] theorem fltPut_pwr : (fltPut n x s).pwr = s.pwr := rfl
@[simp] theorem fltPut_tap : (fltPut n x s).tap = s.tap := rfl
@[simp] theorem fltPut_regs : (fltPut n x s).regs = s.regs := rfl
@[simp] theorem fltPut_out : (fltPut n x s).out = s.out := rfl
@[simp] theorem fltPut_free : (fltPut n x s).free = s.free := rfl
@[simp] theorem fltPut_pending : (fltPut n x s).pending = s.pending := rfl
theorem fltOf_fltPut (k : Nat) : fltOf (fltPut n x s) k = if k = n then x else fltOf s k := by simp [fltOf, fltPut, sget_sset]
end

section
variable (n : Nat) (x : Ring)
@[simp] theorem ringPut_time : (ringPut n x s).time = s.time := rfl
@[simp] theorem ringPut_dom : (ringPut n x s).dom = s.dom := rfl
@[simp] theorem ringPut_gate : (ringPut n x s).gate = s.gate := rfl
@[simp] theorem ringPut_erg : (ringPut n x s).erg = s.erg := rfl
@[simp] theorem ringPut_reqs : (ringPut n x s).reqs = s.reqs := rfl
@[simp] theorem ringPut_next : (ringPut n x s).next = s.next := rfl
@[simp] theorem ringPut_coh : (ringPut n x s).coh = s.coh := rfl
@[simp] theorem ringPut_meld : (ringPut n x s).meld = s.meld := rfl
@[simp] theorem ringPut_dlr : (ringPut n x s).dlr = s.dlr := rfl
@[simp] theorem ringPut_oas : (ringPut n x s).oas = s.oas := rfl
@[simp] theorem ringPut_flg : (ringPut n x s).flg = s.flg := rfl
@[simp] theorem ringPut_icu : (ringPut n x s).icu = s.icu := rfl
@[simp] theorem ringPut_flt : (ringPut n x s).flt = s.flt := rfl
@[simp] theorem ringPut_pmu : (ringPut n x s).pmu = s.pmu := rfl
@[simp] theorem ringPut_lane : (ringPut n x s).lane = s.lane := rfl
@[simp] theorem ringPut_cxp : (ringPut n x s).cxp = s.cxp := rfl
@[simp] theorem ringPut_trl : (ringPut n x s).trl = s.trl := rfl
@[simp] theorem ringPut_mgt : (ringPut n x s).mgt = s.mgt := rfl
@[simp] theorem ringPut_emr : (ringPut n x s).emr = s.emr := rfl
@[simp] theorem ringPut_spc : (ringPut n x s).spc = s.spc := rfl
@[simp] theorem ringPut_pwr : (ringPut n x s).pwr = s.pwr := rfl
@[simp] theorem ringPut_tap : (ringPut n x s).tap = s.tap := rfl
@[simp] theorem ringPut_regs : (ringPut n x s).regs = s.regs := rfl
@[simp] theorem ringPut_out : (ringPut n x s).out = s.out := rfl
@[simp] theorem ringPut_free : (ringPut n x s).free = s.free := rfl
@[simp] theorem ringPut_pending : (ringPut n x s).pending = s.pending := rfl
theorem ringOf_ringPut (k : Nat) : ringOf (ringPut n x s) k = if k = n then x else ringOf s k := by simp [ringOf, ringPut, sget_sset]
end

section
variable (n : Nat) (x : Domain)
@[simp] theorem domPut_time : (domPut n x s).time = s.time := rfl
@[simp] theorem domPut_gate : (domPut n x s).gate = s.gate := rfl
@[simp] theorem domPut_erg : (domPut n x s).erg = s.erg := rfl
@[simp] theorem domPut_reqs : (domPut n x s).reqs = s.reqs := rfl
@[simp] theorem domPut_next : (domPut n x s).next = s.next := rfl
@[simp] theorem domPut_coh : (domPut n x s).coh = s.coh := rfl
@[simp] theorem domPut_meld : (domPut n x s).meld = s.meld := rfl
@[simp] theorem domPut_dlr : (domPut n x s).dlr = s.dlr := rfl
@[simp] theorem domPut_oas : (domPut n x s).oas = s.oas := rfl
@[simp] theorem domPut_flg : (domPut n x s).flg = s.flg := rfl
@[simp] theorem domPut_ring : (domPut n x s).ring = s.ring := rfl
@[simp] theorem domPut_icu : (domPut n x s).icu = s.icu := rfl
@[simp] theorem domPut_flt : (domPut n x s).flt = s.flt := rfl
@[simp] theorem domPut_pmu : (domPut n x s).pmu = s.pmu := rfl
@[simp] theorem domPut_lane : (domPut n x s).lane = s.lane := rfl
@[simp] theorem domPut_cxp : (domPut n x s).cxp = s.cxp := rfl
@[simp] theorem domPut_trl : (domPut n x s).trl = s.trl := rfl
@[simp] theorem domPut_mgt : (domPut n x s).mgt = s.mgt := rfl
@[simp] theorem domPut_emr : (domPut n x s).emr = s.emr := rfl
@[simp] theorem domPut_spc : (domPut n x s).spc = s.spc := rfl
@[simp] theorem domPut_pwr : (domPut n x s).pwr = s.pwr := rfl
@[simp] theorem domPut_tap : (domPut n x s).tap = s.tap := rfl
@[simp] theorem domPut_regs : (domPut n x s).regs = s.regs := rfl
@[simp] theorem domPut_out : (domPut n x s).out = s.out := rfl
@[simp] theorem domPut_free : (domPut n x s).free = s.free := rfl
@[simp] theorem domPut_pending : (domPut n x s).pending = s.pending := rfl
theorem domOf_domPut (k : Nat) : domOf (domPut n x s) k = if k = n then x else domOf s k := by simp [domOf, domPut, sget_sset]
end

section
variable (n : Nat) (x : PoolDev)
@[simp] theorem devPut_time : (devPut n x s).time = s.time := rfl
@[simp] theorem devPut_gate : (devPut n x s).gate = s.gate := rfl
@[simp] theorem devPut_erg : (devPut n x s).erg = s.erg := rfl
@[simp] theorem devPut_reqs : (devPut n x s).reqs = s.reqs := rfl
@[simp] theorem devPut_next : (devPut n x s).next = s.next := rfl
@[simp] theorem devPut_coh : (devPut n x s).coh = s.coh := rfl
@[simp] theorem devPut_meld : (devPut n x s).meld = s.meld := rfl
@[simp] theorem devPut_dlr : (devPut n x s).dlr = s.dlr := rfl
@[simp] theorem devPut_oas : (devPut n x s).oas = s.oas := rfl
@[simp] theorem devPut_flg : (devPut n x s).flg = s.flg := rfl
@[simp] theorem devPut_ring : (devPut n x s).ring = s.ring := rfl
@[simp] theorem devPut_icu : (devPut n x s).icu = s.icu := rfl
@[simp] theorem devPut_flt : (devPut n x s).flt = s.flt := rfl
@[simp] theorem devPut_pmu : (devPut n x s).pmu = s.pmu := rfl
@[simp] theorem devPut_lane : (devPut n x s).lane = s.lane := rfl
@[simp] theorem devPut_cxp : (devPut n x s).cxp = s.cxp := rfl
@[simp] theorem devPut_trl : (devPut n x s).trl = s.trl := rfl
@[simp] theorem devPut_mgt : (devPut n x s).mgt = s.mgt := rfl
@[simp] theorem devPut_emr : (devPut n x s).emr = s.emr := rfl
@[simp] theorem devPut_spc : (devPut n x s).spc = s.spc := rfl
@[simp] theorem devPut_pwr : (devPut n x s).pwr = s.pwr := rfl
@[simp] theorem devPut_tap : (devPut n x s).tap = s.tap := rfl
@[simp] theorem devPut_regs : (devPut n x s).regs = s.regs := rfl
@[simp] theorem devPut_out : (devPut n x s).out = s.out := rfl
@[simp] theorem devPut_free : (devPut n x s).free = s.free := rfl
@[simp] theorem devPut_pending : (devPut n x s).pending = s.pending := rfl
theorem devOf_devPut (k : Nat) : devOf (devPut n x s) k = if k = n then x else devOf s k := by simp [devOf, devPut, sget_sset]
end

section
variable (n : Nat) (x : Rule)
@[simp] theorem rulePut_time : (rulePut n x s).time = s.time := rfl
@[simp] theorem rulePut_dom : (rulePut n x s).dom = s.dom := rfl
@[simp] theorem rulePut_erg : (rulePut n x s).erg = s.erg := rfl
@[simp] theorem rulePut_reqs : (rulePut n x s).reqs = s.reqs := rfl
@[simp] theorem rulePut_next : (rulePut n x s).next = s.next := rfl
@[simp] theorem rulePut_coh : (rulePut n x s).coh = s.coh := rfl
@[simp] theorem rulePut_meld : (rulePut n x s).meld = s.meld := rfl
@[simp] theorem rulePut_dlr : (rulePut n x s).dlr = s.dlr := rfl
@[simp] theorem rulePut_oas : (rulePut n x s).oas = s.oas := rfl
@[simp] theorem rulePut_flg : (rulePut n x s).flg = s.flg := rfl
@[simp] theorem rulePut_ring : (rulePut n x s).ring = s.ring := rfl
@[simp] theorem rulePut_icu : (rulePut n x s).icu = s.icu := rfl
@[simp] theorem rulePut_flt : (rulePut n x s).flt = s.flt := rfl
@[simp] theorem rulePut_pmu : (rulePut n x s).pmu = s.pmu := rfl
@[simp] theorem rulePut_lane : (rulePut n x s).lane = s.lane := rfl
@[simp] theorem rulePut_cxp : (rulePut n x s).cxp = s.cxp := rfl
@[simp] theorem rulePut_trl : (rulePut n x s).trl = s.trl := rfl
@[simp] theorem rulePut_mgt : (rulePut n x s).mgt = s.mgt := rfl
@[simp] theorem rulePut_emr : (rulePut n x s).emr = s.emr := rfl
@[simp] theorem rulePut_spc : (rulePut n x s).spc = s.spc := rfl
@[simp] theorem rulePut_pwr : (rulePut n x s).pwr = s.pwr := rfl
@[simp] theorem rulePut_tap : (rulePut n x s).tap = s.tap := rfl
@[simp] theorem rulePut_regs : (rulePut n x s).regs = s.regs := rfl
@[simp] theorem rulePut_out : (rulePut n x s).out = s.out := rfl
@[simp] theorem rulePut_free : (rulePut n x s).free = s.free := rfl
@[simp] theorem rulePut_pending : (rulePut n x s).pending = s.pending := rfl
theorem ruleOf_rulePut (k : Nat) : ruleOf (rulePut n x s) k = if k = n then x else ruleOf s k := by simp [ruleOf, rulePut, sget_sset]
end

section
variable (n : Nat) (x : GHead)
@[simp] theorem headPut_time : (headPut n x s).time = s.time := rfl
@[simp] theorem headPut_dom : (headPut n x s).dom = s.dom := rfl
@[simp] theorem headPut_erg : (headPut n x s).erg = s.erg := rfl
@[simp] theorem headPut_reqs : (headPut n x s).reqs = s.reqs := rfl
@[simp] theorem headPut_next : (headPut n x s).next = s.next := rfl
@[simp] theorem headPut_coh : (headPut n x s).coh = s.coh := rfl
@[simp] theorem headPut_meld : (headPut n x s).meld = s.meld := rfl
@[simp] theorem headPut_dlr : (headPut n x s).dlr = s.dlr := rfl
@[simp] theorem headPut_oas : (headPut n x s).oas = s.oas := rfl
@[simp] theorem headPut_flg : (headPut n x s).flg = s.flg := rfl
@[simp] theorem headPut_ring : (headPut n x s).ring = s.ring := rfl
@[simp] theorem headPut_icu : (headPut n x s).icu = s.icu := rfl
@[simp] theorem headPut_flt : (headPut n x s).flt = s.flt := rfl
@[simp] theorem headPut_pmu : (headPut n x s).pmu = s.pmu := rfl
@[simp] theorem headPut_lane : (headPut n x s).lane = s.lane := rfl
@[simp] theorem headPut_cxp : (headPut n x s).cxp = s.cxp := rfl
@[simp] theorem headPut_trl : (headPut n x s).trl = s.trl := rfl
@[simp] theorem headPut_mgt : (headPut n x s).mgt = s.mgt := rfl
@[simp] theorem headPut_emr : (headPut n x s).emr = s.emr := rfl
@[simp] theorem headPut_spc : (headPut n x s).spc = s.spc := rfl
@[simp] theorem headPut_pwr : (headPut n x s).pwr = s.pwr := rfl
@[simp] theorem headPut_tap : (headPut n x s).tap = s.tap := rfl
@[simp] theorem headPut_regs : (headPut n x s).regs = s.regs := rfl
@[simp] theorem headPut_out : (headPut n x s).out = s.out := rfl
@[simp] theorem headPut_free : (headPut n x s).free = s.free := rfl
@[simp] theorem headPut_pending : (headPut n x s).pending = s.pending := rfl
theorem headOf_headPut (k : Nat) : headOf (headPut n x s) k = if k = n then x else headOf s k := by simp [headOf, headPut, sget_sset]
end

section
variable (n : Nat) (x : Acct)
@[simp] theorem acctPut_time : (acctPut n x s).time = s.time := rfl
@[simp] theorem acctPut_dom : (acctPut n x s).dom = s.dom := rfl
@[simp] theorem acctPut_gate : (acctPut n x s).gate = s.gate := rfl
@[simp] theorem acctPut_reqs : (acctPut n x s).reqs = s.reqs := rfl
@[simp] theorem acctPut_next : (acctPut n x s).next = s.next := rfl
@[simp] theorem acctPut_coh : (acctPut n x s).coh = s.coh := rfl
@[simp] theorem acctPut_meld : (acctPut n x s).meld = s.meld := rfl
@[simp] theorem acctPut_dlr : (acctPut n x s).dlr = s.dlr := rfl
@[simp] theorem acctPut_oas : (acctPut n x s).oas = s.oas := rfl
@[simp] theorem acctPut_flg : (acctPut n x s).flg = s.flg := rfl
@[simp] theorem acctPut_ring : (acctPut n x s).ring = s.ring := rfl
@[simp] theorem acctPut_icu : (acctPut n x s).icu = s.icu := rfl
@[simp] theorem acctPut_flt : (acctPut n x s).flt = s.flt := rfl
@[simp] theorem acctPut_pmu : (acctPut n x s).pmu = s.pmu := rfl
@[simp] theorem acctPut_lane : (acctPut n x s).lane = s.lane := rfl
@[simp] theorem acctPut_cxp : (acctPut n x s).cxp = s.cxp := rfl
@[simp] theorem acctPut_trl : (acctPut n x s).trl = s.trl := rfl
@[simp] theorem acctPut_mgt : (acctPut n x s).mgt = s.mgt := rfl
@[simp] theorem acctPut_emr : (acctPut n x s).emr = s.emr := rfl
@[simp] theorem acctPut_spc : (acctPut n x s).spc = s.spc := rfl
@[simp] theorem acctPut_pwr : (acctPut n x s).pwr = s.pwr := rfl
@[simp] theorem acctPut_tap : (acctPut n x s).tap = s.tap := rfl
@[simp] theorem acctPut_regs : (acctPut n x s).regs = s.regs := rfl
@[simp] theorem acctPut_out : (acctPut n x s).out = s.out := rfl
@[simp] theorem acctPut_free : (acctPut n x s).free = s.free := rfl
@[simp] theorem acctPut_pending : (acctPut n x s).pending = s.pending := rfl
theorem acctOf_acctPut (k : Nat) : acctOf (acctPut n x s) k = if k = n then x else acctOf s k := by simp [acctOf, acctPut, sget_sset]
end

section
variable (n : Nat) (x : PortQ)
@[simp] theorem pqPut_time : (pqPut n x s).time = s.time := rfl
@[simp] theorem pqPut_dom : (pqPut n x s).dom = s.dom := rfl
@[simp] theorem pqPut_gate : (pqPut n x s).gate = s.gate := rfl
@[simp] theorem pqPut_reqs : (pqPut n x s).reqs = s.reqs := rfl
@[simp] theorem pqPut_next : (pqPut n x s).next = s.next := rfl
@[simp] theorem pqPut_coh : (pqPut n x s).coh = s.coh := rfl
@[simp] theorem pqPut_meld : (pqPut n x s).meld = s.meld := rfl
@[simp] theorem pqPut_dlr : (pqPut n x s).dlr = s.dlr := rfl
@[simp] theorem pqPut_oas : (pqPut n x s).oas = s.oas := rfl
@[simp] theorem pqPut_flg : (pqPut n x s).flg = s.flg := rfl
@[simp] theorem pqPut_ring : (pqPut n x s).ring = s.ring := rfl
@[simp] theorem pqPut_icu : (pqPut n x s).icu = s.icu := rfl
@[simp] theorem pqPut_flt : (pqPut n x s).flt = s.flt := rfl
@[simp] theorem pqPut_pmu : (pqPut n x s).pmu = s.pmu := rfl
@[simp] theorem pqPut_lane : (pqPut n x s).lane = s.lane := rfl
@[simp] theorem pqPut_cxp : (pqPut n x s).cxp = s.cxp := rfl
@[simp] theorem pqPut_trl : (pqPut n x s).trl = s.trl := rfl
@[simp] theorem pqPut_mgt : (pqPut n x s).mgt = s.mgt := rfl
@[simp] theorem pqPut_emr : (pqPut n x s).emr = s.emr := rfl
@[simp] theorem pqPut_spc : (pqPut n x s).spc = s.spc := rfl
@[simp] theorem pqPut_pwr : (pqPut n x s).pwr = s.pwr := rfl
@[simp] theorem pqPut_tap : (pqPut n x s).tap = s.tap := rfl
@[simp] theorem pqPut_regs : (pqPut n x s).regs = s.regs := rfl
@[simp] theorem pqPut_out : (pqPut n x s).out = s.out := rfl
@[simp] theorem pqPut_free : (pqPut n x s).free = s.free := rfl
@[simp] theorem pqPut_pending : (pqPut n x s).pending = s.pending := rfl
theorem pqOf_pqPut (k : Nat) : pqOf (pqPut n x s) k = if k = n then x else pqOf s k := by simp [pqOf, pqPut, sget_sset]
end

section
variable (n : Nat)
@[simp] theorem sfFree_time : (sfFree n s).time = s.time := rfl
@[simp] theorem sfFree_dom : (sfFree n s).dom = s.dom := rfl
@[simp] theorem sfFree_gate : (sfFree n s).gate = s.gate := rfl
@[simp] theorem sfFree_erg : (sfFree n s).erg = s.erg := rfl
@[simp] theorem sfFree_reqs : (sfFree n s).reqs = s.reqs := rfl
@[simp] theorem sfFree_next : (sfFree n s).next = s.next := rfl
@[simp] theorem sfFree_meld : (sfFree n s).meld = s.meld := rfl
@[simp] theorem sfFree_dlr : (sfFree n s).dlr = s.dlr := rfl
@[simp] theorem sfFree_oas : (sfFree n s).oas = s.oas := rfl
@[simp] theorem sfFree_flg : (sfFree n s).flg = s.flg := rfl
@[simp] theorem sfFree_ring : (sfFree n s).ring = s.ring := rfl
@[simp] theorem sfFree_icu : (sfFree n s).icu = s.icu := rfl
@[simp] theorem sfFree_flt : (sfFree n s).flt = s.flt := rfl
@[simp] theorem sfFree_pmu : (sfFree n s).pmu = s.pmu := rfl
@[simp] theorem sfFree_lane : (sfFree n s).lane = s.lane := rfl
@[simp] theorem sfFree_cxp : (sfFree n s).cxp = s.cxp := rfl
@[simp] theorem sfFree_trl : (sfFree n s).trl = s.trl := rfl
@[simp] theorem sfFree_mgt : (sfFree n s).mgt = s.mgt := rfl
@[simp] theorem sfFree_emr : (sfFree n s).emr = s.emr := rfl
@[simp] theorem sfFree_spc : (sfFree n s).spc = s.spc := rfl
@[simp] theorem sfFree_pwr : (sfFree n s).pwr = s.pwr := rfl
@[simp] theorem sfFree_tap : (sfFree n s).tap = s.tap := rfl
@[simp] theorem sfFree_regs : (sfFree n s).regs = s.regs := rfl
@[simp] theorem sfFree_out : (sfFree n s).out = s.out := rfl
@[simp] theorem sfFree_free : (sfFree n s).free = s.free := rfl
@[simp] theorem sfFree_pending : (sfFree n s).pending = s.pending := rfl
end

section
variable (n : Nat)
@[simp] theorem lcDel_time : (lcDel n s).time = s.time := rfl
@[simp] theorem lcDel_dom : (lcDel n s).dom = s.dom := rfl
@[simp] theorem lcDel_gate : (lcDel n s).gate = s.gate := rfl
@[simp] theorem lcDel_erg : (lcDel n s).erg = s.erg := rfl
@[simp] theorem lcDel_reqs : (lcDel n s).reqs = s.reqs := rfl
@[simp] theorem lcDel_next : (lcDel n s).next = s.next := rfl
@[simp] theorem lcDel_meld : (lcDel n s).meld = s.meld := rfl
@[simp] theorem lcDel_dlr : (lcDel n s).dlr = s.dlr := rfl
@[simp] theorem lcDel_oas : (lcDel n s).oas = s.oas := rfl
@[simp] theorem lcDel_flg : (lcDel n s).flg = s.flg := rfl
@[simp] theorem lcDel_ring : (lcDel n s).ring = s.ring := rfl
@[simp] theorem lcDel_icu : (lcDel n s).icu = s.icu := rfl
@[simp] theorem lcDel_flt : (lcDel n s).flt = s.flt := rfl
@[simp] theorem lcDel_pmu : (lcDel n s).pmu = s.pmu := rfl
@[simp] theorem lcDel_lane : (lcDel n s).lane = s.lane := rfl
@[simp] theorem lcDel_cxp : (lcDel n s).cxp = s.cxp := rfl
@[simp] theorem lcDel_trl : (lcDel n s).trl = s.trl := rfl
@[simp] theorem lcDel_mgt : (lcDel n s).mgt = s.mgt := rfl
@[simp] theorem lcDel_emr : (lcDel n s).emr = s.emr := rfl
@[simp] theorem lcDel_spc : (lcDel n s).spc = s.spc := rfl
@[simp] theorem lcDel_pwr : (lcDel n s).pwr = s.pwr := rfl
@[simp] theorem lcDel_tap : (lcDel n s).tap = s.tap := rfl
@[simp] theorem lcDel_regs : (lcDel n s).regs = s.regs := rfl
@[simp] theorem lcDel_out : (lcDel n s).out = s.out := rfl
@[simp] theorem lcDel_free : (lcDel n s).free = s.free := rfl
@[simp] theorem lcDel_pending : (lcDel n s).pending = s.pending := rfl
end

section
variable (x : Txn)
@[simp] theorem txnPut_time : (txnPut x s).time = s.time := rfl
@[simp] theorem txnPut_dom : (txnPut x s).dom = s.dom := rfl
@[simp] theorem txnPut_gate : (txnPut x s).gate = s.gate := rfl
@[simp] theorem txnPut_erg : (txnPut x s).erg = s.erg := rfl
@[simp] theorem txnPut_reqs : (txnPut x s).reqs = s.reqs := rfl
@[simp] theorem txnPut_next : (txnPut x s).next = s.next := rfl
@[simp] theorem txnPut_meld : (txnPut x s).meld = s.meld := rfl
@[simp] theorem txnPut_dlr : (txnPut x s).dlr = s.dlr := rfl
@[simp] theorem txnPut_oas : (txnPut x s).oas = s.oas := rfl
@[simp] theorem txnPut_flg : (txnPut x s).flg = s.flg := rfl
@[simp] theorem txnPut_ring : (txnPut x s).ring = s.ring := rfl
@[simp] theorem txnPut_icu : (txnPut x s).icu = s.icu := rfl
@[simp] theorem txnPut_flt : (txnPut x s).flt = s.flt := rfl
@[simp] theorem txnPut_pmu : (txnPut x s).pmu = s.pmu := rfl
@[simp] theorem txnPut_lane : (txnPut x s).lane = s.lane := rfl
@[simp] theorem txnPut_cxp : (txnPut x s).cxp = s.cxp := rfl
@[simp] theorem txnPut_trl : (txnPut x s).trl = s.trl := rfl
@[simp] theorem txnPut_mgt : (txnPut x s).mgt = s.mgt := rfl
@[simp] theorem txnPut_emr : (txnPut x s).emr = s.emr := rfl
@[simp] theorem txnPut_spc : (txnPut x s).spc = s.spc := rfl
@[simp] theorem txnPut_pwr : (txnPut x s).pwr = s.pwr := rfl
@[simp] theorem txnPut_tap : (txnPut x s).tap = s.tap := rfl
@[simp] theorem txnPut_regs : (txnPut x s).regs = s.regs := rfl
@[simp] theorem txnPut_out : (txnPut x s).out = s.out := rfl
@[simp] theorem txnPut_free : (txnPut x s).free = s.free := rfl
@[simp] theorem txnPut_pending : (txnPut x s).pending = s.pending := rfl
end

section
variable (n v : Nat)
@[simp] theorem predPut_time : (predPut n v s).time = s.time := rfl
@[simp] theorem predPut_dom : (predPut n v s).dom = s.dom := rfl
@[simp] theorem predPut_gate : (predPut n v s).gate = s.gate := rfl
@[simp] theorem predPut_erg : (predPut n v s).erg = s.erg := rfl
@[simp] theorem predPut_reqs : (predPut n v s).reqs = s.reqs := rfl
@[simp] theorem predPut_next : (predPut n v s).next = s.next := rfl
@[simp] theorem predPut_coh : (predPut n v s).coh = s.coh := rfl
@[simp] theorem predPut_dlr : (predPut n v s).dlr = s.dlr := rfl
@[simp] theorem predPut_oas : (predPut n v s).oas = s.oas := rfl
@[simp] theorem predPut_flg : (predPut n v s).flg = s.flg := rfl
@[simp] theorem predPut_ring : (predPut n v s).ring = s.ring := rfl
@[simp] theorem predPut_icu : (predPut n v s).icu = s.icu := rfl
@[simp] theorem predPut_flt : (predPut n v s).flt = s.flt := rfl
@[simp] theorem predPut_pmu : (predPut n v s).pmu = s.pmu := rfl
@[simp] theorem predPut_lane : (predPut n v s).lane = s.lane := rfl
@[simp] theorem predPut_cxp : (predPut n v s).cxp = s.cxp := rfl
@[simp] theorem predPut_trl : (predPut n v s).trl = s.trl := rfl
@[simp] theorem predPut_mgt : (predPut n v s).mgt = s.mgt := rfl
@[simp] theorem predPut_emr : (predPut n v s).emr = s.emr := rfl
@[simp] theorem predPut_spc : (predPut n v s).spc = s.spc := rfl
@[simp] theorem predPut_pwr : (predPut n v s).pwr = s.pwr := rfl
@[simp] theorem predPut_tap : (predPut n v s).tap = s.tap := rfl
@[simp] theorem predPut_regs : (predPut n v s).regs = s.regs := rfl
@[simp] theorem predPut_out : (predPut n v s).out = s.out := rfl
@[simp] theorem predPut_free : (predPut n v s).free = s.free := rfl
@[simp] theorem predPut_pending : (predPut n v s).pending = s.pending := rfl
theorem predOf_predPut (k : Nat) : predOf (predPut n v s) k = if k = n then v else predOf s k := by simp [predOf, predPut, sget_sset]
end

section
variable (n : Nat) (x : Caravan)
@[simp] theorem carPut_time : (carPut n x s).time = s.time := rfl
@[simp] theorem carPut_dom : (carPut n x s).dom = s.dom := rfl
@[simp] theorem carPut_gate : (carPut n x s).gate = s.gate := rfl
@[simp] theorem carPut_erg : (carPut n x s).erg = s.erg := rfl
@[simp] theorem carPut_reqs : (carPut n x s).reqs = s.reqs := rfl
@[simp] theorem carPut_next : (carPut n x s).next = s.next := rfl
@[simp] theorem carPut_coh : (carPut n x s).coh = s.coh := rfl
@[simp] theorem carPut_meld : (carPut n x s).meld = s.meld := rfl
@[simp] theorem carPut_oas : (carPut n x s).oas = s.oas := rfl
@[simp] theorem carPut_flg : (carPut n x s).flg = s.flg := rfl
@[simp] theorem carPut_ring : (carPut n x s).ring = s.ring := rfl
@[simp] theorem carPut_icu : (carPut n x s).icu = s.icu := rfl
@[simp] theorem carPut_flt : (carPut n x s).flt = s.flt := rfl
@[simp] theorem carPut_pmu : (carPut n x s).pmu = s.pmu := rfl
@[simp] theorem carPut_lane : (carPut n x s).lane = s.lane := rfl
@[simp] theorem carPut_cxp : (carPut n x s).cxp = s.cxp := rfl
@[simp] theorem carPut_trl : (carPut n x s).trl = s.trl := rfl
@[simp] theorem carPut_mgt : (carPut n x s).mgt = s.mgt := rfl
@[simp] theorem carPut_emr : (carPut n x s).emr = s.emr := rfl
@[simp] theorem carPut_spc : (carPut n x s).spc = s.spc := rfl
@[simp] theorem carPut_pwr : (carPut n x s).pwr = s.pwr := rfl
@[simp] theorem carPut_tap : (carPut n x s).tap = s.tap := rfl
@[simp] theorem carPut_regs : (carPut n x s).regs = s.regs := rfl
@[simp] theorem carPut_out : (carPut n x s).out = s.out := rfl
@[simp] theorem carPut_free : (carPut n x s).free = s.free := rfl
@[simp] theorem carPut_pending : (carPut n x s).pending = s.pending := rfl
theorem carOf_carPut (k : Nat) : carOf (carPut n x s) k = if k = n then x else carOf s k := by simp [carOf, carPut, sget_sset]
end

section
variable (n : Nat) (x : SubCh)
@[simp] theorem subPut_time : (subPut n x s).time = s.time := rfl
@[simp] theorem subPut_dom : (subPut n x s).dom = s.dom := rfl
@[simp] theorem subPut_gate : (subPut n x s).gate = s.gate := rfl
@[simp] theorem subPut_erg : (subPut n x s).erg = s.erg := rfl
@[simp] theorem subPut_reqs : (subPut n x s).reqs = s.reqs := rfl
@[simp] theorem subPut_next : (subPut n x s).next = s.next := rfl
@[simp] theorem subPut_coh : (subPut n x s).coh = s.coh := rfl
@[simp] theorem subPut_meld : (subPut n x s).meld = s.meld := rfl
@[simp] theorem subPut_dlr : (subPut n x s).dlr = s.dlr := rfl
@[simp] theorem subPut_flg : (subPut n x s).flg = s.flg := rfl
@[simp] theorem subPut_ring : (subPut n x s).ring = s.ring := rfl
@[simp] theorem subPut_icu : (subPut n x s).icu = s.icu := rfl
@[simp] theorem subPut_flt : (subPut n x s).flt = s.flt := rfl
@[simp] theorem subPut_pmu : (subPut n x s).pmu = s.pmu := rfl
@[simp] theorem subPut_lane : (subPut n x s).lane = s.lane := rfl
@[simp] theorem subPut_cxp : (subPut n x s).cxp = s.cxp := rfl
@[simp] theorem subPut_trl : (subPut n x s).trl = s.trl := rfl
@[simp] theorem subPut_mgt : (subPut n x s).mgt = s.mgt := rfl
@[simp] theorem subPut_emr : (subPut n x s).emr = s.emr := rfl
@[simp] theorem subPut_spc : (subPut n x s).spc = s.spc := rfl
@[simp] theorem subPut_pwr : (subPut n x s).pwr = s.pwr := rfl
@[simp] theorem subPut_tap : (subPut n x s).tap = s.tap := rfl
@[simp] theorem subPut_regs : (subPut n x s).regs = s.regs := rfl
@[simp] theorem subPut_out : (subPut n x s).out = s.out := rfl
@[simp] theorem subPut_free : (subPut n x s).free = s.free := rfl
@[simp] theorem subPut_pending : (subPut n x s).pending = s.pending := rfl
theorem subOf_subPut (k : Nat) : subOf (subPut n x s) k = if k = n then x else subOf s k := by simp [subOf, subPut, sget_sset]
end

section
variable (n : Nat) (x : LaneS)
@[simp] theorem lanePut_time : (lanePut n x s).time = s.time := rfl
@[simp] theorem lanePut_dom : (lanePut n x s).dom = s.dom := rfl
@[simp] theorem lanePut_gate : (lanePut n x s).gate = s.gate := rfl
@[simp] theorem lanePut_erg : (lanePut n x s).erg = s.erg := rfl
@[simp] theorem lanePut_reqs : (lanePut n x s).reqs = s.reqs := rfl
@[simp] theorem lanePut_next : (lanePut n x s).next = s.next := rfl
@[simp] theorem lanePut_coh : (lanePut n x s).coh = s.coh := rfl
@[simp] theorem lanePut_meld : (lanePut n x s).meld = s.meld := rfl
@[simp] theorem lanePut_dlr : (lanePut n x s).dlr = s.dlr := rfl
@[simp] theorem lanePut_oas : (lanePut n x s).oas = s.oas := rfl
@[simp] theorem lanePut_flg : (lanePut n x s).flg = s.flg := rfl
@[simp] theorem lanePut_ring : (lanePut n x s).ring = s.ring := rfl
@[simp] theorem lanePut_icu : (lanePut n x s).icu = s.icu := rfl
@[simp] theorem lanePut_flt : (lanePut n x s).flt = s.flt := rfl
@[simp] theorem lanePut_pmu : (lanePut n x s).pmu = s.pmu := rfl
@[simp] theorem lanePut_cxp : (lanePut n x s).cxp = s.cxp := rfl
@[simp] theorem lanePut_trl : (lanePut n x s).trl = s.trl := rfl
@[simp] theorem lanePut_mgt : (lanePut n x s).mgt = s.mgt := rfl
@[simp] theorem lanePut_emr : (lanePut n x s).emr = s.emr := rfl
@[simp] theorem lanePut_spc : (lanePut n x s).spc = s.spc := rfl
@[simp] theorem lanePut_pwr : (lanePut n x s).pwr = s.pwr := rfl
@[simp] theorem lanePut_tap : (lanePut n x s).tap = s.tap := rfl
@[simp] theorem lanePut_regs : (lanePut n x s).regs = s.regs := rfl
@[simp] theorem lanePut_out : (lanePut n x s).out = s.out := rfl
@[simp] theorem lanePut_free : (lanePut n x s).free = s.free := rfl
@[simp] theorem lanePut_pending : (lanePut n x s).pending = s.pending := rfl
theorem laneOf_lanePut (k : Nat) : laneOf (lanePut n x s) k = if k = n then x else laneOf s k := by simp [laneOf, lanePut, sget_sset]
end

section
variable (n : Nat) (x : TileS)
@[simp] theorem tilePut_time : (tilePut n x s).time = s.time := rfl
@[simp] theorem tilePut_dom : (tilePut n x s).dom = s.dom := rfl
@[simp] theorem tilePut_gate : (tilePut n x s).gate = s.gate := rfl
@[simp] theorem tilePut_erg : (tilePut n x s).erg = s.erg := rfl
@[simp] theorem tilePut_reqs : (tilePut n x s).reqs = s.reqs := rfl
@[simp] theorem tilePut_next : (tilePut n x s).next = s.next := rfl
@[simp] theorem tilePut_coh : (tilePut n x s).coh = s.coh := rfl
@[simp] theorem tilePut_meld : (tilePut n x s).meld = s.meld := rfl
@[simp] theorem tilePut_dlr : (tilePut n x s).dlr = s.dlr := rfl
@[simp] theorem tilePut_oas : (tilePut n x s).oas = s.oas := rfl
@[simp] theorem tilePut_flg : (tilePut n x s).flg = s.flg := rfl
@[simp] theorem tilePut_ring : (tilePut n x s).ring = s.ring := rfl
@[simp] theorem tilePut_icu : (tilePut n x s).icu = s.icu := rfl
@[simp] theorem tilePut_flt : (tilePut n x s).flt = s.flt := rfl
@[simp] theorem tilePut_pmu : (tilePut n x s).pmu = s.pmu := rfl
@[simp] theorem tilePut_cxp : (tilePut n x s).cxp = s.cxp := rfl
@[simp] theorem tilePut_trl : (tilePut n x s).trl = s.trl := rfl
@[simp] theorem tilePut_mgt : (tilePut n x s).mgt = s.mgt := rfl
@[simp] theorem tilePut_emr : (tilePut n x s).emr = s.emr := rfl
@[simp] theorem tilePut_spc : (tilePut n x s).spc = s.spc := rfl
@[simp] theorem tilePut_pwr : (tilePut n x s).pwr = s.pwr := rfl
@[simp] theorem tilePut_tap : (tilePut n x s).tap = s.tap := rfl
@[simp] theorem tilePut_regs : (tilePut n x s).regs = s.regs := rfl
@[simp] theorem tilePut_out : (tilePut n x s).out = s.out := rfl
@[simp] theorem tilePut_free : (tilePut n x s).free = s.free := rfl
@[simp] theorem tilePut_pending : (tilePut n x s).pending = s.pending := rfl
theorem tileOf_tilePut (k : Nat) : tileOf (tilePut n x s) k = if k = n then x else tileOf s k := by simp [tileOf, tilePut, sget_sset]
end

section
variable (n : Nat) (x : CxpPort)
@[simp] theorem cxpPut_time : (cxpPut n x s).time = s.time := rfl
@[simp] theorem cxpPut_dom : (cxpPut n x s).dom = s.dom := rfl
@[simp] theorem cxpPut_gate : (cxpPut n x s).gate = s.gate := rfl
@[simp] theorem cxpPut_erg : (cxpPut n x s).erg = s.erg := rfl
@[simp] theorem cxpPut_reqs : (cxpPut n x s).reqs = s.reqs := rfl
@[simp] theorem cxpPut_next : (cxpPut n x s).next = s.next := rfl
@[simp] theorem cxpPut_coh : (cxpPut n x s).coh = s.coh := rfl
@[simp] theorem cxpPut_meld : (cxpPut n x s).meld = s.meld := rfl
@[simp] theorem cxpPut_dlr : (cxpPut n x s).dlr = s.dlr := rfl
@[simp] theorem cxpPut_oas : (cxpPut n x s).oas = s.oas := rfl
@[simp] theorem cxpPut_flg : (cxpPut n x s).flg = s.flg := rfl
@[simp] theorem cxpPut_ring : (cxpPut n x s).ring = s.ring := rfl
@[simp] theorem cxpPut_icu : (cxpPut n x s).icu = s.icu := rfl
@[simp] theorem cxpPut_flt : (cxpPut n x s).flt = s.flt := rfl
@[simp] theorem cxpPut_pmu : (cxpPut n x s).pmu = s.pmu := rfl
@[simp] theorem cxpPut_lane : (cxpPut n x s).lane = s.lane := rfl
@[simp] theorem cxpPut_trl : (cxpPut n x s).trl = s.trl := rfl
@[simp] theorem cxpPut_mgt : (cxpPut n x s).mgt = s.mgt := rfl
@[simp] theorem cxpPut_emr : (cxpPut n x s).emr = s.emr := rfl
@[simp] theorem cxpPut_spc : (cxpPut n x s).spc = s.spc := rfl
@[simp] theorem cxpPut_pwr : (cxpPut n x s).pwr = s.pwr := rfl
@[simp] theorem cxpPut_tap : (cxpPut n x s).tap = s.tap := rfl
@[simp] theorem cxpPut_regs : (cxpPut n x s).regs = s.regs := rfl
@[simp] theorem cxpPut_out : (cxpPut n x s).out = s.out := rfl
@[simp] theorem cxpPut_free : (cxpPut n x s).free = s.free := rfl
@[simp] theorem cxpPut_pending : (cxpPut n x s).pending = s.pending := rfl
theorem cxpOf_cxpPut (k : Nat) : cxpOf (cxpPut n x s) k = if k = n then x else cxpOf s k := by simp [cxpOf, cxpPut, sget_sset]
end

section
variable (n : Nat) (x : TrlPort)
@[simp] theorem trlPut_time : (trlPut n x s).time = s.time := rfl
@[simp] theorem trlPut_dom : (trlPut n x s).dom = s.dom := rfl
@[simp] theorem trlPut_gate : (trlPut n x s).gate = s.gate := rfl
@[simp] theorem trlPut_erg : (trlPut n x s).erg = s.erg := rfl
@[simp] theorem trlPut_reqs : (trlPut n x s).reqs = s.reqs := rfl
@[simp] theorem trlPut_next : (trlPut n x s).next = s.next := rfl
@[simp] theorem trlPut_coh : (trlPut n x s).coh = s.coh := rfl
@[simp] theorem trlPut_meld : (trlPut n x s).meld = s.meld := rfl
@[simp] theorem trlPut_dlr : (trlPut n x s).dlr = s.dlr := rfl
@[simp] theorem trlPut_oas : (trlPut n x s).oas = s.oas := rfl
@[simp] theorem trlPut_flg : (trlPut n x s).flg = s.flg := rfl
@[simp] theorem trlPut_ring : (trlPut n x s).ring = s.ring := rfl
@[simp] theorem trlPut_icu : (trlPut n x s).icu = s.icu := rfl
@[simp] theorem trlPut_flt : (trlPut n x s).flt = s.flt := rfl
@[simp] theorem trlPut_pmu : (trlPut n x s).pmu = s.pmu := rfl
@[simp] theorem trlPut_lane : (trlPut n x s).lane = s.lane := rfl
@[simp] theorem trlPut_cxp : (trlPut n x s).cxp = s.cxp := rfl
@[simp] theorem trlPut_mgt : (trlPut n x s).mgt = s.mgt := rfl
@[simp] theorem trlPut_emr : (trlPut n x s).emr = s.emr := rfl
@[simp] theorem trlPut_spc : (trlPut n x s).spc = s.spc := rfl
@[simp] theorem trlPut_pwr : (trlPut n x s).pwr = s.pwr := rfl
@[simp] theorem trlPut_tap : (trlPut n x s).tap = s.tap := rfl
@[simp] theorem trlPut_regs : (trlPut n x s).regs = s.regs := rfl
@[simp] theorem trlPut_out : (trlPut n x s).out = s.out := rfl
@[simp] theorem trlPut_free : (trlPut n x s).free = s.free := rfl
@[simp] theorem trlPut_pending : (trlPut n x s).pending = s.pending := rfl
theorem trlOf_trlPut (k : Nat) : trlOf (trlPut n x s) k = if k = n then x else trlOf s k := by simp [trlOf, trlPut, sget_sset]
end

section
variable (n : Nat) (x : BwP)
@[simp] theorem bwPut_time : (bwPut n x s).time = s.time := rfl
@[simp] theorem bwPut_dom : (bwPut n x s).dom = s.dom := rfl
@[simp] theorem bwPut_gate : (bwPut n x s).gate = s.gate := rfl
@[simp] theorem bwPut_erg : (bwPut n x s).erg = s.erg := rfl
@[simp] theorem bwPut_reqs : (bwPut n x s).reqs = s.reqs := rfl
@[simp] theorem bwPut_next : (bwPut n x s).next = s.next := rfl
@[simp] theorem bwPut_coh : (bwPut n x s).coh = s.coh := rfl
@[simp] theorem bwPut_meld : (bwPut n x s).meld = s.meld := rfl
@[simp] theorem bwPut_dlr : (bwPut n x s).dlr = s.dlr := rfl
@[simp] theorem bwPut_oas : (bwPut n x s).oas = s.oas := rfl
@[simp] theorem bwPut_flg : (bwPut n x s).flg = s.flg := rfl
@[simp] theorem bwPut_ring : (bwPut n x s).ring = s.ring := rfl
@[simp] theorem bwPut_icu : (bwPut n x s).icu = s.icu := rfl
@[simp] theorem bwPut_flt : (bwPut n x s).flt = s.flt := rfl
@[simp] theorem bwPut_lane : (bwPut n x s).lane = s.lane := rfl
@[simp] theorem bwPut_cxp : (bwPut n x s).cxp = s.cxp := rfl
@[simp] theorem bwPut_trl : (bwPut n x s).trl = s.trl := rfl
@[simp] theorem bwPut_mgt : (bwPut n x s).mgt = s.mgt := rfl
@[simp] theorem bwPut_emr : (bwPut n x s).emr = s.emr := rfl
@[simp] theorem bwPut_spc : (bwPut n x s).spc = s.spc := rfl
@[simp] theorem bwPut_pwr : (bwPut n x s).pwr = s.pwr := rfl
@[simp] theorem bwPut_tap : (bwPut n x s).tap = s.tap := rfl
@[simp] theorem bwPut_regs : (bwPut n x s).regs = s.regs := rfl
@[simp] theorem bwPut_out : (bwPut n x s).out = s.out := rfl
@[simp] theorem bwPut_free : (bwPut n x s).free = s.free := rfl
@[simp] theorem bwPut_pending : (bwPut n x s).pending = s.pending := rfl
theorem bwOf_bwPut (k : Nat) : bwOf (bwPut n x s) k = if k = n then x else bwOf s k := by simp [bwOf, bwPut, sget_sset]
end

section
variable (a : Nat) (v : Word)
@[simp] theorem regPut_time : (regPut s a v).time = s.time := rfl
@[simp] theorem regPut_dom : (regPut s a v).dom = s.dom := rfl
@[simp] theorem regPut_gate : (regPut s a v).gate = s.gate := rfl
@[simp] theorem regPut_erg : (regPut s a v).erg = s.erg := rfl
@[simp] theorem regPut_reqs : (regPut s a v).reqs = s.reqs := rfl
@[simp] theorem regPut_next : (regPut s a v).next = s.next := rfl
@[simp] theorem regPut_coh : (regPut s a v).coh = s.coh := rfl
@[simp] theorem regPut_meld : (regPut s a v).meld = s.meld := rfl
@[simp] theorem regPut_dlr : (regPut s a v).dlr = s.dlr := rfl
@[simp] theorem regPut_oas : (regPut s a v).oas = s.oas := rfl
@[simp] theorem regPut_flg : (regPut s a v).flg = s.flg := rfl
@[simp] theorem regPut_ring : (regPut s a v).ring = s.ring := rfl
@[simp] theorem regPut_icu : (regPut s a v).icu = s.icu := rfl
@[simp] theorem regPut_flt : (regPut s a v).flt = s.flt := rfl
@[simp] theorem regPut_pmu : (regPut s a v).pmu = s.pmu := rfl
@[simp] theorem regPut_lane : (regPut s a v).lane = s.lane := rfl
@[simp] theorem regPut_cxp : (regPut s a v).cxp = s.cxp := rfl
@[simp] theorem regPut_trl : (regPut s a v).trl = s.trl := rfl
@[simp] theorem regPut_mgt : (regPut s a v).mgt = s.mgt := rfl
@[simp] theorem regPut_emr : (regPut s a v).emr = s.emr := rfl
@[simp] theorem regPut_spc : (regPut s a v).spc = s.spc := rfl
@[simp] theorem regPut_pwr : (regPut s a v).pwr = s.pwr := rfl
@[simp] theorem regPut_tap : (regPut s a v).tap = s.tap := rfl
@[simp] theorem regPut_out : (regPut s a v).out = s.out := rfl
@[simp] theorem regPut_free : (regPut s a v).free = s.free := rfl
@[simp] theorem regPut_pending : (regPut s a v).pending = s.pending := rfl
theorem regGet_eq_sget : regGet s a = sget (regReset a) s.regs a := by
  rw [sget_eq_sfind]; unfold regGet; cases sfind? s.regs a <;> rfl

theorem regGet_regPut (b : Nat) : regGet (regPut s a v) b = if b = a then v else regGet s b := by
  simp only [regGet_eq_sget, regPut]
  by_cases hb : b = a
  · subst hb
    by_cases hv : v = regReset b
    · simp [hv]
    · simp [hv]
  · by_cases hv : v = regReset a
    · simp [hb, hv, sget_sdel_ne]
    · simp [hb, hv, sget_sput_ne]
end

end Sys2Proof.Machine
end

