-- ==== Sys2Proof/WellFormed.lean ====
section
/-!
DEFINITION. WellFormed.lean: the range of every operand that is a number of something the device has a fixed number of. Operands whose
type already bounds them, and quantities that a sender may give any value, carry no check.
-/
namespace Sys2Proof

/-- A port index. -/
def okPort (p : Nat) : Bool := decide (p < 96)
/-- A tile. -/
def okTile (t : Nat) : Bool := decide (t < 24)
/-- A global lane. -/
def okLane (l : Nat) : Bool := decide (l < 432)
/-- A domain number. -/
def okDom (d : Nat) : Bool := decide (d < 4096)
/-- A VCS. -/
def okVcs (v : Nat) : Bool := decide (v < 64)
/-- A core. -/
def okCore (n : Nat) : Bool := decide (n < 64)
/-- A switch ID. -/
def okSwitch (k : Nat) : Bool := decide (k < 16)
/-- A ring. -/
def okRing (n : Nat) : Bool := decide (n < 1024)
/-- An interrupt source. -/
def okSource (n : Nat) : Bool := decide (n < 8192)
/-- A vPPB. -/
def okVppb (v : Nat) : Bool := decide (v < 256)
/-- A tag. -/
def okTag (t : Nat) : Bool := decide (t < 65536)
/-- A line number: DA[45:6]. -/
def okLineNo (l : Nat) : Bool := decide (l < 1099511627776)
/-- A domain address. -/
def okDa (a : Nat) : Bool := decide (a < 70368744177664)
/-- A host physical address. -/
def okHpa (a : Nat) : Bool := decide (a < 4503599627370496)
/-- A Caravan. -/
def okCaravan (c : Nat) : Bool := decide (c < 32)
/-- A home slice or Meld unit. -/
def okUnit (h : Nat) : Bool := decide (h < 64)
/-- A pool device index. -/
def okDev (d : Nat) : Bool := decide (d < 255)
/-- An Oasis stack. -/
def okStack (k : Nat) : Bool := decide (k < 8)
/-- An Oasis subchannel. -/
def okSub (n : Nat) : Bool := decide (n < 64)
/-- An Oasis channel. -/
def okChannel (c : Nat) : Bool := decide (c < 32)
/-- An index of the placement map. -/
def okIdx (i : Nat) : Bool := decide (i < 268435456)
/-- A traffic class. -/
def okClass (c : Nat) : Bool := decide (c < 8)
/-- A half of a tile. -/
def okHalf (h : Nat) : Bool := decide (h < 2)

/-- An error found by ECC: 0 none, 1 corrected, 2 uncorrectable; a received flit has more kinds of error. -/
def okErr (e : Nat) : Bool := decide (e < 5)
/-- Bytes that a management message holds. -/
def okBytes (l : List Byte) : Bool := decide (l.length ≤ 4096)

/-- A command is well formed. -/
def wellFormed (i : Instr) : Bool :=
  match i with
  | .flitReceive port _ err _ _ => okPort port && okErr err
  | .memrd port tag hpa _ err => okPort port && okTag tag && okHpa hpa && okErr err
  | .memrddata port tag hpa err => okPort port && okTag tag && okHpa hpa && okErr err
  | .meminv port tag hpa _ err => okPort port && okTag tag && okHpa hpa && okErr err
  | .memwr port tag hpa _ _ _ err => okPort port && okTag tag && okHpa hpa && okErr err
  | .memwrptl port tag hpa _ _ _ _ err => okPort port && okTag tag && okHpa hpa && okErr err
  | .memclnevct port tag hpa => okPort port && okTag tag && okHpa hpa
  | .memspecrd port hpa => okPort port && okHpa hpa
  | .birspi port _ => okPort port
  | .birsps port _ => okPort port
  | .birspe port _ => okPort port
  | .biconflict port _ => okPort port
  | .gateCacheFill _ => true
  | .placementTlbFill idx => okIdx idx
  | .fillCommit idx => okIdx idx
  | .fillWaitExpire idx => okIdx idx
  | .poolMemdata port tag _ _ => okPort port && okTag tag
  | .poolCmp port tag => okPort port && okTag tag
  | .poolErrorResponse port tag => okPort port && okTag tag
  | .passthroughForward port vppb _ _ cls _ => okPort port && okVppb vppb && okClass cls
  | .pbrFlit port _ _ _ _ _ => okPort port
  | .kmdConfigAccess _ _ _ _ _ _ => true
  | .hdmDecoderCommit vcs dom _ hpa _ da _ => okVcs vcs && okDom dom && okHpa hpa && okDa da
  | .atomicopFetchadd port vppb tag _ _ _ => okPort port && okVppb vppb && okTag tag
  | .atomicopSwap port vppb tag _ _ _ => okPort port && okVppb vppb && okTag tag
  | .atomicopCas port vppb tag _ _ _ _ => okPort port && okVppb vppb && okTag tag
  | .meldTrackerResume unit => okUnit unit
  | .meldFarTimeout tag => okTag tag
  | .txRecord port => okPort port
  | .parkRelease port cls => okPort port && okClass cls
  | .subqueueHeadFree port => okPort port
  | .creditAdvertise port cls _ => okPort port && okClass cls
  | .creditReceived port _ _ _ => okPort port
  | .flitAck port _ => okPort port
  | .cxlReplayRequest port _ _ => okPort port
  | .paceWindow _ => true
  | .paceLevelDecay => true
  | .ergPatrolScrub _ _ _ _ _ => true
  | .linkDown port => okPort port
  | .hostLost port => okPort port
  | .poolDeviceLost dev => okDev dev
  | .lossWalkStep dev _ => okDev dev
  | .initiateDcAdd dom _ _ vcs => okDom dom && okVcs vcs
  | .addDcResponse vcs dom _ => okVcs vcs && okDom dom
  | .releaseDc vcs dom _ => okVcs vcs && okDom dom
  | .initiateDcRelease dom _ => okDom dom
  | .releaseDrainDone dom => okDom dom
  | .scrubParcelDone dev => okDev dev
  | .bindCreate _ _ _ => true
  | .bindQuiesce _ _ _ => true
  | .bindResume _ _ _ => true
  | .bindVppb _ _ _ _ => true
  | .bindPooldev _ _ _ _ _ => true
  | .bindEvacuate _ _ _ => true
  | .bindRetire _ _ _ => true
  | .bindConstraint _ _ _ => true
  | .bindWall _ _ _ => true
  | .unbindVppb _ _ _ => true
  | .unbindPooldev _ _ _ => true
  | .winset _ _ _ => true
  | .winclr _ _ _ => true
  | .winclrDrainDone _ => true
  | .gatesetWrite _ _ _ => true
  | .gatesetStage _ _ _ => true
  | .gatesetInsert _ _ _ => true
  | .gatesetSwap _ _ _ => true
  | .gatesetPin _ _ _ => true
  | .gateclrUnlink _ _ _ => true
  | .gateclrFree _ _ _ => true
  | .gsyncRetire => true
  | .msyncRetire => true
  | .lineQueueGrant dom da => okDom dom && okDa da
  | .trackerFreeResume slice => okUnit slice
  | .holdExpire dom da => okDom dom && okDa da
  | .lcEvictComplete dom da => okDom dom && okDa da
  | .bisnpTimeout _ => true
  | .hreqS tile sw dom line tag => okTile tile && okSwitch sw && okDom dom && okLineNo line && okTag tag
  | .hreqX tile sw dom line tag => okTile tile && okSwitch sw && okDom dom && okLineNo line && okTag tag
  | .hreqCur tile sw dom line tag _ => okTile tile && okSwitch sw && okDom dom && okLineNo line && okTag tag
  | .hreqWr tile sw dom line tag _ _ _ _ => okTile tile && okSwitch sw && okDom dom && okLineNo line && okTag tag
  | .hwb tile sw dom line tag _ _ _ => okTile tile && okSwitch sw && okDom dom && okLineNo line && okTag tag
  | .hgntS tile dom line tag _ _ => okTile tile && okDom dom && okLineNo line && okTag tag
  | .hgntX tile dom line tag _ _ => okTile tile && okDom dom && okLineNo line && okTag tag
  | .hcmp tile dom line tag _ => okTile tile && okDom dom && okLineNo line && okTag tag
  | .hsnpInv tile home dom line tag => okTile tile && okSwitch home && okDom dom && okLineNo line && okTag tag
  | .hsnpData tile home dom line tag => okTile tile && okSwitch home && okDom dom && okLineNo line && okTag tag
  | .hsnpCur tile home dom line tag => okTile tile && okSwitch home && okDom dom && okLineNo line && okTag tag
  | .hrspI tile sw dom line tag _ _ => okTile tile && okSwitch sw && okDom dom && okLineNo line && okTag tag
  | .hrspS tile sw dom line tag _ _ => okTile tile && okSwitch sw && okDom dom && okLineNo line && okTag tag
  | .hrspE tile sw dom line tag _ _ => okTile tile && okSwitch sw && okDom dom && okLineNo line && okTag tag
  | .hmeld tile sw dom line tag _ _ _ _ _ _ => okTile tile && okSwitch sw && okDom dom && okLineNo line && okTag tag
  | .hmeldRsp tile dom line tag _ _ _ _ => okTile tile && okDom dom && okLineNo line && okTag tag
  | .hsnpTimeout _ => true
  | .heartbeat tile sw _ => okTile tile && okSwitch sw
  | .heartbeatSend => true
  | .switchLost sw => okSwitch sw
  | .messageForward tile _ _ _ _ dom tag _ line _ _ _ _ => okTile tile && okDom dom && okTag tag && okLineNo line
  | .routeFenceEnd tile => okTile tile
  | .caravanMoveStart => true
  | .chunkComplete car _ _ err => okCaravan car && okErr err
  | .moveFlip car => okCaravan car
  | .switchMaxExpire car => okCaravan car
  | .migrationAllowance => true
  | .epochEnd => true
  | .heatSweep _ => true
  | .pmapsetExtend _ _ _ => true
  | .pmapsetRelease _ _ _ => true
  | .pmapsetPin _ _ _ => true
  | .pmapgetEntry _ _ _ => true
  | .pmapgetLegs _ _ _ => true
  | .moveStart _ _ _ => true
  | .moveCancel _ _ _ => true
  | .movestat _ _ _ => true
  | .heatRead _ _ _ => true
  | .heatSet _ _ _ => true
  | .sfquery _ _ _ => true
  | .lineflush _ _ _ => true
  | .lineflushDone _ _ => true
  | .meld _ _ _ => true
  | .mirrorSet _ _ _ => true
  | .mirrorClear _ _ _ => true
  | .qossetProfile _ _ _ => true
  | .qossetDomain _ _ _ => true
  | .qossetPortq _ _ _ => true
  | .qossetAlpha _ _ _ => true
  | .qossetReserve _ _ _ => true
  | .portctlDisable _ _ _ => true
  | .portctlEnable _ _ _ => true
  | .portctlRetrain _ _ _ => true
  | .portctlPace _ _ _ => true
  | .nvstoreStage _ _ _ => true
  | .nvstoreCommit _ _ _ => true
  | .nvmBlockWriteDone _ _ => true
  | .nvstoreDiscard _ _ _ => true
  | .nvstat _ _ _ => true
  | .cntcfg _ _ _ => true
  | .cntread _ _ _ => true
  | .samplecfg _ _ _ => true
  | .resultputAck _ _ _ => true
  | .resultputPost _ _ _ => true
  | .add _ _ _ _ => true
  | .sub _ _ _ _ => true
  | .and _ _ _ _ => true
  | .or _ _ _ _ => true
  | .xor _ _ _ _ => true
  | .sll _ _ _ _ => true
  | .srl _ _ _ _ => true
  | .sra _ _ _ _ => true
  | .slt _ _ _ _ => true
  | .sltu _ _ _ _ => true
  | .clz _ _ _ _ => true
  | .ctz _ _ _ _ => true
  | .popc _ _ _ _ => true
  | .addi _ _ _ _ => true
  | .andi _ _ _ _ => true
  | .ori _ _ _ _ => true
  | .xori _ _ _ _ => true
  | .slli _ _ _ _ => true
  | .srli _ _ _ _ => true
  | .srai _ _ _ _ => true
  | .limm _ _ _ => true
  | .limmh _ _ _ => true
  | .ldb _ _ _ _ err => okErr err
  | .ldh _ _ _ _ err => okErr err
  | .ldw _ _ _ _ err => okErr err
  | .ldd _ _ _ _ err => okErr err
  | .stb _ _ _ _ err => okErr err
  | .sth _ _ _ _ err => okErr err
  | .stw _ _ _ _ err => okErr err
  | .std _ _ _ _ => true
  | .mul _ _ _ _ => true
  | .mulhu _ _ _ _ => true
  | .mulhs _ _ _ _ => true
  | .divu _ _ _ _ => true
  | .divs _ _ _ _ => true
  | .remu _ _ _ _ => true
  | .rems _ _ _ _ => true
  | .cget _ _ _ _ => true
  | .cset _ _ _ _ => true
  | .ladd _ _ _ _ _ err => okErr err
  | .land _ _ _ _ _ err => okErr err
  | .lor _ _ _ _ _ err => okErr err
  | .lxor _ _ _ _ _ err => okErr err
  | .lswap _ _ _ _ _ err => okErr err
  | .lcas _ _ _ _ _ err => okErr err
  | .beq _ _ _ _ => true
  | .bne _ _ _ _ => true
  | .blt _ _ _ _ => true
  | .bge _ _ _ _ => true
  | .bltu _ _ _ _ => true
  | .bgeu _ _ _ _ => true
  | .bra _ _ _ _ => true
  | .jmp _ _ => true
  | .jal _ _ => true
  | .jr _ _ _ _ => true
  | .jalr _ _ _ _ => true
  | .qpush _ _ _ _ => true
  | .qpop _ _ _ _ => true
  | .qpeek _ _ _ _ => true
  | .qmark _ _ _ _ => true
  | .qrewind _ _ _ _ => true
  | .qrel _ _ _ _ => true
  | .qstat _ _ _ _ => true
  | .wait _ _ _ _ => true
  | .sleep _ _ _ _ => true
  | .waitEnd core => okCore core
  | .sleepWake core => okCore core
  | .waitSleepDeadline core => okCore core
  | .intclaim _ _ _ _ => true
  | .intdone _ _ _ _ => true
  | .trap _ _ _ _ => true
  | .eret _ _ _ _ err => okErr err
  | .fenceL _ _ _ _ => true
  | .fenceF _ _ _ _ => true
  | .gsync _ _ _ _ => true
  | .msync _ _ _ _ => true
  | .halt _ _ _ _ => true
  | .interruptEntry _ => true
  | .coreReset _ => true
  | .coreStart _ => true
  | .coreHaltreq _ => true
  | .qringEnable ring _ => okRing ring
  | .qringDisable ring _ => okRing ring
  | .ringIdleExpire ring => okRing ring
  | .pendclr source => okSource source
  | .icuSwset _ => true
  | .refclkLoss tile => okTile tile
  | .refclkRelock tile => okTile tile
  | .timeHoldover => true
  | .timeReferenceReturn => true
  | .laneTrainingDone port _ _ _ => okPort port
  | .laneAdaptStep lane => okLane lane
  | .eyeMeasure lane _ _ => okLane lane
  | .utilWindow _ => true
  | .checkRemeasure lane _ _ => okLane lane
  | .trlEqStepEnd lane _ _ => okLane lane
  | .laneOutOfService lane _ => okLane lane
  | .lossOfSignal lane _ => okLane lane
  | .alignmentMarker lane _ _ _ _ _ _ => okLane lane
  | .linkUp port _ _ _ _ _ _ _ vcs => okPort port && okVcs vcs
  | .pauseStart port => okPort port
  | .pauseResume port _ _ => okPort port
  | .pauseLimitExpire port => okPort port
  | .memCtoExpire port tag => okPort port && okTag tag
  | .ioCtoExpire tag => okTag tag
  | .ideKeyRefresh port _ => okPort port
  | .doeRequest _ _ _ _ => true
  | .doeAbort _ => true
  | .perstAssert port => okPort port
  | .perstDeassert port => okPort port
  | .perstRelease port => okPort port
  | .trlFrameRx tile _ _ _ _ _ _ _ _ _ _ _ => okTile tile
  | .trlFrameTx tile => okTile tile
  | .replayAckTimeout tile => okTile tile
  | .spillMeterRelease tile => okTile tile
  | .paceSilence tile => okTile tile
  | .trlFrameTimeout tile => okTile tile
  | .trlDetect tile _ => okTile tile
  | .trlTrainRetry tile => okTile tile
  | .trainFrame tile _ _ _ _ _ _ _ _ _ _ => okTile tile
  | .resumeMaxExpire tile => okTile tile
  | .spareReq tile lane _ _ => okTile tile && okLane lane
  | .spareCheckDone tile half => okTile tile && okHalf half
  | .spareDone tile lane _ => okTile tile && okLane lane
  | .spareRefuse tile => okTile tile
  | .idleEnterExpire tile => okTile tile
  | .idleReq tile => okTile tile
  | .idleAck tile => okTile tile
  | .idleNak tile => okTile tile
  | .idleExit tile => okTile tile
  | .eqReq tile _ => okTile tile
  | .eqRsp tile _ => okTile tile
  | .entdaa _ => true
  | .setdasa _ _ => true
  | .setnewda _ => true
  | .rstdaa => true
  | .getpid => true
  | .getbcr => true
  | .getdcr => true
  | .getstatus => true
  | .getmrl => true
  | .getmwl => true
  | .setmrl _ => true
  | .setmwl _ => true
  | .enec _ => true
  | .disec _ => true
  | .rstact _ => true
  | .smbusBlockRead _ _ => true
  | .setEndpointId _ => true
  | .getEndpointId => true
  | .getMctpVersionSupport => true
  | .getMessageTypeSupport => true
  | .getEndpointUuid => true
  | .identify _ => true
  | .backgroundOperationStatus _ => true
  | .getResponseMessageLimit _ => true
  | .setResponseMessageLimit _ _ => true
  | .getEventRecords _ _ => true
  | .clearEventRecords _ _ _ _ => true
  | .getEventInterruptPolicy _ => true
  | .setEventInterruptPolicy _ _ => true
  | .identifySwitchDevice _ => true
  | .getPhysicalPortState _ _ => true
  | .physicalPortControl _ port _ => okPort port
  | .sendPpbCxlioConfigRequest _ port _ _ _ => okPort port
  | .getVirtualCxlSwitchInfo _ _ => true
  | .fmBindVppb _ _ _ _ _ _ => true
  | .fmUnbindVppb _ _ _ => true
  | .generateAerEvent _ _ _ _ => true
  | .tunnelManagementCommand _ port => okPort port
  | .sendLdCxlioConfigRequest _ port => okPort port
  | .sendLdCxlioMemoryRequest _ port => okPort port
  | .getDcdInfo _ => true
  | .getHostDcRegionConfig _ => true
  | .setDcRegionConfig => true
  | .getDcRegionExtentLists _ => true
  | .fxExec _ _ _ _ _ => true
  | .barrierGsync _ => true
  | .barrierMsync _ => true
  | .resultGet _ _ _ => true
  | .tunnelKmd _ _ _ _ _ vcs _ => okVcs vcs
  | .memRead _ _ _ _ => true
  | .memWrite _ _ _ bytes => okBytes bytes
  | .progLoad _ _ _ _ _ bytes => okBytes bytes
  | .progStop _ _ => true
  | .fmRingPush _ _ _ => true
  | .fmRingPop _ _ => true
  | .bootRecordGet _ _ => true
  | .measureLogGet _ _ => true
  | .faultHistoryGet _ _ => true
  | .flashWrite _ _ _ bytes => okBytes bytes
  | .flashSectorDone => true
  | .flashRead _ _ _ => true
  | .kmdIdentify _ _ => true
  | .kmdGetEventRecords _ _ _ => true
  | .kmdClearEventRecords _ _ _ _ _ => true
  | .kmdGetEventIntPolicy _ _ => true
  | .kmdSetEventIntPolicy _ _ _ => true
  | .getTimestamp _ _ => true
  | .setTimestamp _ _ _ => true
  | .getSupportedLogs _ _ => true
  | .getLog _ _ _ => true
  | .identifyMemoryDevice _ _ => true
  | .getDcConfiguration _ _ => true
  | .getDcExtentList _ _ => true
  | .lossListGet _ _ _ _ => true
  | .kmdRingPush _ _ _ => true
  | .kmdRingPop _ _ => true
  | .kmdBootRecordGet _ _ _ => true
  | .consoleCommand _ _ bytes => okBytes bytes
  | .genIdentity => true
  | .installChain => true
  | .enrollKey => true
  | .revokeKey => true
  | .raiseSvn => true
  | .seal => true
  | .decommission => true
  | .emrCommandDone => true
  | .getVersion _ => true
  | .getCapabilities _ _ => true
  | .negotiateAlgorithms _ _ _ _ _ _ => true
  | .getDigests _ => true
  | .getCertificate _ _ _ _ => true
  | .challenge _ _ _ => true
  | .getMeasurements _ _ _ _ => true
  | .keyExchange _ _ _ => true
  | .finish _ _ _ => true
  | .keyUpdate _ _ _ => true
  | .spdmHeartbeat _ _ => true
  | .endSession _ _ => true
  | .vendorDefinedRequest _ _ _ _ _ _ _ => true
  | .tamperSupply _ => true
  | .tamperTemp _ => true
  | .tamperMesh _ => true
  | .alarmLatchClear _ => true
  | .emrChallenge => true
  | .emrToken _ => true
  | .debugAccess _ _ _ bytes => okBytes bytes
  | .extest _ => true
  | .samplePreload _ => true
  | .idcode => true
  | .extestPulse _ => true
  | .extestTrain _ => true
  | .clamp => true
  | .highz => true
  | .bypass => true
  | .tapReset => true
  | .fltForce _ _ _ => true
  | .deviceResetStart => true
  | .fltSevWrite _ _ => true
  | .fltLatchClear _ _ => true
  | .pmuTimeCredit => true
  | .bwWindowEnd _ => true
  | .pmuBwClear _ _ _ => true
  | .oasisRefresh stack => okStack stack
  | .zqLatch stack => okStack stack
  | .oasisTempPoll stack _ => okStack stack
  | .oasisEyeMonitor sub _ => okSub sub
  | .oasisLoadTick ch _ => okChannel ch
  | .oasRetrainReq sub => okSub sub
  | .retrainStep _ _ _ => true
  | .retrainRetry sub => okSub sub
  | .oasisPatrol _ err => okErr err
  | .prsntChange _ _ => true
  | .spcPresenceWaitExpire _ => true
  | .feedValid _ _ _ => true
  | .feedInvalid _ _ _ => true
  | .gateEnhanced _ _ _ => true
  | .bbmExpire _ => true
  | .preferredFeedReturn _ => true
  | .fastTrip _ _ => true
  | .shortInRamp _ _ => true
  | .breakerTimerStart _ _ => true
  | .breakerTimerStop _ _ => true
  | .breaker _ => true
  | .gateStuck _ => true
  | .fetShort _ _ => true
  | .coolExpire _ => true
  | .retriesReset _ => true
  | .ewFall _ => true
  | .spcOn _ => true
  | .spcOff _ _ => true
  | .spcClear _ _ _ => true
  | .spcEventsClear _ _ => true
  | .pwrOkRise => true
  | .pwrOkFall => true
  | .resetN => true
  | .warmResetN => true
  | .bootStepAdvance _ _ _ _ _ _ => true
  | .deviceIdleExit _ => true
  | .registerWrite _ _ => true
  | .meldPredWrite _ _ => true
  | .meldPredLoad _ => true
  | .oasisAccessDone ch _ err => okChannel ch && okErr err
  | .ioCompletion port tag _ => okPort port && okTag tag
  | .trlAlignConfigTimeout tile => okTile tile
  | .resetBallRise _ => true
  | .lifecycleWarmReset => true
  | .feedWarn _ _ => true
  | .voutBelowFeedUv _ _ => true
  | .cxlLowPowerEntry port _ _ => okPort port
  | .cxlLowPowerExit port => okPort port
  | .timeSlewEnd => true

end Sys2Proof
end

