-- ==== Sys2Proof/Tests/Slice0.lean ====
section
/-!
SUPPORT. Tests/Slice0.lean: tests of the model: ill-formed commands, small steps whose results the spec gives, and for each statement with hypotheses a state and
operands that meet them.
-/
namespace Sys2Proof.Tests
open Sys2Proof Sys2Proof.Machine Sys2Proof.Safety

/-! ### Small states -/

/-- A device that has booted. -/
def booted : State := { State.reset with pwr := { State.reset.pwr with pwrOk := true, devReady := true, step := 9, progress := 8 } }

/-- A booted device whose core 0 runs. -/
def coreS (c : Core) : State := { booted with flg := { booted.flg with cores := [(0, { c with st := .run })] } }

/-- The general registers 1, 2, ... of a core. -/
def gs (l : List Word) : SMap Word := (List.range l.length).map (fun k => (k + 1, l.getD k 0))

/-- The state s with a domain 1 that is ACTIVE, with 256 MiB of each region. -/
def withDom (s : State) : State := { s with dom := { s.dom with
  doms := sset {} s.dom.doms 1 { valid := true, st := .active, privSize := 1, scohSize := 1, sncoSize := 1 } } }

/-! The hypotheses `CoreRuns` and `FxRuns`, as checks that can be evaluated. -/

def runsB (s : State) (n : Nat) : Bool :=
  let c := coreOf s n
  decide (c.st = .run) && decide (c.busy = .none) && decide (c.ask = none) && decide (c.smp = none) && decide (s.pmu.src1.en = false)
    && (fetchFault s n c.pc).isNone

theorem runs_of {s : State} {n : Nat} (h : runsB s n = true) : CoreRuns s n := by
  simp only [runsB, Bool.and_eq_true, decide_eq_true_eq, Option.isNone_iff_eq_none] at h
  obtain ⟨⟨⟨⟨⟨a, b⟩, c⟩, d⟩, e⟩, f⟩ := h
  exact ⟨a, b, c, d, .inl e, f⟩

def fxB (s : State) (lds cap : Nat) (f : FxForm) : Bool :=
  let a := (gReg (coreOf s 0) 1).toNat
  runsB s 0 && decide (a % 8 = 0) && decide (0x100000 ≤ a) && decide (a + 8 * f.words ≤ 0x140000) && decide (0 < f.words)
    && decide ((fxEnvOf s 0 2 1 f.words lds cap).form = f.form) && decide (descBad s 0 a f.words = false)

theorem fx_of {s : State} {lds cap : Nat} {f : FxForm} (h : fxB s lds cap f = true) : FxRuns s 0 2 1 lds cap f := by
  simp only [fxB, Bool.and_eq_true, decide_eq_true_eq] at h
  obtain ⟨⟨⟨⟨⟨⟨a, b⟩, c⟩, d⟩, e⟩, g⟩, i⟩ := h
  exact ⟨runs_of a, b, c, d, e, g, i⟩

/-- The state u in which core 0 runs, with a descriptor of the form f at the first address of local data memory, which g1 holds. -/
def fxS (u : State) (f : FxForm) (slot : Nat) (ws : List Word) : State :=
  stWords 0 0x100000 (word (f.form * 2 ^ 56 + f.words * 2 ^ 48 + slot * 2 ^ 32) :: ws) (corePut 0 { st := .run, g := [(1, 0x100000)] } u)

/-- The environment of that descriptor. -/
def envS (s : State) (f : FxForm) (lds cap : Nat) : FxEnv := fxEnvOf s 0 2 1 f.words lds cap

/-- A booted device with domain 1. -/
def dom1 : State := withDom booted

/-- LANE_TILE_CFG of a tile in use: TRL or not, its mode, and the roles of its sub-ports. -/
def tileW (trl mode r0 r1 r2 r3 : Nat) : Word :=
  word (2 ^ 63 + trl * 2 ^ 62 + mode * 2 ^ 60 + r0 * 2 ^ 43 + r1 * 2 ^ 46 + r2 * 2 ^ 49 + r3 * 2 ^ 52)

/-- A device in use: port 0 a host port with its link up, VCS 0; port 4 a pool device with index 0; tile 2 a TRL port in ACTIVE; port 12 an analysis
port. Domain 1 presents its KMD instance as vPPB 3 of VCS 0, with one window of 256 MiB over its second 256 MiB. -/
def rig : State := { booted with
  lane := { booted.lane with tile := [(0, tileW 0 0 1 0 0 0), (1, tileW 0 0 2 0 0 0), (2, tileW 1 0 3 0 0 0), (3, tileW 0 0 4 0 0 0)] }
  cxp := { booted.cxp with ports := [(0, { link := 2, io := true, mem := true, cfg := 2 ^ 8 }), (4, { link := 2, io := true, mem := true }), (12, { link := 2 })] }
  trl := { booted.trl with ports := [(2, { st := 5, ready := true, peer := 1 })] }
  dom := { booted.dom with
    doms := [(0, { valid := true, st := .active }), (1, { valid := true, st := .active, privSize := 1, scohSize := 1, sncoSize := 1, kmd := true, hosts := 1, winCount := 1 })]
    vcsOf := [(0, 1)], vppb := [(3, some (.kmd 1))]
    wins := [(0, { valid := true, mode := .scoh, dom := 1, vcs := 0, hpa := 16, size := 1, da := 1 })]
    decoders := [{ vcs := 0, dom := 1, dec := 0, hpa := 16, size := 1, da := 1 }]
    devs := [(0, { bound := true, st := .active, port := 4, cap := 1024, free := [(8, 1016)] })] }
  dlr := { booted.dlr with
    map := [(1024, { kind := .pool, ext := true, tag := 1, devA := 0, pA := 0 })], near := [(0, 16)], nearTotal := 16 } }

/-! ### Well-formedness: one ill-formed term for each check, which the check refuses -/

theorem test_ill_formed_1 : ([
    .flitReceive 96 0 0 none [], .flitReceive 0 0 5 none [], .memrd 96 0 0 .a 0, .memrd 0 65536 0 .a 0,
    .memrd 0 0 4503599627370496 .a 0, .memrd 0 0 0 .a 5, .memrddata 96 0 0 0, .memrddata 0 65536 0 0,
    .memrddata 0 0 4503599627370496 0, .memrddata 0 0 0 5, .meminv 96 0 0 .a 0, .meminv 0 65536 0 .a 0,
    .meminv 0 0 4503599627370496 .a 0, .meminv 0 0 0 .a 5, .memwr 96 0 0 .a 0 false 0, .memwr 0 65536 0 .a 0 false 0,
    .memwr 0 0 4503599627370496 .a 0 false 0, .memwr 0 0 0 .a 0 false 5, .memwrptl 96 0 0 .a 0 0 false 0,
    .memwrptl 0 65536 0 .a 0 0 false 0, .memwrptl 0 0 4503599627370496 .a 0 0 false 0, .memwrptl 0 0 0 .a 0 0 false 5,
    .memclnevct 96 0 0, .memclnevct 0 65536 0, .memclnevct 0 0 4503599627370496, .memspecrd 96 0, .memspecrd 0 4503599627370496,
    .birspi 96 0, .birsps 96 0, .birspe 96 0, .biconflict 96 0, .placementTlbFill 268435456, .fillCommit 268435456,
    .fillWaitExpire 268435456, .poolMemdata 96 0 0 false, .poolMemdata 0 65536 0 false, .poolCmp 96 0, .poolCmp 0 65536,
    .poolErrorResponse 96 0, .poolErrorResponse 0 65536] : List Instr).all (fun i => !wellFormed i) = true := by decide

theorem test_ill_formed_2 : ([
    .passthroughForward 96 0 0 0 0 false, .passthroughForward 0 256 0 0 0 false, .passthroughForward 0 0 0 0 8 false,
    .pbrFlit 96 0 0 0 false false, .hdmDecoderCommit 64 0 0 0 0 0 false, .hdmDecoderCommit 0 4096 0 0 0 0 false,
    .hdmDecoderCommit 0 0 0 4503599627370496 0 0 false, .hdmDecoderCommit 0 0 0 0 0 70368744177664 false,
    .atomicopFetchadd 96 0 0 0 .w64 0, .atomicopFetchadd 0 256 0 0 .w64 0, .atomicopFetchadd 0 0 65536 0 .w64 0,
    .atomicopSwap 96 0 0 0 .w64 0, .atomicopSwap 0 256 0 0 .w64 0, .atomicopSwap 0 0 65536 0 .w64 0, .atomicopCas 96 0 0 0 .w64 0 0,
    .atomicopCas 0 256 0 0 .w64 0 0, .atomicopCas 0 0 65536 0 .w64 0 0, .meldTrackerResume 64, .meldFarTimeout 65536, .txRecord 96,
    .parkRelease 96 0, .parkRelease 0 8, .subqueueHeadFree 96, .creditAdvertise 96 0 0, .creditAdvertise 0 8 0,
    .creditReceived 96 0 0 false, .flitAck 96 0, .cxlReplayRequest 96 0 false, .linkDown 96, .hostLost 96, .poolDeviceLost 255,
    .lossWalkStep 255 0, .initiateDcAdd 4096 0 0 0, .initiateDcAdd 0 0 0 64, .addDcResponse 64 0 [], .addDcResponse 0 4096 [],
    .releaseDc 64 0 [], .releaseDc 0 4096 [], .initiateDcRelease 4096 [], .releaseDrainDone 4096] : List Instr).all (fun i => !wellFormed i) = true := by decide

theorem test_ill_formed_3 : ([
    .scrubParcelDone 255, .lineQueueGrant 4096 0, .lineQueueGrant 0 70368744177664, .trackerFreeResume 64, .holdExpire 4096 0,
    .holdExpire 0 70368744177664, .lcEvictComplete 4096 0, .lcEvictComplete 0 70368744177664, .hreqS 24 0 0 0 0, .hreqS 0 16 0 0 0,
    .hreqS 0 0 4096 0 0, .hreqS 0 0 0 1099511627776 0, .hreqS 0 0 0 0 65536, .hreqX 24 0 0 0 0, .hreqX 0 16 0 0 0, .hreqX 0 0 4096 0 0,
    .hreqX 0 0 0 1099511627776 0, .hreqX 0 0 0 0 65536, .hreqCur 24 0 0 0 0 false, .hreqCur 0 16 0 0 0 false, .hreqCur 0 0 4096 0 0 false,
    .hreqCur 0 0 0 1099511627776 0 false, .hreqCur 0 0 0 0 65536 false, .hreqWr 24 0 0 0 0 false 0 0 false,
    .hreqWr 0 16 0 0 0 false 0 0 false, .hreqWr 0 0 4096 0 0 false 0 0 false, .hreqWr 0 0 0 1099511627776 0 false 0 0 false,
    .hreqWr 0 0 0 0 65536 false 0 0 false, .hwb 24 0 0 0 0 0 none false, .hwb 0 16 0 0 0 0 none false, .hwb 0 0 4096 0 0 0 none false,
    .hwb 0 0 0 1099511627776 0 0 none false, .hwb 0 0 0 0 65536 0 none false, .hgntS 24 0 0 0 0 0, .hgntS 0 4096 0 0 0 0,
    .hgntS 0 0 1099511627776 0 0 0, .hgntS 0 0 0 65536 0 0, .hgntX 24 0 0 0 0 0, .hgntX 0 4096 0 0 0 0, .hgntX 0 0 1099511627776 0 0 0] : List Instr).all (fun i => !wellFormed i) = true := by decide

theorem test_ill_formed_4 : ([
    .hgntX 0 0 0 65536 0 0, .hcmp 24 0 0 0 0, .hcmp 0 4096 0 0 0, .hcmp 0 0 1099511627776 0 0, .hcmp 0 0 0 65536 0, .hsnpInv 24 0 0 0 0,
    .hsnpInv 0 16 0 0 0, .hsnpInv 0 0 4096 0 0, .hsnpInv 0 0 0 1099511627776 0, .hsnpInv 0 0 0 0 65536, .hsnpData 24 0 0 0 0,
    .hsnpData 0 16 0 0 0, .hsnpData 0 0 4096 0 0, .hsnpData 0 0 0 1099511627776 0, .hsnpData 0 0 0 0 65536, .hsnpCur 24 0 0 0 0,
    .hsnpCur 0 16 0 0 0, .hsnpCur 0 0 4096 0 0, .hsnpCur 0 0 0 1099511627776 0, .hsnpCur 0 0 0 0 65536, .hrspI 24 0 0 0 0 none false,
    .hrspI 0 16 0 0 0 none false, .hrspI 0 0 4096 0 0 none false, .hrspI 0 0 0 1099511627776 0 none false, .hrspI 0 0 0 0 65536 none false,
    .hrspS 24 0 0 0 0 none false, .hrspS 0 16 0 0 0 none false, .hrspS 0 0 4096 0 0 none false, .hrspS 0 0 0 1099511627776 0 none false,
    .hrspS 0 0 0 0 65536 none false, .hrspE 24 0 0 0 0 none false, .hrspE 0 16 0 0 0 none false, .hrspE 0 0 4096 0 0 none false,
    .hrspE 0 0 0 1099511627776 0 none false, .hrspE 0 0 0 0 65536 none false, .hmeld 24 0 0 0 0 0 0 0 false 0 0,
    .hmeld 0 16 0 0 0 0 0 0 false 0 0, .hmeld 0 0 4096 0 0 0 0 0 false 0 0, .hmeld 0 0 0 1099511627776 0 0 0 0 false 0 0,
    .hmeld 0 0 0 0 65536 0 0 0 false 0 0] : List Instr).all (fun i => !wellFormed i) = true := by decide

theorem test_ill_formed_5 : ([
    .hmeldRsp 24 0 0 0 0 0 0 false, .hmeldRsp 0 4096 0 0 0 0 0 false, .hmeldRsp 0 0 1099511627776 0 0 0 0 false,
    .hmeldRsp 0 0 0 65536 0 0 0 false, .heartbeat 24 0 0, .heartbeat 0 16 0, .switchLost 16,
    .messageForward 24 0 0 0 0 0 0 0 0 0 false none none, .messageForward 0 0 0 0 0 4096 0 0 0 0 false none none,
    .messageForward 0 0 0 0 0 0 65536 0 0 0 false none none, .messageForward 0 0 0 0 0 0 0 0 1099511627776 0 false none none,
    .routeFenceEnd 24, .chunkComplete 32 [] 0 0, .chunkComplete 0 [] 0 5, .moveFlip 32, .switchMaxExpire 32, .ldb 0 0 0 0 5,
    .ldh 0 0 0 0 5, .ldw 0 0 0 0 5, .ldd 0 0 0 0 5, .stb 0 0 0 0 5, .sth 0 0 0 0 5, .stw 0 0 0 0 5, .ladd 0 0 0 0 false 5,
    .land 0 0 0 0 false 5, .lor 0 0 0 0 false 5, .lxor 0 0 0 0 false 5, .lswap 0 0 0 0 false 5, .lcas 0 0 0 0 false 5, .waitEnd 64,
    .sleepWake 64, .waitSleepDeadline 64, .eret 0 0 0 0 5, .qringEnable 1024 0, .qringDisable 1024 0, .ringIdleExpire 1024, .pendclr 8192,
    .refclkLoss 24, .refclkRelock 24, .laneTrainingDone 96 0 0 false] : List Instr).all (fun i => !wellFormed i) = true := by decide

theorem test_ill_formed_6 : ([
    .laneAdaptStep 432, .eyeMeasure 432 0 0, .checkRemeasure 432 0 0, .trlEqStepEnd 432 0 0, .laneOutOfService 432 0, .lossOfSignal 432 0,
    .alignmentMarker 432 false 0 0 0 0 0, .linkUp 96 0 0 0 false false false false 0, .linkUp 0 0 0 0 false false false false 64,
    .pauseStart 96, .pauseResume 96 0 0, .pauseLimitExpire 96, .memCtoExpire 96 0, .memCtoExpire 0 65536, .ioCtoExpire 65536,
    .ideKeyRefresh 96 0, .perstAssert 96, .perstDeassert 96, .perstRelease 96, .trlFrameRx 24 false 0 0 0 0 false 0 0 0 [] false,
    .trlFrameTx 24, .replayAckTimeout 24, .spillMeterRelease 24, .paceSilence 24, .trlFrameTimeout 24, .trlDetect 24 0, .trlTrainRetry 24,
    .trainFrame 24 0 0 0 0 0 0 0 0 0 0, .resumeMaxExpire 24, .spareReq 24 0 0 0, .spareReq 0 432 0 0, .spareCheckDone 24 0,
    .spareCheckDone 0 2, .spareDone 24 0 0, .spareDone 0 432 0, .spareRefuse 24, .idleEnterExpire 24, .idleReq 24, .idleAck 24,
    .idleNak 24] : List Instr).all (fun i => !wellFormed i) = true := by decide

theorem test_ill_formed_7 : ([
    .idleExit 24, .eqReq 24 [], .eqRsp 24 [], .physicalPortControl false 96 0, .sendPpbCxlioConfigRequest false 96 0 false 0,
    .tunnelManagementCommand false 96, .sendLdCxlioConfigRequest false 96, .sendLdCxlioMemoryRequest false 96,
    .tunnelKmd false 0 0 0 0 64 [], .oasisRefresh 8, .zqLatch 8, .oasisTempPoll 8 0, .oasisEyeMonitor 64 0, .oasisLoadTick 32 0,
    .oasRetrainReq 64, .retrainRetry 64, .oasisPatrol 0 5, .oasisAccessDone 32 false 0, .oasisAccessDone 0 false 5, .ioCompletion 96 0 [],
    .ioCompletion 0 65536 [], .trlAlignConfigTimeout 24, .cxlLowPowerEntry 96 0 0, .cxlLowPowerExit 96] : List Instr).all (fun i => !wellFormed i) = true := by decide

theorem test_ill_formed_bytes (l : List Byte) (h : 4096 < l.length) :
    wellFormed (.memWrite false 0 0 l) = false
    ∧ wellFormed (.progLoad false 0 false false 0 l) = false
    ∧ wellFormed (.flashWrite false 0 false l) = false
    ∧ wellFormed (.consoleCommand 0 false l) = false
    ∧ wellFormed (.debugAccess 0 0 false l) = false := by
  simp [wellFormed, okBytes, h]

/-! ### Falgan: hypotheses that are met -/

theorem wit_core_runs : CoreRuns (coreS {}) 0 := ⟨rfl, rfl, rfl, rfl, .inl rfl, rfl⟩

/-- FalganAluResults: also the clause on a gb that is not 0. -/
theorem wit_FalganAluResults : CoreRuns (coreS {}) 0 ∧ (1 : Fin 64) ≠ 0 ∧ (coreOf (coreS {}) 0).depth < 8 :=
  ⟨wit_core_runs, by decide, by decide⟩

/-- FalganImmediateResults: the greatest shift. -/
theorem wit_FalganImmediateResults : CoreRuns (coreS {}) 0 ∧ (63 : BitVec 13).toNat < 64 := ⟨wit_core_runs, by decide⟩

/-- FalganMultiplyDivideResults: a divisor of 0, another, and the most negative number by -1. -/
theorem wit_FalganMultiplyDivideResults :
    let c : Core := { st := .run, g := gs [0, 1, 0x8000000000000000, 0xFFFFFFFFFFFFFFFF] }
    CoreRuns (coreS c) 0 ∧ gReg c 1 = 0 ∧ gReg c 2 ≠ 0 ∧ (gReg c 3).toInt = -2 ^ 63 ∧ (gReg c 4).toInt = -1 :=
  ⟨⟨rfl, rfl, rfl, rfl, .inl rfl, rfl⟩, by decide, by decide, by decide, by decide⟩

/-- FalganLoads: the last word of local data memory, a register of device control space, and a line behind the aperture. -/
theorem wit_FalganLoads :
    let s := withDom (coreS { g := gs [0x13FFF8, 0x24500000, 0x800400000000] })
    CoreRuns s 0
    ∧ (accFault s 0 0x13FFF8 8 false = none ∧ (memAddr 0 0x13FFF8).isSome ∧ rangeOf 0x13FFF8 ≠ some .aper ∧ (memAddr 0 0x13FFF8).any (badWord s) = false)
    ∧ (accFault s 0 0x24500000 8 false = none ∧ memAddr 0 0x24500000 = none ∧ rangeOf 0x24500000 ≠ some .aper)
    ∧ accFault s 0 0x800400000000 8 false = none ∧ rangeOf 0x800400000000 = some .aper :=
  ⟨⟨rfl, rfl, rfl, rfl, .inl rfl, rfl⟩, by decide, by decide, by decide⟩

/-- FalganStores: the same places. -/
theorem wit_FalganStores :
    let s := withDom (coreS {})
    CoreRuns s 0
    ∧ (accFault s 0 0x100000 1 true = none ∧ (memAddr 0 0x100000).isSome ∧ rangeOf 0x100000 ≠ some .aper ∧ (memAddr 0 0x100000).any (badWord s) = false)
    ∧ (accFault s 0 0x24500000 8 true = none ∧ memAddr 0 0x24500000 = none ∧ rangeOf 0x24500000 = some .dev)
    ∧ accFault s 0 0x80040000003F 1 true = none ∧ rangeOf 0x80040000003F = some .aper :=
  ⟨⟨rfl, rfl, rfl, rfl, .inl rfl, rfl⟩, by decide, by decide, by decide⟩

/-- FalganLocalAtomics: the first word, and the last of 32 bits. -/
theorem wit_FalganLocalAtomics :
    let s := coreS { g := gs [0x100000, 0x13FFFC] }
    CoreRuns s 0 ∧ atomFault s 0 0x100000 8 = none ∧ badWord s (coreWin 0 + 0x40000) = false
    ∧ atomFault s 0 0x13FFFC 4 = none ∧ badWord s (coreWin 0 + 0x40000 + 0x3FFFC) = false :=
  ⟨⟨rfl, rfl, rfl, rfl, .inl rfl, rfl⟩, by decide, by decide, by decide, by decide⟩

/-- FalganBranchesAndJumps: an aligned target, and one that is not. -/
theorem wit_FalganBranchesAndJumps :
    let s := coreS { g := gs [0x1FFFC, 2] }
    CoreRuns s 0 ∧ (gReg (coreOf s 0) 1).toNat % 4 = 0 ∧ (gReg (coreOf s 0) 2).toNat % 4 ≠ 0 ∧ (coreOf s 0).depth < 8 :=
  ⟨⟨rfl, rfl, rfl, rfl, .inl rfl, rfl⟩, by decide, by decide, by decide⟩

/-- FalganControlRegisters: at P1 and at P2. -/
theorem wit_FalganControlRegisters :
    CoreRuns (coreS {}) 0 ∧ (coreOf (coreS {}) 0).p2 = false ∧ CoreRuns (coreS { p2 := true }) 0 ∧ (coreOf (coreS { p2 := true }) 0).p2 = true :=
  ⟨wit_core_runs, rfl, ⟨rfl, rfl, rfl, rfl, .inl rfl, rfl⟩, rfl⟩

/-- FalganExceptionsTaken: no frame and seven, P1 and P2, a shift of 64, an unknown control register, a misaligned address. -/
theorem wit_FalganExceptionsTaken :
    let s := coreS {}
    let t := coreS { p2 := true, depth := 7, g := gs [1] }
    (CoreRuns s 0 ∧ (coreOf s 0).depth = 0) ∧ (CoreRuns t 0 ∧ (coreOf t 0).depth = 7 ∧ (coreOf t 0).p2 = true)
    ∧ 64 ≤ (64 : BitVec 13).toNat ∧ crOf (0x00A : BitVec 14).toNat = none ∧ (crOf (0x008 : BitVec 14).toNat).isSome
    ∧ (∀ k ∈ [2, 4, 8], (gReg (coreOf t 0) 1 + (0 : BitVec 15).signExtend 64).toNat % k ≠ 0) :=
  ⟨⟨wit_core_runs, rfl⟩, ⟨⟨rfl, rfl, rfl, rfl, .inl rfl, rfl⟩, rfl, rfl⟩, by decide, by decide, by decide, by decide⟩

/-- FalganTrapReturnAndInterrupt: no frame; one frame; an interrupt that may be taken. -/
theorem wit_FalganTrapReturnAndInterrupt :
    let s := coreS {}
    let t := coreS { depth := 1 }
    let u := { coreS { ie := true, depth := 7 } with icu := { IcuSt.reset with srcs := [(7264, { st := .pending, en := true, prio := 1 })] } }
    (CoreRuns s 0 ∧ (coreOf s 0).depth < 8)
    ∧ (CoreRuns t 0 ∧ 0 < (coreOf t 0).depth ∧ (coreOf t 0).p2 = false ∧ frameBad t 0 (0x103F00 + 32 * ((coreOf t 0).depth - 1)) = false)
    ∧ (CoreRuns u 0 ∧ (coreOf u 0).ie = true ∧ (coreOf u 0).depth < 8 ∧ (deliverable u 0).isSome) :=
  ⟨⟨wit_core_runs, by decide⟩, ⟨⟨rfl, rfl, rfl, rfl, .inl rfl, rfl⟩, by decide, by decide, by decide⟩,
    ⟨rfl, rfl, rfl, rfl, .inl rfl, rfl⟩, by decide, by decide, by decide⟩

/-- FalganEntryFrameHolds, FalganEntryThenReturnResumes: an entry of an exception from a core with seven frames in use. -/
theorem wit_entries :
    let s := coreS { depth := 7, ie := true }
    let u := corePut 0 (enteredCore (coreOf s 0) false) (stWords 0 (frameAddr 7) (frameWords (coreOf s 0) false 255 255 0x1000 0) s)
    (coreOf s 0).depth < 8 ∧ Enters s 0 false 255 255 0x1000 0 u ∧ CoreRuns u 0 ∧ frameBad u 0 (0x103F00 + 32 * (coreOf s 0).depth) = false :=
  ⟨by decide, ⟨_, _, rfl, fun _ => .inl rfl⟩, ⟨by decide, by decide, by decide, by decide, .inl rfl, by decide⟩, by decide⟩

/-- FalganNinthEntryFaultsCore: eight frames in use. -/
theorem wit_FalganNinthEntryFaultsCore : CoreRuns (coreS { depth := 8 }) 0 ∧ (coreOf (coreS { depth := 8 }) 0).depth = 8 :=
  ⟨⟨rfl, rfl, rfl, rfl, .inl rfl, rfl⟩, rfl⟩

/-- FalganFencesBarriersAndHalt: with a store outstanding, and with none. -/
theorem wit_FalganFencesBarriersAndHalt :
    let t := coreS { stores := [1] }
    CoreRuns (coreS {}) 0 ∧ (coreOf (coreS {}) 0).stores = [] ∧ (coreOf (coreS {}) 0).p2 = false
    ∧ CoreRuns t 0 ∧ (coreOf t 0).stores ≠ [] ∧ (coreOf t 0).p2 = false :=
  ⟨wit_core_runs, rfl, rfl, ⟨rfl, rfl, rfl, rfl, .inl rfl, rfl⟩, by decide, rfl⟩

/-- FalganCoreControl: a core in each state it distinguishes. -/
theorem wit_FalganCoreControl :
    (coreOf State.reset 0).st = .reset ∧ ((coreOf (coreS {}) 0).st = .run ∧ (coreOf (coreS {}) 0).busy = .none ∧ (coreOf (coreS {}) 0).stores = [])
    ∧ (coreOf (corePut 0 { st := .wait } booted) 0).st = .wait ∧ (coreOf (corePut 0 { st := .halted } booted) 0).st = .halted := by decide

/-- FalganWaitAndSleep: a reserved bit, a deadline reached and one to come, and the ways out of WAIT and SLEEP. -/
theorem wit_FalganWaitAndSleep :
    let s := { coreS { g := gs [2 ^ 32, 1, 2] } with time := 1 }
    let v := gReg (coreOf s 0) 1
    let waiting := fun (b : Busy) (l : List (Nat × IcuSrc)) => { coreS { busy := b } with icu := { IcuSt.reset with srcs := l } }
    CoreRuns s 0 ∧ v.toNat / 2 ^ 32 ≠ 0 ∧ waitEnds s 0 none none = false ∧ (gReg (coreOf s 0) 2).toNat ≠ 0 ∧ (gReg (coreOf s 0) 2).toNat ≤ s.time
    ∧ s.time < (gReg (coreOf s 0) 3).toNat ∧ gReg (coreOf s 0) 0 = 0 ∧ wakeSource s 0 = none
    ∧ (let t := waiting (.wait none none 0 1) [(7264, { st := .pending, en := true, prio := 1 })]
      (coreOf t 0).busy = .wait none none 0 1 ∧ (deliverable t 0).isSome ∧ watchHolds t 0 none = false)
    ∧ (let t := waiting (.wait none none 5 1) []
      (coreOf t 0).busy = .wait none none 5 1 ∧ waitEnds t 0 none none = false ∧ t.time < 5 ∧ t.pmu.cnts = [])
    ∧ (let t := waiting (.sleep 0 1) [(7264, { st := .pending, en := true, prio := 1, wake := true })]
      (coreOf t 0).busy = .sleep 0 1 ∧ (wakeSource t 0).isSome ∧ t.pwr.idle = false) :=
  ⟨⟨rfl, rfl, rfl, rfl, .inl rfl, rfl⟩, by decide, by decide, by decide, by decide, by decide, by decide, by decide, by decide, by decide, by decide⟩

/-- FalganClaimAndComplete: claims with nothing and with source 8,191 deliverable, at a bad address and at the last word; completions of the source claimed
last, of another one, and with none claimed. -/
theorem wit_FalganClaimAndComplete :
    let withSrc := fun (c : Core) (l : List (Nat × IcuSrc)) (st : List (Nat × Nat)) =>
      stackPut 0 st { coreS c with icu := { IcuSt.reset with srcs := l } }
    let s := coreS { g := gs [0x13FFF8, 0x140000] }
    let t := withSrc { g := gs [0x13FFF8] } [(8191, { st := .pending, en := true, prio := 15 })] []
    let w := withSrc { g := gs [8191, 5], runpri := 3 } [(8191, { st := .active, en := true, prio := 1 })] [(8191, 1)]
    runsB s 0 = true ∧ (coreOf s 0).p2 = false ∧ (gReg (coreOf s 0) 1).toNat = 0x13FFF8 ∧ (gReg (coreOf s 0) 2).toNat + 8 > 0x140000
    ∧ (stackIcu s 0).length < 15 ∧ deliverable s 0 = none
    ∧ runsB t 0 = true ∧ (coreOf t 0).p2 = false ∧ deliverable t 0 = some (8191, 15)
    ∧ runsB w 0 = true ∧ (stackIcu w 0).filter (fun p => stillClaimed w 0 p.1) = [(8191, 1)] ∧ (gReg (coreOf w 0) 1).toNat % 8192 = 8191
    ∧ (gReg (coreOf w 0) 2).toNat % 8192 ≠ 8191
    ∧ (let x := srcPut 8191 { srcOf w 8191 with st := .idle } w
      isStranded (corePut 0 { coreOf w 0 with runpri := 1 } (stackPut 0 [] x)) (srcOf x 8191) = false)
    ∧ (stackIcu s 0).filter (fun p => stillClaimed s 0 p.1) = [] := by decide

/-- A device whose core 0 runs with ring r as ring 1,023 and its block at the end of local data memory. -/
def ringS (c : Core) (r : Ring) : State := { coreS { c with g := gs [1023, 0x13FF80, 1024] } with ring := { rings := [(1023, r)] } }

/-- RingInstructions: a ring with room, with nothing unread, full, with an entry to read, and positions to release within and beyond RD. -/
theorem wit_RingInstructions :
    let a := ringS {} { en := true, w := 2 ^ 32 - 1, rd := 2 ^ 32 - 1, rel := 2 ^ 32 - 1 }
    let b := ringS { p2 := true } { en := true, p2en := true, w := 16, rd := 15 }
    (∀ s ∈ [a, b], runsB s 0 = true ∧ (gReg (coreOf s 0) 1).toNat = 1023 ∧ (ringOf s 1023).en = true ∧ (gReg (coreOf s 0) 2).toNat % 64 = 0
      ∧ (gReg (coreOf s 0) 2).toNat + 128 = 0x140000
      ∧ (ringOf s 1023).portal = 0)
    ∧ (coreOf a 0).p2 = false ∧ posDiff (ringOf a 1023).w (ringOf a 1023).rel ≠ ringCap (ringOf a 1023) ∧ (ringOf a 1023).rd = (ringOf a 1023).w
    ∧ posDiff (ringOf a 1023).rd (ringOf a 1023).rel < posDiff (0x13FF80 % 2 ^ 32) (ringOf a 1023).rel
    ∧ (ringOf b 1023).p2en = true ∧ (ringOf b 1023).p2core = 0 ∧ posDiff (ringOf b 1023).w (ringOf b 1023).rel = ringCap (ringOf b 1023)
    ∧ (ringOf b 1023).rd ≠ (ringOf b 1023).w ∧ (ringOf b 1023).bad.contains (ringOf b 1023).rd = false
    ∧ posDiff 15 (ringOf b 1023).rel ≤ posDiff (ringOf b 1023).rd (ringOf b 1023).rel := by decide

/-- RingInstructions, second part: a ring number that is none, a ring that the core may not use at P2, and a portal of the other side. -/
theorem wit_RingInstructions_refusals :
    let s := ringS { p2 := true } { en := true, p2en := true, p2core := 1 }
    let t := ringS {} { en := true, portal := 4 }
    runsB s 0 = true ∧ 1024 ≤ (gReg (coreOf s 0) 3).toNat ∧ (gReg (coreOf s 0) 1).toNat < 1024 ∧ (ringOf s 1023).en = true ∧ (coreOf s 0).p2 = true
    ∧ ¬ ((ringOf s 1023).p2en = true ∧ (ringOf s 1023).p2core = 0) ∧ runsB t 0 = true ∧ (ringOf t 1023).en = true ∧ (ringOf t 1023).portal = 4 := by decide

/-- RingAndInterruptRegisters: a disabled ring whose configuration passes and one that fails check 1; an enabled ring with its idle timer running; a
software source whose target is in service, and one with no core to take it. -/
theorem wit_RingAndInterruptRegisters :
    let s := ringS {} { en := true, timer := 1, idle := 5 }
    (ringOf booted 0).en = false ∧ ringCheck booted 0 {} = 0 ∧ ringCheck booted 0 { depth := 13 } ≠ 0 ∧ (ringOf s 1023).en = true
    ∧ (ringOf s 1023).timer ≠ 0 ∧ s.pmu.cnts = [] ∧ srcEdge (1024 + 1023) (srcOf s (1024 + 1023)) = true
    ∧ srcEdge 7264 (srcOf s 7264) = true
    ∧ isStranded (srcPut 7264 { srcOf s 7264 with st := .pending } s) { srcOf s 7264 with st := .pending } = false
    ∧ (let t := srcPut 7264 { srcOf booted 7264 with en := true, prio := 1 } booted
      srcEdge 7264 (srcOf t 7264) = true
      ∧ isStranded (srcPut 7264 { srcOf t 7264 with st := .pending } t) { srcOf t 7264 with st := .pending } = true ∧ t.icu.stranded.contains 7264 = false) := by
  decide

/-- BarriersRetire: a Gate barrier and a placement barrier of core 63, and one of the management path. -/
theorem wit_BarriersRetire :
    let at63 := fun (b : Busy) => corePut 63 { st := .run, busy := b } booted
    let s := { at63 (.gsync 1) with gate := { GateSt.reset with gsyncs := [63, 0] } }
    let t := { at63 (.msync 1) with dlr := { DlrSt.reset with msyncs := [63, 64] } }
    (coreOf s 63).st = .run ∧ (coreOf s 63).ask = none ∧ (coreOf s 63).smp = none ∧ s.gate.gsyncs = [63, 0] ∧ (coreOf s 63).busy = .gsync 1
    ∧ (coreOf t 63).st = .run ∧ t.dlr.msyncs = [63, 64] ∧ (coreOf t 63).busy = .msync 1
    ∧ ({ booted with dlr := { DlrSt.reset with msyncs := [64] } } : State).dlr.msyncs = [64] := by decide

/-! ### Fabric operations: hypotheses that are met -/

/-- Domain 1 with rules 5 and 6 in its list, and rule 7 staged for it. -/
def gateS : State := { dom1 with gate := { dom1.gate with
  rules := [(5, { valid := true, dom := 1, next := 6 }), (6, { valid := true, last := true, dom := 1 }), (7, { valid := true, last := true, staged := true, dom := 1 })]
  heads := [(1, { count := 2, head := 5 })] } }

/-- A GATESET descriptor for rule k of domain 1, behind a link. -/
def gatesetS (f k : Nat) (link : Option Nat) : State :=
  fxS gateS (gateForm f) 0 [word (2 ^ 45), 0, 0, word (k * 2 ^ 32 + (match link with | some l => 2 ^ 30 + l * 2 ^ 16 | none => 0)), 0]

/-- A GATECLR descriptor for rule k of domain 1. -/
def gateclrS (f k : Nat) : State := fxS gateS (gateclrForm f) 0 [word (2 ^ 46 + k * 2 ^ 32)]

/-- GateRuleOperations: WRITE; STAGE alone and behind a link; INSERT at the head and behind a link; SWAP; PIN. -/
theorem wit_GateRuleOperations_set :
      (let s := gatesetS 1 5 none
      FxRuns s 0 2 1 0 0 (gateForm 1) ∧ gateCheck (gateForm 1) true (envS s (gateForm 1) 0 0) s = none ∧ (listSlots s 1).contains 5 = true)
    ∧ (let s := gatesetS 2 16383 none
      FxRuns s 0 2 1 0 0 (gateForm 2) ∧ gateCheck (gateForm 2) true (envS s (gateForm 2) 0 0) s = none ∧ (ruleOf s 16383).valid = false
      ∧ (ruleOf s 16383).freed = false)
    ∧ (let s := gatesetS 2 8 (some 7)
      FxRuns s 0 2 1 0 0 (gateForm 2) ∧ gateCheck (gateForm 2) true (envS s (gateForm 2) 0 0) s = none
      ∧ stagedAs (envS s (gateForm 2) 0 0) (ruleOf s 7) = true ∧ (stagedSlots s (chainHead s 256 7)).length < 256)
    ∧ (let s := gatesetS 3 8 none
      FxRuns s 0 2 1 0 0 (gateForm 3) ∧ gateCheck (gateForm 3) true (envS s (gateForm 3) 0 0) s = none ∧ (headOf s 1).count < 256 ∧ pinOver s 1 3 = false)
    ∧ (let s := gatesetS 3 8 (some 5)
      FxRuns s 0 2 1 0 0 (gateForm 3) ∧ gateCheck (gateForm 3) true (envS s (gateForm 3) 0 0) s = none ∧ (listSlots s 1).contains 5 = true)
    ∧ (let s := gatesetS 4 7 none
      FxRuns s 0 2 1 0 0 (gateForm 4) ∧ gateCheck (gateForm 4) false (envS s (gateForm 4) 0 0) s = none ∧ stagedHead s 7 = true
      ∧ stagedAs (envS s (gateForm 4) 0 0) (ruleOf s 7) = true ∧ pinOver s 1 (stagedSlots s 7).length = false)
    ∧ (let s := gatesetS 5 0 none
      FxRuns s 0 2 1 0 0 (gateForm 5) ∧ gateCheck (gateForm 5) false (envS s (gateForm 5) 0 0) s = none) :=
  ⟨⟨fx_of (by decide), by decide⟩, ⟨fx_of (by decide), by decide⟩, ⟨fx_of (by decide), by decide⟩, ⟨fx_of (by decide), by decide⟩,
    ⟨fx_of (by decide), by decide⟩, ⟨fx_of (by decide), by decide⟩, fx_of (by decide), by decide⟩

/-- GateRuleOperations: UNLINK of the first and of a later rule; FREE. -/
theorem wit_GateRuleOperations_clear :
    (∀ k ∈ [5, 6], let s := gateclrS 1 k
      let e := envS s (gateclrForm 1) 0 0
      fxB s 0 0 (gateclrForm 1) = true ∧ fxCheck (gateclrForm 1) (e.das && !(e.cdom == 0)) e.cdom e s = none ∧ (listSlots s 1).contains k = true)
    ∧ (let s := gateclrS 2 7
      let e := envS s (gateclrForm 2) 0 0
      fxB s 0 0 (gateclrForm 2) = true ∧ fxCheck (gateclrForm 2) (e.das && !(e.cdom == 0)) e.cdom e s = none ∧ stagedHead s 7 = true
      ∧ (ruleOf s 7).das = bit (e.word 1) 62 ∧ (ruleOf s 7).dom = fld (e.word 1) 57 46) := by decide

/-- Word 1 of a BIND or UNBIND: domain, VCS, vPPB and the low bits. -/
def bindW (dom vcs vppb low : Nat) : Word := word (dom * 2 ^ 46 + vcs * 2 ^ 40 + vppb * 2 ^ 32 + low)

/-- DomainOperations: CREATE of a free domain and of domain 0; QUIESCE and RESUME of a VCS and of all; CONSTRAINT; WALL with nothing in the way and with a
dirty line of domain 2 there; RETIRE. -/
theorem wit_DomainOperations :
      (let s := fxS rig fBindCreate 0 [bindW 2 0 0 0, word (3 * 2 ^ 42), word (2 ^ 38 + 2 ^ 19 + 1)]
      let e := envS s fBindCreate 0 0
      fxB s 0 0 fBindCreate = true ∧ fxCheck fBindCreate false e.dom e s = none ∧ (domOf s 2).st = .free ∧ e.dom = 2
      ∧ ∀ x ∈ s.dom.doms, x.1 ≠ e.dom → x.2.valid = true → x.2.mapBase + spanOf x.2 ≤ 3)
    ∧ (let s := fxS rig fBindCreate 0 [0, word (3 * 2 ^ 42 + 2 ^ 33), word (2 ^ 18 - 3)]
      let e := envS s fBindCreate 0 0
      fxB s 0 0 fBindCreate = true ∧ fxCheck fBindCreate false e.dom e s = none ∧ e.dom = 0 ∧ (domOf s 0).kmd = false ∧ bit (e.word 2) 33 = true
      ∧ fld (e.word 2) 59 42 + fld (e.word 3) 18 0 = 2 ^ 18)
    ∧ (let s := fxS rig fBindQuiesce 0 [bindW 1 63 0 0]
      let e := envS s fBindQuiesce 0 0
      fxB s 0 0 fBindQuiesce = true ∧ fxCheck fBindQuiesce false e.dom e s = none ∧ bit (e.word 1) 6 = false ∧ (domOf s e.dom).st = .active
      ∧ (domOf s e.dom).quiesced.contains e.vcs = false)
    ∧ (let s := fxS rig fBindQuiesce 0 [bindW 1 0 0 64]
      let e := envS s fBindQuiesce 0 0
      fxB s 0 0 fBindQuiesce = true ∧ fxCheck fBindQuiesce false e.dom e s = none ∧ bit (e.word 1) 6 = true ∧ e.vcs = 0 ∧ (domOf s e.dom).st = .active)
    ∧ (let s := fxS (domPut 1 { domOf rig 1 with quiesced := [63] } rig) fBindResume 0 [bindW 1 63 0 0]
      let e := envS s fBindResume 0 0
      fxB s 0 0 fBindResume = true ∧ fxCheck fBindResume false e.dom e s = none ∧ bit (e.word 1) 6 = false ∧ (domOf s e.dom).quiesced.contains e.vcs = true)
    ∧ (let s := fxS (domPut 1 { domOf rig 1 with st := .quiescing } rig) fBindResume 0 [bindW 1 0 0 64]
      let e := envS s fBindResume 0 0
      fxB s 0 0 fBindResume = true ∧ fxCheck fBindResume false e.dom e s = none ∧ bit (e.word 1) 6 = true ∧ (domOf s e.dom).st = .quiescing)
    ∧ (let s := fxS rig fBindConstraint 0 [bindW 1 0 0 0, word (8 * 2 ^ 60 + 15 * 2 ^ 56 + 1), 0, 0, 0, 0]
      let e := envS s fBindConstraint 0 0
      fxB s 0 0 fBindConstraint = true ∧ fxCheck fBindConstraint false e.dom e s = none ∧ extParcels s e.dom ≤ fld (e.word 2) 27 0)
    ∧ (let s := fxS rig fBindWall 0 [bindW 1 0 0 0, 0xFFF]
      let e := envS s fBindWall 0 0
      fxB s 0 0 fBindWall = true ∧ fxCheck fBindWall false e.dom e s = none ∧ 0xFFF &&& walledWays s e.dom = 0
      ∧ popCount 16 (0xFFF ||| walledWays s e.dom) ≤ 12 ∧ wallPending (wallEvict e.dom (domPut e.dom { domOf s e.dom with wall := 0xFFF } s)) e.dom = false)
    ∧ (let s := fxS { rig with coh := { rig.coh with lc := [(keyOf 2 0, { way := 0, dirty := true, data := 0, poison := false, used := 0, wb := false })] } } fBindWall 0 [bindW 1 0 0 0, 1]
      let e := envS s fBindWall 0 0
      fxB s 0 0 fBindWall = true ∧ fxCheck fBindWall false e.dom e s = none ∧ wallPending (wallEvict e.dom (domPut e.dom { domOf s e.dom with wall := 1 } s)) e.dom = true)
    ∧ (let s := fxS (domPut 1 { domOf rig 1 with hosts := 0 } rig) fBindRetire 31 [bindW 1 0 0 0]
      let e := envS s fBindRetire 0 0
      fxB s 0 0 fBindRetire = true ∧ fxCheck fBindRetire false e.dom e s = none ∧ (domOf s e.dom).st ≠ .free ∧ e.dom ≠ 0 ∧ (domOf s e.dom).hosts = 0) := by
  decide

/-- TargetAndWindowOperations: VPPB of a KMD instance and of a pass-through port; POOLDEV; EVACUATE; UNBIND of each. -/
theorem wit_TargetOperations :
      (let s := fxS (domPut 2 { valid := true, st := .active, kmd := true } rig) fBindVppb 0 [bindW 2 0 255 0]
      let e := envS s fBindVppb 0 0
      fxB s 0 0 fBindVppb = true ∧ fxCheck fBindVppb false e.dom e s = none ∧ portOfVcs? s e.vcs = some 0
      ∧ sget none s.dom.vppb (e.vcs * 256 + e.vppb) = none ∧ vppbsBound s < 1024 ∧ (domOf s 2).kmd = true ∧ (domOf s 2).hosts < 64
      ∧ (presenters s e.dom).contains e.vcs = false)
    ∧ (let s := fxS { rig with dom := { rig.dom with devs := [] } } fBindVppb 0 [bindW 0 0 4 (2 ^ 10 + 4 * 2 ^ 17)]
      let e := envS s fBindVppb 0 0
      fxB s 0 0 fBindVppb = true ∧ fxCheck fBindVppb false e.dom e s = none ∧ (domOf s e.dom).st ≠ .free ∧ fld (e.word 1) 11 10 = 1
      ∧ portRole s 4 = 2 ∧ placeTaken s (4, none) = false ∧ exported s 4 = false)
    ∧ (let s := fxS { rig with dom := { rig.dom with devs := [] } } fBindPooldev 0 [bindW 0 0 0 (4 * 2 ^ 17)]
      let e := envS s fBindPooldev 0 1024
      fxB s 0 1024 fBindPooldev = true ∧ fxCheck fBindPooldev false 0 e s = none ∧ portRole s 4 = 2 ∧ linkUp s 4 = true ∧ (cxpOf s 4).mem = true
      ∧ (cxpOf s 4).cache = false ∧ placeTaken s (4, none) = false ∧ exported s 4 = false ∧ freeDev s = some 0)
    ∧ (let s := fxS { rig with dlr := { rig.dlr with map := [] } } fBindEvacuate 0 [bindW 0 0 0 0]
      let e := envS s fBindEvacuate 0 0
      fxB s 0 0 fBindEvacuate = true ∧ fxCheck fBindEvacuate false 0 e s = none ∧ (devOf s 0).st = .active ∧ evLacks s 0 = false)
    ∧ (let s := fxS { rig with dom := { rig.dom with wins := [] } } fUnbindVppb 0 [bindW 0 0 3 0]
      let e := envS s fUnbindVppb 0 0
      fxB s 0 0 fUnbindVppb = true ∧ fxCheck fUnbindVppb false 0 e s = none ∧ sget none s.dom.vppb (e.vcs * 256 + e.vppb) = some (.kmd 1)
      ∧ ∀ w ∈ s.dom.wins, w.2.valid = true → w.2.vcs = e.vcs → w.2.dom ≠ 1)
    ∧ (let s := fxS { rig with dom := { rig.dom with vppb := [(4, some (.port 4))] } } fUnbindVppb 0 [bindW 0 0 4 0]
      let e := envS s fUnbindVppb 0 0
      fxB s 0 0 fUnbindVppb = true ∧ fxCheck fUnbindVppb false 0 e s = none ∧ sget none s.dom.vppb (e.vcs * 256 + e.vppb) = some (.port 4))
    ∧ (let s := fxS (devPut 254 { bound := true } rig) fUnbindPooldev 0 [bindW 0 0 0 (254 * 2 ^ 24)]
      let e := envS s fUnbindPooldev 0 0
      fxB s 0 0 fUnbindPooldev = true ∧ fxCheck fUnbindPooldev false 0 e s = none ∧ (devOf s 254).bound = true ∧ (devOf s 254).st = .absent) := by
  decide

/-- A device whose decoder 0 of domain 1 in VCS 0 has room for one more window. -/
def winS : State := { rig with dom := { rig.dom with wins := [], decoders := [{ vcs := 0, dom := 1, dec := 0, hpa := 16, size := 3, da := 0 }] } }

/-- TargetAndWindowOperations: WINSET, WINCLR, the end of a drain, and a decoder commit that passes and one that does not. -/
theorem wit_WindowOperations :
      (let s := fxS winS fWinset 0 [word (2 ^ 46 + 16), word (2 ^ 37), 0]
      let e := envS s fWinset 0 0
      let w := winImage (e.word 1) (e.word 2)
      fxB s 0 0 fWinset = true ∧ fxCheck fWinset (winInvalid s (fld (e.word 1) 62 61) w) w.dom e s = none ∧ (domOf s w.dom).st = .active
      ∧ (∃ c ∈ s.dom.decoders, c.vcs = w.vcs ∧ c.dom = w.dom ∧ c.dec = w.dec ∧ c.hpa ≤ w.hpa ∧ w.hpa + w.size ≤ c.hpa + c.size)
      ∧ s.dom.wins = [] ∧ (sget ({} : Window) s.dom.wins 0).valid = false)
    ∧ (let s := fxS rig fWinclr 0 [0]
      let e := envS s fWinclr 0 0
      fxB s 0 0 fWinclr = true ∧ fxCheck fWinclr (!(bit (e.word 1) 24) && !(fld (e.word 1) 23 16 == 0)) 0 e s = none
      ∧ (sget ({} : Window) s.dom.wins 0).valid = true ∧ (sget ({} : Window) s.dom.wins 0).slot = none)
    ∧ (let s := { rig with dom := { rig.dom with wins := [(0, { valid := true, drain := true, dom := 1, slot := some 5 })] } }
      (sget ({} : Window) s.dom.wins 0).valid = true ∧ (sget ({} : Window) s.dom.wins 0).drain = true ∧ (sget ({} : Window) s.dom.wins 0).slot = some 5 ∧ ∀ r ∈ s.reqs, r.win ≠ some 0)
    ∧ (let d := domOf winS 1
      portOfVcs? winS 0 = some 0 ∧ (presenters winS 1).contains 0 = true ∧ regionOf d 0 = some .priv ∧ regionOf d 1 = some .scoh
      ∧ winInvalid winS Mode.priv.code { valid := false, mode := .priv, dom := 1, vcs := 0, dec := 7, hpa := 19, size := 1, da := 0 } = false) := by
  decide

/-- Word 1 of a placement descriptor: domain, GEN where it is expected, parcel, and the high bits. -/
def pmW (dom : Nat) (gen : Option Nat) (parcel high : Nat) : Word :=
  word ((match gen with | some g => 2 ^ 62 + g * 2 ^ 32 | none => 0) + dom * 2 ^ 48 + parcel + high * 2 ^ 60)

/-- The rig with the placement map m in place of its own. -/
def mapS (m : SMap MapEntry) : State := { rig with dlr := { rig.dlr with map := m, con := [(1, { quota := 1 })] } }

/-- PlacementOperations, the range forms: EXTEND of the last two parcels; one that fits and one that does not; a generation that differs; a move that runs;
RELEASE and PIN. -/
theorem wit_PlacementOperations_ranges :
    let chk := fun (s : State) (f : FxForm) => fxB s 0 0 f = true ∧ pmapCheck f (envS s f 0 0) s = none
      ∧ (envS s f 0 0).parcel + (envS s f 0 0).count ≤ spanOf (domOf s (envS s f 0 0).pdom) * 1024;
      (let s := fxS rig fExtend 0 [pmW 1 none 3070 0, 2]
      chk s fExtend ∧ (domOf s 1).st = .active ∧ (mapOf s (mapIdx s 1 3070)).ext = false ∧ (mapOf s (mapIdx s 1 3071)).ext = false
      ∧ s.dlr.promises + promiseOf s 1 * 2 ≤ poolFree s)
    ∧ (let s := fxS rig fExtend 0 [pmW 1 none 1023 0, 2]
      chk s fExtend ∧ (mapOf s (mapIdx s 1 1023)).ext = false ∧ (mapOf s (mapIdx s 1 1023)).ms = .none ∧ (mapOf s (mapIdx s 1 1024)).ext = true
      ∧ s.dlr.promises + promiseOf s 1 * 2 ≤ poolFree s)
    ∧ (let s := fxS rig fRelease 0 [pmW 1 (some 65535) 1024 0, 1]
      chk s fRelease ∧ (domOf s 1).st ≠ .free ∧ (mapOf s (mapIdx s 1 1024)).gen ≠ 65535)
    ∧ (let s := fxS (mapS [(1024, { kind := .pool, ext := true, tag := 1, ms := .copying })]) fRelease 0 [pmW 1 none 1024 0, 1]
      chk s fRelease ∧ (domOf s 1).st ≠ .free ∧ (mapOf s (mapIdx s 1 1024)).tag = 1 ∧ (mapOf s (mapIdx s 1 1024)).ms ≠ .none
      ∧ (envS s fRelease 0 0).force = false)
    ∧ (let s := fxS rig fPin 0 [pmW 1 none 1024 2, 1]
      chk s fPin ∧ (domOf s 1).st ≠ .free ∧ (domOf s 1).st ≠ .retiring ∧ (mapOf s (mapIdx s 1 1024)).tag = 1 ∧ (mapOf s (mapIdx s 1 1024)).ext = true) := by
  decide

/-- PlacementOperations: PMAPGET; MOVE START to the near tier and to the rank, at the GEN that the entry has; MOVE CANCEL of a queued and of a running move. -/
theorem wit_PlacementOperations_moves :
    let chk := fun (s : State) (f : FxForm) (dom : Nat) => fxB s 0 0 f = true ∧ fxCheck f false dom (envS s f 0 0) s = none;
      (let s := fxS rig fEntry 0 [pmW 1 none 3071 0, 0, 0]
      chk s fEntry 1 ∧ (domOf s 1).st ≠ .free ∧ (envS s fEntry 0 0).pdom = 1 ∧ (envS s fEntry 0 0).parcel < spanOf (domOf s 1) * 1024)
    ∧ (let s := fxS rig fLegs 0 [pmW 1 none 0 0, 0]
      chk s fLegs 1 ∧ (devOf s (fld ((envS s fLegs 0 0).word 1) 7 0)).bound = true)
    ∧ (let s := fxS (mapS rig.dlr.map) fStart 31 [pmW 1 (some 0) 1024 0, 0]
      let e := envS s fStart 0 0
      fxB s 0 0 fStart = true ∧ fxCheck fStart (genUnused e) e.pdom e s = none ∧ (domOf s 1).st = .active ∧ e.pdom = 1 ∧ mapIdx s e.pdom e.parcel = 1024
      ∧ mapOf s 1024 = { kind := .pool, ext := true, tag := 1, devA := 0, pA := 0 } ∧ s.dlr.moves = [] ∧ (conOf s 1).quota = 1
      ∧ moveTarget (e.word 2) = some .oasis
      ∧ ∀ tg ∈ [Target.oasis], moveMisfit (mapOf s 1024) tg = false ∧ moveForbidden s (conOf s 1) tg = false ∧ (moveDevs s 1 tg).isSome = true)
    ∧ (moveMisfit (mapOf rig 1024) (.tier 0) = false ∧ moveForbidden rig {} (.tier 0) = false ∧ (moveDevs rig 1 (.tier 0)).isSome = true)
    ∧ (let s := fxS { rig with dlr := { rig.dlr with moves := [{ dom := 1, idx := 1024, tgt := .oasis, high := false, gen := 0, slot := 31 }] } } fCancel 0 [pmW 1 none 1024 0]
      chk s fCancel 1 ∧ (s.dlr.moves.find? (fun q => q.idx == mapIdx s (envS s fCancel 0 0).pdom (envS s fCancel 0 0).parcel)).isSome = true
      ∧ (envS s fCancel 0 0).p2 = false)
    ∧ (let s := fxS { rig with dlr := { rig.dlr with cars := [(7, { st := .copying, idx := 1024 })] } } fCancel 0 [pmW 1 none 1024 0]
      chk s fCancel 1 ∧ s.dlr.moves = [] ∧ (carOn s (mapIdx s (envS s fCancel 0 0).pdom (envS s fCancel 0 0).parcel)).isSome = true) := by
  decide

/-- PlacementOperations: MOVESTAT of a move that waits and of one that has ended, with and without an acknowledgement; HEAT with the parcel in the heat
cache and outside it. -/
theorem wit_PlacementOperations_stat :
    let slotS := fun (st : Nat) (ack : Nat) => fxS (slotPut 31 { st := st, op := 0x12 } rig) fMovestat 31 [word ack, 0, 0, 0]
    (∀ s ∈ [slotS 1 0, slotS 2 0, slotS 2 1], fxB s 0 0 fMovestat = true ∧ fxCheck fMovestat false 0 (envS s fMovestat 0 0) s = none
      ∧ (slotOf s (envS s fMovestat 0 0).slot).op = 0x12)
    ∧ (slotOf (slotS 1 0) 31).st = 1 ∧ (slotOf (slotS 2 0) 31).st = 2 ∧ bit ((envS (slotS 2 0) fMovestat 0 0).word 1) 0 = false
    ∧ bit ((envS (slotS 2 1) fMovestat 0 0).word 1) 0 = true
    ∧ (∀ u ∈ [rig, { rig with dlr := { rig.dlr with hcache := [(3071, { count := 1, wmix := 0, rd := 1, wr := 0, used := 0 })] } }],
      let s := fxS u fHeatRead 0 [pmW 1 none 3071 0, 0]
      let t := fxS u fHeatSet 0 [pmW 1 none 3071 0, 0xFFFF]
      fxB s 0 0 fHeatRead = true ∧ fxCheck fHeatRead false 1 (envS s fHeatRead 0 0) s = none ∧ (envS s fHeatRead 0 0).pdom = 1
      ∧ (envS s fHeatRead 0 0).parcel < spanOf (domOf s 1) * 1024
      ∧ fxB t 0 0 fHeatSet = true ∧ fxCheck fHeatSet false 1 (envS t fHeatSet 0 0) t = none ∧ (envS t fHeatSet 0 0).parcel < spanOf (domOf t 1) * 1024)
    ∧ (sfind? rig.dlr.hcache (mapIdx rig 1 3071)).isSome = false
    ∧ mapIdx rig 1 3071 = 3071 := by
  decide

/-- The rig with one queued move of parcel 1,024 to the near tier. -/
def moveS (m : MapEntry) (g : Nat) (tgt : Target) : State :=
  { mapS [(1024, m)] with dlr := { (mapS [(1024, m)]).dlr with moves := [{ dom := 1, idx := 1024, tgt := tgt, high := true, gen := g, slot := 31 }] } }

/-- The rig with Caravan 31, which moves parcel 1,024. -/
def carS (st : MState) (cur : Nat) (fl : Bool) : State :=
  carPut 31 { st := st, cursor := cur, flight := fl, dom := 1, idx := 1024, slot := 31, tgt := some .oasis, dest := [(255, 16)] }
    (slotPut 31 { st := 1, op := 0x12 } (mapS [(1024, { kind := .pool, ext := true, tag := 1, ms := st, car := 31 })]))

/-- MovesRun: each end of a queued move and its start; a chunk in the middle, the last one, and one with an error; the flip with and without an access that is
still under way; SWITCH_MAX. -/
theorem wit_MovesRun :
    let q := fun (s : State) => (s.dlr.moves.find? (fun q => q.high)).orElse (fun _ => s.dlr.moves.head?)
    let lost := moveS { kind := .poisoned, ext := true, tag := 1 } 0 .oasis
    let pool : MapEntry := { kind := .pool, ext := true, tag := 1 }
    (∀ s ∈ [lost, moveS pool 1 .oasis, domPut 1 { domOf rig 1 with st := .quiescing } (moveS pool 0 .oasis), moveS pool 0 (.dev 5), moveS pool 0 .oasis],
      (q s).isSome = true ∧ pickCaravan s (mapOf s 1024) = some 0)
    ∧ (mapOf lost 1024).kind = .poisoned ∧ (mapOf (moveS pool 1 .oasis) 1024).kind = .pool ∧ locsOf pool = [(0, 0)] ∧ devLost rig 0 = false
    ∧ moveDevs (moveS pool 0 (.dev 5)) 1 (.dev 5) = none ∧ moveDevs (moveS pool 0 .oasis) 1 .oasis = some [255]
    ∧ (takeAll [255] (moveS pool 0 .oasis)).isSome = true
    ∧ (let full := { moveS pool 0 .oasis with dlr := { (moveS pool 0 .oasis).dlr with cars := (List.range 32).map (fun k => (k, { st := .copying })) } }
      pickCaravan full (mapOf full 1024) = none)
    ∧ (carOf (carS .copying 0 true) 31).st = .copying ∧ (carOf (carS .copying 0 true) 31).flight = true
    ∧ (carOf (carS .copying 4064 true) 31).cursor + 16 < 4096 ∧ 4096 ≤ (carOf (carS .copying 4080 true) 31).cursor + 16
    ∧ (let s := carPut 31 { carOf (carS .copying 0 true) 31 with dest := [(0, 9)] } (moveS { pool with kind := .oasis } 0 (.dev 0))
      (carOf s 31).dest = [(0, 9)] ∧ (carOf s 31).st = .copying)
    ∧ (let s := carS .switching 4096 false
      (carOf s 31).st = .switching ∧ unsynced s (carOf s 31) = [] ∧ (carOf s 31).drain = [] ∧ s.reqs = [] ∧ (slotOf s (carOf s 31).slot).st = 1)
    ∧ (let s := { carS .switching 4096 false with reqs := [{ mkReq 1 (.wback 1) .wr 1 (1024 * 0x40000) .scoh with phase := .pool }] }
      (carOf s 31).st = .switching ∧ ∃ r ∈ s.reqs, r.who = .wback 1 ∧ idxOf s r.dom r.da = 1024) := by
  decide

/-- FillsAndHeat: a TLB miss under way; a fill that takes a parcel, one that waits with nothing free, and one that stalls; an epoch; a sweep whose last parcel
is the last of the map; a parcel that reports. -/
theorem wit_FillsAndHeat :
    let f : FillW := { idx := 0, dom := 1, stall := true, since := 0 }
    let s : State := { rig with dlr := { rig.dlr with misses := [5], fills := [f], sweep := 2 ^ 28 } }
    let cfg : Word := word (2 ^ 63 + 2 ^ 62 + 2 * 2 ^ 17)
    5 ∈ s.dlr.misses ∧ s.dlr.fills.find? (fun f => f.idx == 0) = some f ∧ s.dlr.fills.find? (fun f => f.idx == 0 && f.stall) = some f
    ∧ fillChoice s 1 = some [0] ∧ (takeAll [0] s).isSome = true
    ∧ fillChoice (devPut 0 { devOf s 0 with free := [] } s) 1 = none
    ∧ regFld { s with regs := sset 0 s.regs aDlrHeatCfg cfg } aDlrHeatCfg 63 63 ≠ 0 ∧ rig.dlr.sweep = 0 ∧ s.dlr.sweep ≠ 0
    ∧ min (s.dlr.sweep - 1 + 1) (2 ^ 28) = 2 ^ 28 := by
  decide

/-- Word 1 of a line reference to DA a of domain d. -/
def refW (d a : Nat) : Word := word (2 ^ 63 + d * 2 ^ 46 + a)

/-- The last line of Falgan shared memory. -/
def shmW : Word := 0x10FFFFC0

/-- The rig whose list for domain 1 refuses P1 everything. -/
def denyS : State := { rig with gate := { rig.gate with
  rules := [(5, { valid := true, last := true, dom := 1, start := 0, limit := 2 ^ 46 - 64 })], heads := [(1, { count := 1, head := 5 })] } }

set_option maxRecDepth 10000 in
/-- LineOperations: SFQUERY and LINEFLUSH of a line of shared memory, of a line inside and of one outside a SHARED_COHERENT window; a line that the Gate
refuses; MELD on shared memory, on a line of an ACTIVE and of a QUIESCING domain. -/
theorem wit_LineOperations :
    let q := fun (u : State) (w : Word) => fxS u fSfquery 0 [w, 0, 0]
    let l := fun (u : State) (w : Word) => fxS u fLineflush 31 [w, 1]
    let m := fun (u : State) (w : Word) => fxS u fMeld 0 [w, word (2 ^ 56), 5, 0, 0, 0, 0, 0]
    (∀ s ∈ [q rig shmW, q rig (refW 1 (2 ^ 29 - 64)), q rig (refW 1 (2 ^ 28 - 64))],
        let e := envS s fSfquery 0 0
        fxB s 0 0 fSfquery = true ∧ fxCheck (lineForm fSfquery s e) (lineBad s e) (refDom (lineRef s e)) e s = none)
    ∧ (∀ s ∈ [l rig shmW, l rig (refW 1 (2 ^ 29 - 64)), l rig (refW 1 (2 ^ 28 - 64)), l denyS (refW 1 0)],
        let e := envS s fLineflush 0 0
        fxB s 0 0 fLineflush = true ∧ fxCheck (lineForm fLineflush s e) (lineBad s e) (refDom (lineRef s e)) e s = none)
    ∧ lineRef rig (envS (q rig shmW) fSfquery 0 0) = .shm 0x10FFFFC0 ∧ lineRef rig (envS (q rig (refW 1 (2 ^ 29 - 64))) fSfquery 0 0) = .da 1 (2 ^ 29 - 64)
    ∧ scohWindow rig 1 (2 ^ 29 - 64) = true ∧ scohWindow rig 1 (2 ^ 28 - 64) = false
    ∧ refDeny rig (envS (l rig (refW 1 0)) fLineflush 0 0) (.da 1 (2 ^ 29 - 64)) [.w] = none
    ∧ refDeny denyS (envS (l denyS (refW 1 0)) fLineflush 0 0) (.da 1 0) [.w] = some (.deny 5)
    ∧ (∀ s ∈ [m rig shmW, m rig (refW 1 8), m (domPut 1 { domOf rig 1 with st := .quiescing } rig) (refW 1 8)],
        let e := envS s fMeld 0 0
        fxB s 0 0 fMeld = true ∧ (meldArgs e).isSome = true ∧ (meldArgs e).map (fun x => x.2.1.bytes) = some 8
        ∧ fxCheck (lineForm fMeld s e) (lineRsv e || !(refAddr (lineRef s e) % 8 == 0)) (refDom (lineRef s e)) e s = none
        ∧ refDeny s e (lineRef s e) [.r, .w] = none)
    ∧ (∀ i < 8, badWord (m rig shmW) (0x10FFFFC0 + i) = false) := by
  decide

/-- LineOperations: a flush that the home of a line on another switch completes, and a MELD that waits for its request. -/
theorem wit_LineOperations_answers :
    let r := { mkReq 7 (.flush 31) .flushInv 1 0 .scoh with phase := .remoteWait }
    let c : Core := { st := .run, busy := .meld 7 2 0x100000 }
    ({ rig with reqs := [r] } : State).reqs.find? (fun r => decide (r.who = .flush 31) && decide (r.phase = .remoteWait)) = some r
    ∧ (coreOf (corePut 0 c rig) 0).st = .run ∧ (coreOf (corePut 0 c rig) 0).busy = .meld 7 2 0x100000 ∧ (coreOf (corePut 0 c rig) 0).ask = none
    ∧ (coreOf (corePut 0 c rig) 0).smp = none :=
  ⟨rfl, by decide, by decide, by decide, by decide⟩

/-- Word 2 of MIRROR SET: a port session of both directions from a port to port 12. -/
def mirW (src dest : Nat) : Word := word (2 ^ 63 + 3 * 2 ^ 60 + src * 2 ^ 48 + dest * 2 ^ 34 + 2)

/-- TrafficOperations: MIRROR and QOSSET, each of its outcomes. -/
theorem wit_TrafficOperations_settings :
    let chk := fun (s : State) (f : FxForm) => fxB s 0 0 f = true ∧ fxCheck f false 0 (envS s f 0 0) s = none
    let set := fun (u : State) (dest : Nat) => fxS u fMirrorSet 0 [63, mirW 0 dest, 0, 0]
    (∀ s ∈ [set rig 12, set rig 4, set (mirrorPut 63 { en := true } rig) 12], chk s fMirrorSet ∧ mirrorBad (envS s fMirrorSet 0 0) = false)
    ∧ mirrorPorts (envS (set rig 12) fMirrorSet 0 0) rig = true ∧ mirrorPorts (envS (set rig 4) fMirrorSet 0 0) rig = false
    ∧ chk (fxS rig fMirrorClear 0 [63]) fMirrorClear
    ∧ (∀ q ∈ [1, 4096], chk (fxS rig fQosProfile 0 [word (255 * 2 ^ 40), word q]) fQosProfile)
    ∧ (let s := fxS rig fQosDomain 0 [word (4095 * 2 ^ 48), 255]
      fxB s 0 0 fQosDomain = true ∧ fxCheck fQosDomain false 4095 (envS s fQosDomain 0 0) s = none ∧ fld ((envS s fQosDomain 0 0).word 1) 59 48 = 4095)
    ∧ (∀ p ∈ [4, 5], chk (fxS rig fQosPortq 0 [word (p * 2 ^ 32), word (4096 * 2 ^ 48 + 2 ^ 32 + 2 ^ 16 + 1), 3]) fQosPortq)
    ∧ subPortExists rig 4 = true ∧ subPortExists rig 5 = false
    ∧ chk (fxS rig fQosAlpha 0 [word (7 * 2 ^ 24), 9]) fQosAlpha
    ∧ (∀ q ∈ [32, 4096], chk (fxS rig fQosReserve 0 [word (4 * 2 ^ 32 + 6 * 2 ^ 24), word q]) fQosReserve)
    ∧ isTrlPort rig 4 = false ∧ acctKey 4 6 ≠ 2000
    ∧ (let low : State := { rig with erg := { rig.erg with shared := 65536 } }
      (acctOf low (acctKey 4 6)).res < 4096 ∧ low.erg.shared + (acctOf low (acctKey 4 6)).res < 65536 + 4096
      ∧ 65536 + 4096 ≤ rig.erg.shared + (acctOf rig (acctKey 4 6)).res) := by
  decide

/-- TrafficOperations: PORTCTL, each of its outcomes: port 4 a CXL port, port 8 a TRL port, port 5 none. -/
theorem wit_TrafficOperations_ports :
    let chk := fun (s : State) (f : FxForm) => fxB s 0 0 f = true ∧ fxCheck f false 0 (envS s f 0 0) s = none
    (∀ f ∈ [fPortDisable, fPortEnable], ∀ p ∈ [4, 5, 8], chk (fxS rig f 0 [word p]) f ∧ (envS (fxS rig f 0 [word p]) f 0 0).cport = p)
    ∧ portOff rig 4 = false ∧ portOff (cxpPut 4 { cxpOf rig 4 with off := true } rig) 4 = true
    ∧ (∀ u ∈ [rig, cxpPut 4 { cxpOf rig 4 with link := 4 } rig, cxpPut 4 { cxpOf rig 4 with slot := some 1 } rig],
      chk (fxS u fPortRetrain 31 [4]) fPortRetrain ∧ portOff (fxS u fPortRetrain 31 [4]) 4 = false)
    ∧ subPortExists rig 4 = true ∧ isTrlPort rig 4 = false ∧ isTrlPort rig 8 = true ∧ retrainWaits rig 4 = false
    ∧ retrainWaits (cxpPut 4 { cxpOf rig 4 with slot := some 1 } rig) 4 = true
    ∧ (let s := fxS rig fPortPace 0 [8, word (stopLimit rig 2)]
      chk s fPortPace ∧ subPortExists s 8 = true ∧ isTrlPort s 8 = true ∧ fld ((envS s fPortPace 0 0).word 2) 14 0 = stopLimit s 2)
    ∧ (let s := fxS rig fPortPace 0 [8, word (stopLimit rig 2 + 1)]
      chk s fPortPace ∧ stopLimit s 2 < fld ((envS s fPortPace 0 0).word 2) 14 0) := by
  decide

set_option maxRecDepth 10000 in
/-- MonitorAndResultOperations: CNTCFG of the last counter; CNTREAD of eight counters at P1, at P2 with none in scope; SAMPLECFG; RESULTPUT on a slot in each
state, with a code of R284 and another one. -/
theorem wit_MonitorAndResultOperations :
    let chk := fun (s : State) (f : FxForm) => fxB s 0 0 f = true ∧ fxCheck f false 0 (envS s f 0 0) s = none
    let p2 := fun (s : State) => corePut 0 { coreOf s 0 with p2 := true } s;
      (let s := fxS rig fCntcfg 0 [3071, word (2 ^ 63 + 0x8001 * 2 ^ 32), word (2 ^ 48 - 1)]
      chk s fCntcfg ∧ fld ((envS s fCntcfg 0 0).word 1) 11 0 = 3071 ∧ cntBad 3071 ((envS s fCntcfg 0 0).word 2) = false)
    ∧ (∀ s ∈ [fxS rig fCntread 0 [word (8 * 2 ^ 16 + 3064), 0, 0, 0, 0, 0, 0, 0, 0], p2 (fxS rig fCntread 0 [word (8 * 2 ^ 16 + 3064), 0, 0, 0, 0, 0, 0, 0, 0])],
      chk s fCntread ∧ fld ((envS s fCntread 0 0).word 1) 19 16 = 8 ∧ fld ((envS s fCntread 0 0).word 1) 11 0 + 8 = 3072 ∧ cntVisible s 0 3064 = false)
    ∧ (let s := fxS rig fSamplecfg 0 [word (2 ^ 63 + 2 ^ 62 + 20 * 2 ^ 57), 0]
      chk s fSamplecfg ∧ fld ((envS s fSamplecfg 0 0).word 1) 61 57 = 20)
    ∧ (∀ st ∈ [0, 1, 2], let u := slotPut 4095 { st := st } rig
      chk (fxS u fResultAck 4095 []) fResultAck ∧ chk (fxS u fResultPost 4095 [0, 0, 0, 0, 0]) fResultPost ∧ chk (fxS u fResultPost 4095 [255, 0, 0, 0, 0]) fResultPost
      ∧ (slotOf (fxS u fResultAck 4095 []) (envS (fxS u fResultAck 4095 []) fResultAck 0 0).slot).st = st)
    ∧ (Status.ofCode 0).isSome = true ∧ Status.ofCode 255 = none := by
  decide

/-- A device with a COMMIT for slot 31 under way, one block or the trailer to be read back. -/
def commitS (bs : List Nat) (live : Bool) : State :=
  { slotPut 31 { st := 1, op := 0x28 } rig with
    pwr := { rig.pwr with writing := true, commit := some { slot := 31, blocks := bs, trailer := bs.isEmpty, changed := 1, live := live }, staging := [(0, 1)] } }

/-- SettingsOperations: STAGE of the least and of the most bytes; each operation with no commit, with one, and with bytes staged or none; the end of a block. -/
theorem wit_SettingsOperations :
    let chk := fun (s : State) (f : FxForm) => fxB s 0 0 f = true ∧ fxCheck f false 0 (envS s f 0 0) s = none
    (∀ u ∈ [rig, commitS [1] false],
        (let s := fxS u fStage 0 [0x100000, word ((0x100000 - 8) * 2 ^ 32 + 8)];
        chk s fStage ∧ stageBad (envS s fStage 0 0) = false ∧ inLocalData 0x100000 8 = true)
        ∧ (let s := fxS u fStage 0 [0x130000, 65536]
          chk s fStage ∧ stageBad (envS s fStage 0 0) = false)
        ∧ chk (fxS u fDiscard 0 []) fDiscard ∧ chk (fxS u fCommit 30 []) fCommit ∧ chk (fxS u fNvstat 0 [0, 0]) fNvstat)
    ∧ rig.pwr.commit = none ∧ (commitS [1] false).pwr.commit.isSome = true ∧ staged rig = false
    ∧ staged { rig with pwr := { rig.pwr with staging := [(0, 1)] } } = true ∧ rig.pwr.writing = false
    ∧ (let s : State := { rig with flt := { rig.flt with recno := 1 } }
      s.flt.recno ≠ 0 ∧ s.pwr.histTry = 0)
    ∧ (∀ s ∈ [commitS [1] false, commitS [] false], s.pwr.writing = true ∧ s.pwr.resetReq = 0 ∧ s.pwr.commit.isSome = true ∧ (slotOf s 31).st = 1) := by
  decide

/-- FabricOperationRefusals: an address below and one beyond local data memory, a wrong WORDS, and code at P2. -/
theorem wit_FabricOperationRefusals :
    let s := coreS { g := gs [0xFFFF8, 0x140000, 0x100004] }
    let t := fxS rig fBindWall 0 [bindW 1 0 0 1, 0]
    let u := corePut 0 { coreOf t 0 with p2 := true } t
    runsB s 0 = true ∧ (gReg (coreOf s 0) 1).toNat < 0x100000 ∧ 0x140000 ≤ (gReg (coreOf s 0) 2).toNat ∧ (gReg (coreOf s 0) 3).toNat % 8 ≠ 0
    ∧ fxB t 0 0 fBindWall = true ∧ fxBad fBindWall (envS t fBindWall 0 0) = true
    ∧ fxB u 0 0 fBindWall = true ∧ (coreOf u 0).p2 = true ∧ fBindWall.atP2 = false := by
  decide

/-! ### Hosts and pool devices -/

/-- What HostRequestBinding speaks of for a read of kind op at hpa on port 0 of s: the state after arrival and counting. -/
def arrived (s : State) (op : Op) (hpa : Nat) : State :=
  countDP (if opWrites op then 0x1011 else 0x1010) 1 0 (hostArrive 0 0 1 hpa 1 op .noOp 0 fullMask false s).2

/-- The rig with one change to its window. -/
def winRig (w : Window → Window) : State :=
  { rig with dom := { rig.dom with wins := rig.dom.wins.map (fun p => (p.1, w p.2)) } }

/-- The rig whose list for domain 1 gives P3 the permissions p on the first line of the window. -/
def gateRig (p : Nat) : State := { rig with gate := { rig.gate with
  rules := [(5, { valid := true, last := true, dom := 1, p3 := p, start := 2 ^ 28, limit := 2 ^ 28 })], heads := [(1, { count := 1, head := 5 })], cached := [1] } }

/-- HostRequestBinding: a port that carries none; no decoder; no window; a domain that refuses, and a write that answers a snoop there; write protection; a
request that passes; ownership that is served as a read; a request that the Gate refuses. -/
theorem wit_HostRequestBinding :
    let h := 2 ^ 32
    let d : Decoder := { vcs := 0, dom := 1, dec := 0, hpa := 16, size := 1, da := 1 }
    let q := domPut 1 { domOf rig 1 with st := .quiescing } rig
    hostPort? rig 4 = none ∧ hostPort? rig 0 = some 0 ∧ decoderOf rig 0 (h - 1) = none ∧ decoderOf rig 0 h = some d ∧ decoderOf rig 0 (h + 2 ^ 28 - 1) = some d
    ∧ windowFor (arrived (winRig (fun w => { w with drain := true })) .rdS h) d h = none
    ∧ ((windowFor (arrived rig .rdS h) d (h + 2 ^ 28 - 1)).map (fun p => p.1) = some 0)
    ∧ domRefuses (domOf q 1) 0 = true ∧ snoopedNow q (keyOf 1 (2 ^ 28)) 0 = false
    ∧ (let t := { q with coh := { q.coh with txns := [{ key := keyOf 1 (2 ^ 28), req := 1, snoops := [{ id := 1, agent := 0, k := .inv, hpa := h, time := 0, ans := none, data := false, dirty := false }] }] } }
      (domOf t 1).st = .quiescing ∧ opWrites .wr = true ∧ snoopedNow t (keyOf 1 (2 ^ 28)) 0 = true)
    ∧ domRefuses (domOf rig 1) 0 = false
    ∧ ((windowFor (arrived (winRig (fun w => { w with wp := true })) .wr h) d h).map (fun p => p.2.wp) = some true)
    ∧ (let v := arrived rig .rdS h
      homedElse v 1 = none ∧ cacheHas v 1 = true ∧ (∀ p ∈ hostPerms .rdS, daVerdict v 1 (2 ^ 28) .p3 p false = .allow))
    ∧ (let v := arrived (gateRig 4) .rdA h
      homedElse v 1 = none ∧ cacheHas v 1 = true ∧ daVerdict v 1 (2 ^ 28) .p3 .r false = .allow ∧ daVerdict v 1 (2 ^ 28) .p3 .w false ≠ .allow)
    ∧ (let v := arrived (gateRig 0) .rdA h
      homedElse v 1 = none ∧ cacheHas v 1 = true ∧ daVerdict v 1 (2 ^ 28) .p3 .r false ≠ .allow
      ∧ (hostPerms .rdA).find? (fun q => decide (daVerdict v 1 (2 ^ 28) .p3 q false ≠ .allow)) = some .r) := by
  decide

/-- HostAnswers: a host that is there and one that is lost. -/
theorem wit_HostAnswers : hostGone rig 0 = false ∧ hostGone { rig with dom := { rig.dom with lostHost := [0] } } 0 = true := by decide

/-- A transaction of a line whose snoop 9, of VCS 0, is not answered. -/
def snpS (k : Snoop) : State := { rig with coh := { rig.coh with
  txns := [{ key := keyOf 1 (2 ^ 28), req := 1, snoops := [{ id := 9, agent := 0, k := k, hpa := 2 ^ 32, time := 0, ans := none, data := false, dirty := false }] }] } }

/-- FlitsAndSnoopAnswers, flits: a TRL port, the sequence numbers at the ends of their ranges, and classes with and without credits. -/
theorem wit_FlitsAndSnoopAnswers_flits :
    let ahead := fun (seq : Nat) => (seq + 1024 - (cxpOf rig 0).rxSeq) % 1024
    let cr : State := { rig with erg := { rig.erg with backed := [(acctKey 0 6, 1)] } }
    isTrlPort rig 8 = true ∧ isTrlPort rig 0 = false ∧ (cxpOf rig 0).link = 2 ∧ (cxpOf rig 5).link ≠ 2
    ∧ ahead 1 = 1 ∧ ahead 511 = 511 ∧ ahead 512 = 512 ∧ 512 % 1024 ≠ (cxpOf rig 0).rxSeq ∧ 1024 % 1024 = (cxpOf rig 0).rxSeq
    ∧ portRole rig 12 = 4 ∧ portRole rig 0 ≠ 4 ∧ creditsHeld rig 0 none [6] = false ∧ (∃ c ∈ [7], 6 < c)
    ∧ (∀ c ∈ [6], c ≤ 6) ∧ creditsHeld cr 0 none [6] = true := by
  decide

/-- FlitsAndSnoopAnswers, the rest: answers that are late, legal and not; pass-through and PBR records that have a way and that have none; a rule list that the
cache holds and one that it does not. -/
theorem wit_FlitsAndSnoopAnswers_rest :
    (∀ k ∈ [Snoop.inv, .data, .cur], (snpFor (consume 0 (snpS k)) 0 9).map (fun p => p.2.k) = some k) ∧ (snpFor (consume 0 rig) 0 9).isNone = true
    ∧ hostPort? rig 0 = some 0 ∧ hostPort? rig 4 = none
    ∧ (let t : State := { rig with dom := { rig.dom with vppb := [(4, some (.port 4))] } }
      sget none t.dom.vppb (0 * 256 + 4) = some (.port 4) ∧ passPort (.port 4) = some 4 ∧ portRole t 4 = 2 ∧ linkUp t 4 = true
      ∧ passVppb t 4 = some (0, 4) ∧ portOfVcs? t 0 = some 0)
    ∧ (∀ t, sget none rig.dom.vppb (0 * 256 + 3) = some t → passPort t = none) ∧ passVppb rig 4 = none
    ∧ portRole rig 0 ≠ 3
    ∧ (let f : State := { rig with
        lane := { rig.lane with tile := [(0, tileW 0 0 1 0 0 0), (1, tileW 0 0 3 0 0 0)] }, regs := sset 0 (sset 0 rig.regs aCxpPbr (word (2 ^ 63 + 1))) (aCxpPbr + 8) (word (2 ^ 63 + 4)) }
      isTrlPort f 4 = false ∧ portRole f 4 = 3 ∧ linkUp f 4 = true ∧ regFld f aCxpPbr 63 63 ≠ 0 ∧ pbrPort f 0xFFF = none)
    ∧ (let f : State := cxpPut 4 { cxpOf rig 4 with cfg := 2 ^ 11 } { rig with
        lane := { rig.lane with tile := [(1, tileW 0 0 2 0 0 0), (3, tileW 0 0 3 0 0 0)] }, regs := sset 0 rig.regs aCxpPbr (word (2 ^ 63 + 1)) }
      isTrlPort f 12 = false ∧ portRole f 12 = 3 ∧ linkUp f 12 = true ∧ regFld f aCxpPbr 63 63 ≠ 0 ∧ pbrPort f 132 = some 4)
    ∧ cacheHas rig 1 = true ∧ cacheHas (gateRig 4) 1 = true ∧ cacheHas { gateRig 4 with gate := { (gateRig 4).gate with cached := [] } } 1 = false ∧ 1 ≤ dasList := by
  decide

/-- A request of host port 0 with one leg at pool device 0, of tag 77. -/
def legS (rd : Bool) (m : MapEntry) : State :=
  { mapS [(1024, m)] with reqs := [{ mkReq 7 (.host 0 0 1) (if rd then .rdS else .wr) 1 (2 ^ 28) .priv with
    phase := .pool, legs := [{ tag := 77, dev := 0, port := 4, dpa := 0, rd := rd, dest := false }] }] }

/-- CompletionsAndAtomics: a completion that no request waits for, one of a read and one of a write; a read with another leg and with none. -/
theorem wit_CompletionsAndAtomics_pool :
    let pool : MapEntry := { kind := .pool, ext := true, tag := 1 }
    let dup : MapEntry := { kind := .duplex, ext := true, tag := 1, devB := 3 }
    let other := fun (v : State) => (locsOf (mapOf v (idxOf v 1 (2 ^ 28)))).find? (fun x => !(x.1 == 0) && !(x.1 == 255) && !(devLost v x.1))
    (legOf (consume 4 rig) 4 77).isNone = true
    ∧ (legOf (consume 4 (legS true pool)) 4 77).map (fun p => p.2.rd) = some true
    ∧ (legOf (consume 4 (legS false pool)) 4 77).map (fun p => p.2.rd) = some false
    ∧ other (raiseP (fCxp 4 6) 4 (consume 4 (legS true pool))) = none
    ∧ other (raiseP (fCxp 4 6) 4 (consume 4 (devPut 3 { bound := true, st := .active } (legS true dup)))) = some (3, 0) := by
  decide

/-- The rig whose domain 1 has its atomics enabled in VCS 0, over its second 256 MiB. -/
def atomRig (w : Window → Window) (en : Bool) : State := { winRig w with meld := { rig.meld with base := [(0 * 4096 + 1, (0, en))] } }

/-- CompletionsAndAtomics, atomics: a vPPB with no KMD instance; a misaligned one, an illegal one; none enabled, no window, write protection, a domain that
refuses, and one that passes; a waiting atomic; a far one. -/
theorem wit_CompletionsAndAtomics_atomics :
    let at_ := fun (s : State) (off : Nat) => atomicEnters 0 0 1 9 0 off .w64 1 0 s
    let o := 2 ^ 28
    kmdAt rig 0 3 = some 1 ∧ kmdAt rig 0 4 = none ∧ meldLegal .swap .w128 = false ∧ (o + 4) % MeldW.w64.bytes ≠ 0 ∧ o % MeldW.w64.bytes = 0
    ∧ meldLegal (fetchOp 0) .w64 = true ∧ 2 ^ 35 / 2 ^ 35 % 8 ≠ 0 ∧ (sget (0, false) rig.meld.base 1).2 = false
    ∧ (sget (0, false) (atomRig id true).meld.base 1) = (0, true)
    ∧ (winForDa (at_ (atomRig (fun w => { w with drain := true }) true) o).2 0 1 o).isNone = true
    ∧ (winForDa (at_ (atomRig (fun w => { w with wp := true }) true) o).2 0 1 o).map (fun p => p.2.wp) = some true
    ∧ (winForDa (at_ (atomRig id true) o).2 0 1 o).map (fun p => p.2.wp) = some false
    ∧ domRefuses (domOf (at_ (atomRig id true) o).2 1) 0 = false
    ∧ (let q := domPut 1 { domOf rig 1 with quiesced := [0] } (atomRig id true)
      (winForDa (at_ q o).2 0 1 o).map (fun p => p.2.wp) = some false ∧ domRefuses (domOf (at_ q o).2 1) 0 = true)
    ∧ rig.reqs.find? (fun r => decide (r.phase = .meldTracker) && (sliceOf (keyOf r.dom r.da) == 0)) = none
    ∧ (let s : State := { rig with reqs := [{ mkReq 7 (.host 0 0 1) (.atomic .add .w64 0 1 0) 1 o .scoh with phase := .meldTracker }] }
      (s.reqs.find? (fun r => decide (r.phase = .meldTracker) && (sliceOf (keyOf r.dom r.da) == sliceOf (keyOf 1 o)))).isSome = true)
    ∧ (let s : State := { rig with reqs := [mkReq 7 (.host 0 0 1) (.atomic .add .w64 0 1 0) 1 o .scoh], meld := { rig.meld with far := [{ tag := 5, req := 7, time := 0 }] } }
      s.meld.far.find? (fun f => f.tag == 5) = some { tag := 5, req := 7, time := 0 }
      ∧ (reqOf (advanceTo (0 + regFld s aCohCfg 51 40 * 1000) { s with meld := { s.meld with far := [], farTo := 1 } }) 7).isSome = true) := by
  decide

/-- HomeSliceEvents: a waiting request on a free line and on one with a transaction; requests for a tracker of each kind; a hold mark; a written victim; a
snoop to a host and one to another switch; the agents at the end of their range, with three pointers in use. -/
theorem wit_HomeSliceEvents :
    let k := keyOf 1 (2 ^ 28)
    let r := fun (ph : Phase) (who : Who) => ({ mkReq 7 who .rdS 1 (2 ^ 28) .scoh with phase := ph } : Req)
    let withReq := fun (q : Req) => ({ rig with reqs := [q] } : State)
    let txn : Txn := { key := k, req := 8 }
    let busy := fun (s : State) => ({ s with coh := { s.coh with txns := [txn] } } : State)
    let a := withReq (r .lineQueue (.host 0 0 1))
    txnOn a k = false ∧ (lineWaiters a k).length = 1 ∧ txnOn (busy a) k = true ∧ lineWaiters rig k = []
    ∧ ((lineWaiters a k).find? (fun x => linePos x == linePos (r .lineQueue (.host 0 0 1)))).isSome = true
    ∧ rig.reqs.find? (fun r => decide (r.phase = .trackerWait) && (sliceOf (keyOf r.dom r.da) == sliceOf k)) = none
    ∧ ((withReq (r .trackerWait (.host 0 0 1))).reqs.find? (fun r => decide (r.phase = .trackerWait)
      && (sliceOf (keyOf r.dom r.da) == sliceOf k))).isSome = true
    ∧ isWriteBack (snpS .inv) { r .trackerWait (.host 0 0 1) with op := .wr } = true
    ∧ isWriteBack a (r .trackerWait (.host 0 0 1)) = false ∧ txnOn (busy (withReq (r .trackerWait (.host 0 0 1)))) k = true
    ∧ (let s : State := { rig with coh := { rig.coh with holds := [{ key := k, agent := 0, til := 5, grant := 1 }] } }
      (s.coh.holds.find? (fun h => (h.key == k) && !(h.til == 0))).isSome = true)
    ∧ rig.coh.holds.find? (fun h => (h.key == k) && !(h.til == 0)) = none
    ∧ (let s : State := { withReq (r .wbDone (.wback 0)) with coh := { rig.coh with lc := [(k, { data := 0, dirty := true, poison := false, way := 0, used := 0, wb := true })] } }
      (s.reqs.find? (fun r => decide (r.phase = .wbDone) && (keyOf r.dom r.da == k))).isSome = true ∧ (lcOf s k).isSome = true)
    ∧ (∀ p ∈ [(0, false), (64, true)],
      let s : State := { rig with coh := { rig.coh with txns := [{ txn with snoops := [{ id := 9, agent := p.1, k := .inv, hpa := 0, time := 1, ans := none, data := false, dirty := false }] }] } }
      (s.coh.txns.findSome? (fun t => (t.snoops.find? (fun x => (x.id == 9) && x.isOpen && !(x.time == 0) && ((64 ≤ x.agent : Bool) == p.2))).map
        (fun x => (t, x)))).isSome = true)
    ∧ (let e : SfEntry := { st := .s, grp := false, agents := [0, 1, 2], groups := 0, used := 0 }
      (∀ x ∈ e.agents, x < 80) ∧ e.agents.length ≤ 3 ∧ 79 ∉ e.agents ∧ e.agents.length = 3 ∧ 2 ∈ holders e) := by
  decide

/-- The rig with an item of port 8 that holds one record. -/
def msgS (s : State) : State := { s with erg := { s.erg with items := [{ id := 3, port := 8, acct := 0, cells := 1, refs := 1, fresh := 1, mirrors := 0 }] } }

/-- InterSwitchMessages: a port that carries no frames and one that does; a domain homed here, and one homed elsewhere; operands of HMELD; an answer that is
awaited, with its snoop; a request that asked, with a far atomic; a peer that is present; a message that has gone too far; a fence that waits and one that is over. -/
theorem wit_InterSwitchMessages :
    let asked : Req := { mkReq 7 (.host 0 0 1) .rdS 1 (2 ^ 28) .scoh with phase := .remoteWait }
    let far : State := { rig with reqs := [asked], meld := { rig.meld with far := [{ tag := 7, req := 7, time := 0 }] } }
    let snp : State := { rig with coh := { rig.coh with txns := [{ key := keyOf 1 (2 ^ 28), req := 1
                                                                   snoops := [{ id := 9, agent := 79, k := .data, hpa := 0, time := 1, ans := none, data := false, dirty := false }] }] } }
    (takeMsg 0 rig).isNone = true ∧ (takeMsg 2 (msgS rig)).isSome = true ∧ homedElse rig 1 = none
    ∧ (homedElse (regPut rig (0x24E10000 + 8) (word (2 ^ 63 + 15))) 1).isSome = true
    ∧ (domOf rig 1).st = .active ∧ (domOf rig 2).st ≠ .active ∧ meldLegal .cas .w128 = true ∧ 48 % MeldW.w128.bytes = 0 ∧ MeldOp.ofCode 15 = none
    ∧ (snp.coh.txns.findSome? (fun q => if q.key = keyOf 1 (2 ^ 22 % 2 ^ 40 * 64) then
      (q.snoops.find? (fun x => (x.agent == 64 + 15) && (x.id % 65536 == 9) && x.ans.isNone)).map (fun x => (q, x)) else none)).isSome = true
    ∧ (askedFor rig 1 (2 ^ 22) 7).isNone = true
    ∧ ((takeMsg 2 (msgS far)).bind (fun t => askedFor t 1 (2 ^ 22) 7)).isSome = true
    ∧ ((takeMsg 2 (msgS far)).bind (fun t => t.meld.far.find? (fun f => f.tag == 7))).isSome = true
    ∧ (let p := peerPut 15 { present := true, incarn := 1, at_ := 0 } rig
      (peerOf p 15).present = true ∧ (peerOf p 15).incarn ≠ 2 ∧ (peerOf rig 15).present = false)
    ∧ rig.trl.selfId = 0 ∧ regFld rig aTrlCfg 10 8 < 7 + 1 ∧ 0 + 1 ≤ regFld rig aTrlCfg 10 8 ∧ fencedTo rig 1 = false
    ∧ (let f := fun (s : Nat) => trlPut 2 { trlOf rig 2 with fence := [(2, s)], held := [{ seq := 4, typ := 0 }] } rig
      (trlOf rig 2).fence = [] ∧ (∃ x ∈ (trlOf (f 4) 2).fence, ∃ h ∈ (trlOf (f 4) x.1).held, h.seq = x.2) ∧ (trlOf (f 5) 2).fence = [(2, 5)]
      ∧ ∀ h ∈ (trlOf (f 5) 2).held, h.seq ≠ 5) := by
  decide

/-! ### Capacity, CXL ports, lanes -/

theorem wit_serving : Serving rig := ⟨by decide, rfl, rfl⟩

/-- The rig with an open offer, a release that drains, parcels to scrub and a lost device. -/
def capS : State := { domPut 1 { domOf rig 1 with extents := [130] } rig with dom := { (domPut 1 { domOf rig 1 with extents := [130] } rig).dom with
  offers := [{ dom := 1, blocks := [129], waiting := [0], accepted := [] }]
  releases := [{ dom := 1, blocks := [131], backing := [(0, 5)], waits := [], phase := 1, report := true }]
  walks := [{ dev := 3, incident := 1, time := 0, doms := [1] }], devs := sset {} rig.dom.devs 3 { bound := true, st := .lost } } }

/-- CapacityEvents: Adds that are refused in each way, the last one that fits, one with a host to ask and one with none; answers, releases, the drain and the
scrubs; a walk with a domain left and with none; each kind of entry that a loss rewrites. -/
theorem wit_CapacityEvents :
    let scrub := fun (d : PoolDev) => devPut 7 { d with bound := true, port := 4 } rig
    (domOf rig 1).st = .active ∧ (domOf rig 2).st ≠ .active ∧ spanOf (domOf rig 1) * 128 = 384 ∧ 384 < 384 + 1 ∧ addable rig 1 [383] = true
    ∧ addable rig 1 [128] = false ∧ addable rig 1 [129] = true ∧ rig.dlr.promises + 8 * promiseOf rig 1 ≤ poolFree rig
    ∧ poolFree { rig with dlr := { rig.dlr with near := [] }, dom := { rig.dom with devs := [] } } < 8
    ∧ presenters rig 1 = [0] ∧ regionOf (domOf rig 1) (0 / 128) = some .priv ∧ addable rig 1 [127] = true
    ∧ (capS.dom.offers.find? (fun o => (o.dom == 1) && o.waiting.contains 0)).isSome = true ∧ rig.dom.offers.find? (fun o => (o.dom == 1) && o.waiting.contains 0) = none
    ∧ (presenters rig 0).contains 0 = false ∧ [130, 131].filter (fun b => (domOf capS 1).extents.contains b) = [130]
    ∧ (∀ k ∈ capS.coh.sf, inBlocks 1 [130] k.1 = false)
    ∧ capS.dom.releases.find? (fun r => (r.dom == 1) && (r.phase == 1)) = some { dom := 1, blocks := [131], backing := [(0, 5)], waits := [], phase := 1, report := true }
    ∧ releaseDrained capS { dom := 1, blocks := [131], backing := [(0, 5)], waits := [], phase := 1, report := true } = true
    ∧ (let r : Release := { dom := 1, blocks := [], backing := [], waits := [7], phase := 1, report := true }
      releaseDrained { rig with reqs := [mkReq 7 (.host 0 0 1) .rdS 1 0 .scoh], dom := { rig.dom with releases := [r] } } r = false)
    ∧ rig.dlr.nearToScrub = [] ∧ rig.dlr.nearScrub < rig.dlr.nearTotal ∧ ({ rig.dlr with nearScrub := 16 }).nearTotal ≤ ({ rig.dlr with nearScrub := 16 }).nearScrub
    ∧ devLost rig 0 = false ∧ devLost capS 3 = true ∧ (devOf (scrub { st := .active, toScrub := [9] }) 7).toScrub = [9]
    ∧ (devOf (scrub { st := .scrubbing, cap := 2, slot := some 4095 }) 7).scrubAt + 1 < 2
    ∧ (devOf (scrub { st := .scrubbing, cap := 1, slot := some 4095 }) 7).scrubAt + 1 = 1 ∧ devLost (scrub { st := .scrubbing, cap := 1 }) 7 = false
    ∧ (slotOf (slotPut 4095 { st := 1 } (scrub { st := .scrubbing, cap := 1, slot := some 4095 })) 4095).st = 1
    ∧ capS.dom.walks.find? (fun w => w.dev == 3) = some { dev := 3, incident := 1, time := 0, doms := [1] } ∧ rig.dom.walks.find? (fun w => w.dev == 3) = none
    ∧ (∃ e, lossEntry capS 3 { kind := .pool, devA := 3 } = some e) ∧ devLost capS 0 = false
    ∧ (∃ e, lossEntry capS 3 { kind := .duplex, devA := 3, devB := 0 } = some e) ∧ (∃ e, lossEntry capS 3 { kind := .duplex, devA := 3, devB := 3 } = some e)
    ∧ lossEntry capS 3 { kind := .pool, devA := 0 } = none :=
  ⟨by decide, by decide, by decide, by decide, by decide, by decide, by decide, by decide, by decide, by decide, by decide, by decide, by decide, by decide, by decide,
    by decide, by decide, by decide, by decide, by decide, by decide, by decide, by decide, by decide, by decide, by decide, by decide, by decide, by decide, by decide,
    by decide, by decide, ⟨_, rfl⟩, by decide, ⟨_, rfl⟩, ⟨_, rfl⟩, by decide⟩

/-- A record of class cls and domain 1 for a port, with number id. -/
def recOf (id cls : Nat) (m : Msg) : OutRec :=
  { id := id, cls := cls, dom := 1, bytes := 16, acct := noAcct, cells := 0, needs := none, item := 0, poison := false, smp := 0, msg := m }

/-- The rig whose port 4 has the records qs in its queues and ps parked, with one credit on each channel. -/
def txS (p : Nat) (qs ps : List OutRec) : State :=
  pqPut p { q := qs, parked := ps } (cxpPut p { cxpOf rig p with cred := (List.range 7).map (fun c => (c, 1)), replay := [1020, 1023, 1], txSeq := 1023 } rig)

/-- CxlTransmission: a port that is busy, one with nothing to send, with records of SC0 and SC2, and an analysis port; parked records; credits to advertise and
to hold at their limits; flits held and not; the ends of the pace monitor's ranges. -/
theorem wit_CxlTransmission :
    let t := txS 4 [recOf 1 2 (.io 1 16), recOf 2 0 (.io 2 16)] [recOf 3 3 (.io 3 16)]
    let x := cxpOf t 4
    isTrlPort t 4 = false ∧ x.link = 2 ∧ x.replay.length < replayRoom t 4 x ∧ isTrlPort rig 8 = true ∧ (pqOf rig 4).q = []
    ∧ (∀ y ∈ (pqOf t 4).q, sendable x y = true ∧ y.needs = none ∧ y.cls < 3) ∧ (pqOf t 4).q.length = 2 ∧ portRole t 4 ≠ 4
    ∧ (let a := txS 12 [recOf 1 7 (.mirror 0 0 0 0 0 0 0 0)] []
      portRole a 12 = 4 ∧ isTrlPort a 12 = false ∧ (cxpOf a 12).link = 2 ∧ (cxpOf a 12).replay.length < replayRoom a 12 (cxpOf a 12)
      ∧ ∀ y ∈ (pqOf a 12).q, y.needs = none ∧ y.cls = 7 ∧ sendable (cxpOf a 12) y = true)
    ∧ (∀ r ∈ (pqOf t 4).parked, withinQueue t 32 r.cls (queueLen (pqOf t 4) r.cls + recLen r) = true ∧ headBlocked t (pqOf t 4) r = false
      ∧ 3 ≤ r.cls ∧ r.cls ≤ 6 ∧ (subQueues (pqOf t 4)).contains (r.cls, r.dom) = false)
    ∧ (pqOf t 4).parked.find? (fun y => y.cls == 3) = some (recOf 3 3 (.io 3 16)) ∧ headsUsed t < 131072 ∧ (pqOf rig 4).parked = []
    ∧ (takeCells (4 * 8 + 6) 1 rig).isSome = true ∧ linkUp rig 4 = true ∧ (takeCells (4 * 8 + 6) 1000000 rig).isNone = true
    ∧ sget 0 x.cred 6 + 65534 ≤ 65535 ∧ 65535 < sget 0 x.cred 6 + 65535 ∧ x.link ≠ 0
    ∧ x.replay = [1020] ++ 1023 :: [1] ∧ 1023 ∉ [1020] ∧ 1022 ∉ x.replay
    ∧ (cxpOf rig 5).link ≠ 2 ∧ regFld rig aPaceCfg 15 0 ≤ 5000 ∧ rig.erg.cyc.2.1 ≤ regFld rig aPaceCfg 15 0
    ∧ (let s : State := { rig with erg := { rig.erg with cyc := (0, 65535, 0, true) } }
      regFld s aPaceCfg 15 0 < s.erg.cyc.2.1) := by
  decide

/-- The rig whose ports 0 and 4 may train. -/
def trainS (x : CxpPort) : State :=
  cxpPut 0 { x with perst := true } { cxpPut 4 x rig with lane := { rig.lane with tiles := [(0, { clkok := true }), (1, { clkok := true })] } }

/-- CxlLinksAndPorts: a link that may train with a mode that fits and one that does not; a slot that waits for it; links in each state; a bound device; the
VCS of a host; running timers. -/
theorem wit_CxlLinksAndPorts_links :
    let s := trainS { slot := some 4095, link := 1 }
    let up : State := { s with dom := { s.dom with vcsOf := [] } }
    let slot := slotPut 4095 { st := 1 } s
    (∀ p ∈ [0, 4], isTrlPort s p = false ∧ mayTrain s p = true ∧ (cxpOf s p).link ≠ 2 ∧ (cxpOf s p).link ≠ 3)
    ∧ mayTrain rig 5 = false ∧ modeFits 1 0 true true false = false ∧ modeFits 1 2 true true false = true ∧ modeFits 2 0 false false false = true
    ∧ (slotOf slot 4095).st = 1 ∧ portRole up 0 = 1 ∧ vcsOf? up 0 = none ∧ portOfVcs? up 63 = none ∧ vcsOf? rig 0 = some 0
    ∧ (cxpOf rig 4).link = 2 ∧ (cxpOf rig 5).link = 0 ∧ (cxpOf (trainS { link := 3 }) 4).link = 3 ∧ (cxpOf s 4).link = 1
    ∧ (devOf rig 0).bound = true ∧ (devOf rig 0).port = 4 ∧ devLost rig 0 = false ∧ (devOf rig 1).bound = false ∧ devLost capS 3 = true
    ∧ (∃ p ∈ rig.dom.vppb, p.1 / 256 = 0 ∧ p.2 ≠ none) ∧ rig.dom.lostHost.contains 0 = false ∧ (∃ p ∈ rig.dom.wins, p.2.valid = true ∧ p.2.vcs = 0)
    ∧ portRole rig 0 = 1 ∧ portRole rig 4 ≠ 1
    ∧ (let t := cxpPut 4 { cxpOf rig 4 with timers := [(7, 1)] } rig
      (cxpOf t 4).link = 2 ∧ (∃ y ∈ (cxpOf t 4).timers, y.1 = 7))
    ∧ (let t := trainS { link := 3, pausedAt := 0, bootWidth := 16, replay := [1], slot := some 4095 }
      (cxpOf t 4).link = 3 ∧ 8 < (cxpOf t 4).bootWidth) := by
  decide

/-- CxlLinksAndPorts, the rest: requests of firmware that each issuer waits for; a requester of IDE; mailboxes; PERST_N; low power. -/
theorem wit_CxlLinksAndPorts_rest :
    let io := fun (w : IoWho) => ({ slotPut 4095 { st := 1 } rig with cxp := { rig.cxp with io := [{ tag := 5, port := 4, who := w, time := 0 }] } } : State)
    (∀ w ∈ [IoWho.mgmt 1, .slot 4095, .boot], (io w).cxp.io.find? (fun y => y.tag == 5) = some { tag := 5, port := 4, who := w, time := 0 }
      ∧ (consume 4 (io w)).cxp.io.find? (fun y => y.tag == 5 && y.port == 4) = some { tag := 5, port := 4, who := w, time := 0 })
    ∧ (slotOf (io .boot) 4095).st = 1 ∧ rig.cxp.io = [] ∧ (consume 4 rig).cxp.io = []
    ∧ portRole rig 4 = 2 ∧ (cxpOf rig 4).link = 2 ∧ portRole rig 0 ≠ 2 ∧ portRole rig 0 ≠ 3
    ∧ (sget ({} : DoeMb) rig.cxp.doe 63).busy = false ∧ (sget ({} : DoeMb) [(64, ({ busy := true } : DoeMb))] 64).busy = true
    ∧ domOf rig ((64 + 5 - 64) % 4096) = {}
    ∧ (let t := trainS { link := 0 }
      portRole t 4 ≠ 0 ∧ portRole t 4 ≠ 1 ∧ isTrlPort t 4 = false ∧ (cxpOf t 4).off = false ∧ t.flt.terminal = false ∧ portSpc t 4 = none
      ∧ (sget ({} : TileS) t.lane.tiles (4 / 4)).clkok = true)
    ∧ (let t := regPut (cxpPut 4 { cxpOf rig 4 with flit := 2 } rig) (aCxpPortCfg 4) (word (3 * 2 ^ 12))
      isTrlPort t 4 = false ∧ (cxpOf t 4).link = 2 ∧ (cxpOf t 4).low = 0 ∧ bit (regGet t (aCxpPortCfg 4)) 12 = true ∧ bit (regGet t (aCxpPortCfg 4)) 13 = true
      ∧ (cxpOf t 4).flit = 2)
    ∧ (cxpOf (cxpPut 4 { cxpOf rig 4 with low := 1 } rig) 4).low ≠ 0 := by
  decide

/-- The rig with lanes in use: tile 1 carries CXL, tile 2 TRL, whose lane 36 + 7 has the state x and its spare 52 the state sp. -/
def laneS (x : LaneS) (sp : LaneS) (st : Nat) : State := trlPut 2 { trlOf rig 2 with st := st } { rig with lane := { rig.lane with
  lanes := [(18, { x with logical := 0 }), (43, { x with logical := 7 }), (52, sp)], tiles := [(0, { clkok := true }), (1, { clkok := true, hist := [0], full := true }), (2, {})] } }

/-- TilesAndLanes: clocks, the time base, training of CXL and TRL lanes (one failure in each half, and two), adaptation, the eye monitor, windows of
utilization, each stage of a check, lanes out of service with a spare and with none, loss of signal, and markers found and missed. -/
theorem wit_TilesAndLanes :
    let on := laneS { st := 2 } { st := 4 } 5
    (tileOf on 0).clkok = true ∧ (tileOf on 2).clkok = false ∧ isTrlTile on 2 = true ∧ (trlOf on 2).off = false ∧ trainLive on = true
    ∧ (trlOf (laneS {} {} 0) 2).st = 0
    ∧ on.lane.holdover = false ∧ ({ on.lane with holdover := true }).holdover = true
    ∧ isTrlPort on 4 = false ∧ mayTrain on 4 = true ∧ (cxpOf (cxpPut 4 {} on) 4).link ≠ 2 ∧ mayTrain on 5 = false ∧ portLanes on 4 ≠ []
    ∧ isTrlPort on 8 = true ∧ (trlOf on 2).st ≠ 2 ∧ (trlOf (laneS {} {} 2) 2).st = 2
    ∧ (∀ k ∈ List.range 2, ∀ a ∈ List.range 8, ∀ b ∈ List.range 8, ((2 ^ 7 + 2 ^ 8) / 2 ^ ((36 + 8 * k + a) % 18) % 2 = 1) →
      ((2 ^ 7 + 2 ^ 8) / 2 ^ ((36 + 8 * k + b) % 18) % 2 = 1) → a = b ∧ ¬ (2 ^ 7 + 2 ^ 8) / 2 ^ ((36 + 16 + k) % 18) % 2 = 1)
    ∧ 3 / 2 ^ (36 % 18) % 2 = 1 ∧ 3 / 2 ^ (37 % 18) % 2 = 1
    ∧ (laneOf on 43).st = 2 ∧ (laneOf on 52).st = 4 ∧ (laneOf on 431).st ≠ 2 ∧ (laneOf on 431).st ≠ 4 ∧ (laneOf on 43).adaptAt = 0
    ∧ on.time + 1 < 2 + 10000 ∧ (laneOf (laneS { st := 2, stage := 1 } {} 5) 43).stage = 1
    ∧ regFld on aLaneChk 39 32 ≤ 255 ∧ regFld on aLaneChk 28 24 ≤ 255 ∧ ¬ regFld on aLaneChk 39 32 ≤ 0
    ∧ (tileOf on 1).hist ≠ [] ∧ (tileOf on 1).hist.foldl min 255 + regFld on aLaneChk 22 16 ≤ 127 ∧ bit (tileCfg on 1) 63 = true ∧ bit (tileCfg on 23) 63 = false
    ∧ (∀ k ∈ [2, 3], (laneOf (laneS { st := 2, stage := k } { st := 4 } 5) 43).stage = k ∧ (laneOf (laneS { st := 4, stage := k } { st := 4 } 5) 43).st = 4
      ∧ (laneOf (laneS { st := 2, stage := k } { st := 4 } 5) 18).stage = k)
    ∧ isTrlTile on 1 = false
    ∧ (trlOf on 2).spareA = none ∧ (laneOf on 43).logical < 16 ∧ (laneOf on 43).logical / 8 = 0
    ∧ (laneOf (laneS { st := 2 } { st := 5 } 5) 52).st ≠ 4
    ∧ (trlOf (trlPut 2 { trlOf on 2 with spareA := some { rx := true, lane := 7, spare := 16, imm := true } } on) 2).spareA = some { rx := true, lane := 7, spare := 16, imm := true }
    ∧ (laneOf on 43).missed < 2 ∧ 2 ≤ (laneOf (laneS { st := 2, missed := 2 } {} 5) 43).missed ∧ (trlOf (laneS { st := 2 } {} 3) 2).st = 3 := by
  decide

/-! ### Trarriyn Link -/

/-- The rig whose TRL port, on tile 2, is x. -/
def trlS (x : TrlPort) : State := trlPut 2 x rig

/-- TrlFrames: a port that carries no frames and one that does; an ACK that frees two of three frames and one that frees none; expected, ahead at both ends of
its range, and duplicate numbers; frames that can and cannot be read again; control messages and records to send; a spill that waits. -/
theorem wit_TrlFrames :
    let f := fun (k : Nat) (b : Bool) => ({ seq := k, typ := 2, bad := b } : TrlFrame)
    let x : TrlPort := { st := 5, held := [f 65534 false, f 65535 false, f 0 true], rxe := 65535, txSeq := 1 }
    let d := fun (seq : Nat) => (seq + 65536 - x.rxe % 65536) % 65536
    let t := trlS { st := 5 }
    isTrlTile rig 2 = true ∧ (trlOf (trlS { st := 4 }) 2).st ≠ 5 ∧ (trlOf (trlS {}) 2).st = 0 ∧ (trlOf (trlS x) 2).st = 5
    ∧ (trlOf (trlS x) 2).held = [f 65534 false] ++ f 65535 false :: [f 0 true] ∧ (∀ g ∈ [f 65534 false], g.seq ≠ 65535)
    ∧ (∀ g ∈ x.held, g.seq ≠ 5) ∧ d 65535 = 0 ∧ d 0 = 1 ∧ d 32766 = 32767 ∧ d 32767 = 32768
    ∧ (∃ g ∈ x.held, g.bad = true) ∧ (∀ g ∈ [f 65534 false], g.bad = false) ∧ x.nakPos ≠ (65534 + 1) % 65536 + 1
    ∧ (trlOf t 2).period = t.time / 1280 ∧ (trlOf t 2).held = [] ∧ (trlOf t 2).replay = []
    ∧ 0 < 1073 * min (throttleCap t) (trlOf t 2).pace / 15
    ∧ x.held.find? (fun g => g.seq == 65535) = some (f 65535 false) ∧ (trlOf t 2).ctlq = [] ∧ (pqOf t 8).q = []
    ∧ (let u := pqPut 8 { q := [recOf 1 2 (.io 1 16)] } t
      (∃ r ∈ (pqOf u 8).q, r.needs = none ∧ r.cls < 3) ∧ portRole u 8 ≠ 4 ∧ (trlOf u 2).held.length < 32767
      ∧ ((trlOf u 2).held.filter (fun g => !g.spill)).length < onDieFrames u 2)
    ∧ (let q : State := { rig with trl := { rig.trl with spillQ := [2] } }
      q.trl.spillQ = 2 :: [] ∧ rig.trl.spillQ.head? ≠ some 2) := by
  decide

/-- TrlStatesAndSparing: ports in each state; a detected peer; the sixteenth round time, with a delay in and beyond its range; an alien peer; a session that resumes and
one that does not; sparing of a half that is free, that cannot send, that waits for its check and for its end; the idle handshake. -/
theorem wit_TrlStatesAndSparing :
    let up := fun (x : TrlPort) => trlOf (trlS x) 2
    let det : State := { trlS { st := 7 } with lane := { rig.lane with tiles := [(2, { clkok := true })] } }
    let rx : Spare := { rx := true, lane := 7, spare := 16, imm := false }
    ((trlOf det 2).st = 7 ∧ (trlOf det 2).off = false ∧ (tileOf det 2).clkok = true ∧ trainLive det = true ∧ (trlOf det 2).retryAt = 0)
    ∧ (up { retryAt := 9 }).retryAt ≠ 0 ∧ (up { st := 3 }).st = 3 ∧ (up { st := 4 }).st = 4 ∧ (up { st := 5 }).up = true ∧ (up { st := 7 }).up = false
    ∧ (let x := up { st := 4, trains := 15, trainSum := 160000, kept := true, peer := 1, session := 9, txSeq := 2, held := [{ seq := 0, typ := 2 }, { seq := 1, typ := 2 }] }
      x.st = 4 ∧ min 16 (x.trains + 1) = 16 ∧ ((x.trainSum + 0 + 31) / 32 + 9) / 10 = 500 ∧ 500 < ((x.trainSum + 320 + 31) / 32 + 9) / 10
      ∧ rig.trl.fabric.toNat = 0 ∧ rig.trl.selfId = 0 ∧ 1 % 16 ≠ rig.trl.selfId ∧ x.ready = false ∧ x.kept = true ∧ x.peer = 1
      ∧ (x.txSeq + 65536 - 0 % 65536 % 65536) % 65536 ≤ x.held.length ∧ ¬ (x.txSeq + 65536 - 3 % 65536 % 65536) % 65536 ≤ x.held.length)
    ∧ min 16 ((up { st := 4 }).trains + 1) < 16
    ∧ (up { kept := true, st := 7 }).kept = true
    ∧ (let c := fun (sp : LaneS) => consume 8 { trlS { st := 5 } with lane := { rig.lane with lanes := [(52, sp)] } }
      (trlOf (c {}) 2).spareA = none ∧ spareSends (c { st := 4 }) 2 0 = true ∧ spareSends (c { st := 5 }) 2 0 = false)
    ∧ (up { st := 5, spareA := some rx }).spareA = some rx ∧ (up { st := 5, spareA := some { rx with rx := false } }).spareA = some { rx with rx := false }
    ∧ regFld (regPut rig aTrlCfg (word (2 ^ 32))) aTrlCfg 43 32 = 1 ∧ trlQuiet (trlS { st := 5 }) 2 = true ∧ (up { st := 5 }).idle = 0
    ∧ trlQuiet (pqPut 8 { q := [recOf 1 2 (.io 1 16)] } (trlS { st := 5 })) 2 = false ∧ 0 < (up { st := 5 }).busyAt + 1000
    ∧ (up { st := 5, idle := 1 }).idle = 1 ∧ (pqOf (consume 8 (trlS { st := 5, idle := 1 })) 8).q = [] ∧ (up { st := 6 }).st = 6
    ∧ (up { st := 2 }).st = 2 ∧ (0x4000 + 0x2000) / 2 ^ 14 % 4 = 1 ∧ (0x4000 + 0x2000) / 2 ^ 12 % 4 = 2 := by
  decide

/-! ### Emmor -/

/-- The rig whose Emmor runs the command op, with arguments that hold the fused serial number. -/
def emrS (l : Life) (op : Nat) (args : List Byte) : State := { rig with emr := { EmrSt.reset with
  life := l, busy := true, op := op, cmdbuf := memWrite [] 0 args, wrapped := some 1, chains := [(0, [1])] } }

/-- EmmorCommandsAndAlarms, commands: one that runs and none; each lifecycle state on either side of its row; arguments at the ends of their ranges; a full log.
(A chain that passes R457 is one that the opaque check of Config accepts: no state shows that.) -/
theorem wit_EmmorCommandsAndAlarms_commands :
    let key := emrS .provisioned 3 [5]
    rig.emr.busy = false ∧ key.emr.busy = true ∧ key.emr.life = .provisioned ∧ rig.emr.life = .manufacture ∧ key.emr.log.length < 1024
    ∧ leNat (memRead key.emr.cmdbuf 0 1) = 5 ∧ (sget ({} : KeySlot) key.emr.keys 5).st = 0 ∧ leNat (memRead (emrS .provisioned 3 [6]).emr.cmdbuf 0 1) = 6
    ∧ (sget ({} : KeySlot) [(5, ({ st := 2 } : KeySlot))] 5).st ≠ 0
    ∧ leNat (memRead (emrS .sealed 4 [0x11]).emr.cmdbuf 0 1) = 0x11 ∧ bit (word key.emr.fwRev) (0x11 - 0x11) = false ∧ bit (word 1) (0x11 - 0x11) = true
    ∧ leNat (memRead (emrS .sealed 5 [4, 0, 0, 0, 7]).emr.cmdbuf 4 4) = 7 ∧ leNat (memRead (emrS .sealed 5 [4, 0, 0, 0, 7]).emr.cmdbuf 0 1) = 4
    ∧ (sget ({} : KeySlot) (emrS .sealed 5 []).emr.keys 4).minSvn ≤ 7
    ∧ sfind? (emrS .provisioned 6 []).emr.chains 0 ≠ none := by
  decide

/-- EmmorCommandsAndAlarms: a full log. -/
theorem wit_EmmorCommandsAndAlarms_full (e : LogEnt) : 1024 ≤ (List.replicate 1024 e).length := Nat.le_of_eq List.length_replicate.symm

/-- EmmorCommandsAndAlarms: arguments that name the serial number. -/
theorem wit_EmmorCommandsAndAlarms_serial (l : Life) (op : Nat) :
    memRead (emrS l op serialBytes).emr.cmdbuf 0 8 = leBytes 8 Config.serial.toNat :=
  memRead_memWrite serialBytes [] 0

/-- The bytes of a settings image with the default partitions, no tile in use and the I3C path open. -/
def goodImg : Memory := memWrite (memWrite [] 0 (leBytes 8 (64 * 2 ^ 32 + 8 * 2 ^ 24 + 4 * 2 ^ 16))) 0x2D02 [1]

/-- EmmorCommandsAndAlarms: stored settings that SEAL takes, and none. -/
theorem wit_EmmorCommandsAndAlarms_image :
    let s : State := { rig with pwr := { rig.pwr with copyA := { ok := true, gen := 1, bytes := goodImg } } }
    imageOk (activeImg s) = true ∧ pathsOk (activeImg s) = true ∧ imageOk (activeImg rig) = false := by decide

/-- EmmorCommandsAndAlarms, alarms: a sensor that is watched and one that is not, one that holds; GRAVE; a warm reset that is due; the test access port. -/
theorem wit_EmmorCommandsAndAlarms_alarms :
    let watched := regPut rig aAlarmCfg (word (2 ^ 63 + 7))
    let held : State := { watched with emr := { watched.emr with sense := 4 } }
    bit (regGet watched aAlarmCfg) 2 = true ∧ bit (regGet (regPut rig aAlarmCfg 0) aAlarmCfg) 2 = false ∧ bit (word watched.emr.sense) 2 = false
    ∧ bit (word held.emr.sense) 2 = true ∧ regFld watched aAlarmCfg 63 63 = 1 ∧ watched.emr.life ≠ .decommissioned ∧ rig.emr.resetDue = none
    ∧ rig.pwr.pwrOk = true ∧ jtagOk rig 0x20 = true ∧ jtagOk rig 0x21 = true ∧ jtagOk (emrS .decommissioned 0 []) 0x20 = false
    ∧ State.reset.pwr.pwrOk = false ∧ rig.emr.log.length < 1024 ∧ rig.emr.life ≠ .sealed ∧ rig.flt.terminal = false ∧ rig.pwr.writing = false := by
  decide

/-- The number of a token of kind 0 for the device with serial number n, with nonce 0 and boot count 0. -/
def tokNat (n : Nat) : Nat := 0x54445A4B + 2 ^ 32 + n * 2 ^ 64

theorem tokNat_lt {n : Nat} (h : n < 2 ^ 64) : tokNat n < 2 ^ 128 := by unfold tokNat; omega

theorem tokNat_fields {n : Nat} (h : n < 2 ^ 64) :
    tokNat n / 2 ^ (8 * 0) % 2 ^ (8 * 4) = 0x54445A4B ∧ tokNat n / 2 ^ (8 * 4) % 2 ^ (8 * 2) = 1 ∧ tokNat n / 2 ^ (8 * 6) % 2 ^ (8 * 1) = 0
    ∧ tokNat n / 2 ^ (8 * 7) % 2 ^ (8 * 1) = 0 ∧ tokNat n / 2 ^ (8 * 8) % 2 ^ (8 * 8) = n := by unfold tokNat; omega

theorem tokNat_high {n : Nat} (h : n < 2 ^ 64) (o k : Nat) (ho : 128 ≤ 8 * o) : tokNat n / 2 ^ (8 * o) % 2 ^ (8 * k) = 0 := by
  rw [Nat.div_eq_of_lt (Nat.lt_of_lt_of_le (tokNat_lt h) (Nat.pow_le_pow_right Nat.two_pos ho)), Nat.zero_mod]

/-- Such a token. -/
def goodToken : BitVec 8192 := BitVec.ofNat 8192 (tokNat Config.serial.toNat)

theorem goodToken_toNat : goodToken.toNat = tokNat Config.serial.toNat :=
  (BitVec.toNat_ofNat ..).trans (Nat.mod_eq_of_lt (Nat.lt_of_lt_of_le (tokNat_lt Config.serial.isLt) (Nat.pow_le_pow_right Nat.two_pos (by decide))))

/-- EmmorCommandsAndAlarms: a token that passes every check of its form. (That its signature verifies is the opaque check of Config.) -/
theorem wit_EmmorCommandsAndAlarms_token :
    let s := regPut { rig with emr := { rig.emr with life := .sealed, nonce := some 0 } } aDbgCfg 4
    let f := fun (o k : Nat) => goodToken.toNat / 2 ^ (8 * o) % 2 ^ (8 * k)
    s.emr.life = .sealed ∧ f 0 4 = 0x54445A4B ∧ f 4 2 = 1 ∧ f 6 1 = 0 ∧ bit (word (regFld s aDbgCfg 3 2)) 0 = true ∧ f 7 1 = 0 ∧ f 8 8 = Config.serial.toNat
    ∧ f 0x10 4 = s.pwr.boots % 2 ^ 32 ∧ f 0x14 12 = 0 ∧ f 0x40 448 = 0 ∧ s.emr.nonce = some (f 0x20 32) := by
  have hs : Config.serial.toNat < 2 ^ 64 := Config.serial.isLt
  have ⟨h0, h4, h6, h7, h8⟩ := tokNat_fields hs
  have hz := fun o k h => tokNat_high hs o k h
  have hb : rig.pwr.boots % 2 ^ 32 = 0 := by decide
  simp only [goodToken_toNat]
  exact ⟨rfl, h0, h4, h6, by decide, h7, h8, (hz 0x10 4 (by decide)).trans hb.symm, hz _ _ (by decide), hz _ _ (by decide),
    congrArg some (hz 0x20 32 (by decide)).symm⟩

/-- SpdmResponder: a mailbox that is not busy; each state of the connection; an identity with a chain and none; sessions opened, secured and at their limits; a stream
whose requester is the host and one whose requester is the device. -/
theorem wit_SpdmResponder :
    let mb := fun (k : Nat) => ({ busy := true, spdm := k } : DoeMb)
    let idS : State := { rig with emr := { EmrSt.reset with
      life := .provisioned, idok := true, chains := [(0, [1, 2])], sessions := [{ mb := 0, id := 7, est := true, time := 0 }, { mb := 0, id := 8, est := false, time := 0 }] } }
    let full : State := { idS with emr := { idS.emr with sessions := (List.range 4).map (fun k => { mb := 0, id := k, est := false, time := 0 }) } }
    (sget ({} : DoeMb) rig.cxp.doe 0).busy = false ∧ (∀ k ∈ List.range 4, (mb k).busy = true) ∧ (mb 0).spdm < 1 ∧ (mb 1).spdm < 2 ∧ (mb 2).spdm < 3 ∧ 3 ≤ (mb 3).spdm
    ∧ hasId rig = false ∧ hasId idS = true ∧ idS.emr.chains.find? (fun c => c.1 == 0) = some (0, [1, 2]) ∧ idS.emr.chains.find? (fun c => c.1 == 1) = none
    ∧ measure rig 11 = none ∧ (measure rig 5).isSome = true ∧ (idS.emr.sessions.filter (fun x => x.mb == 0)).length < 4 ∧ 4 ≤ (full.emr.sessions.filter (fun x => x.mb == 0)).length
    ∧ (∃ x ∈ idS.emr.sessions, x.mb = 0 ∧ x.id = 7 ∧ x.est = true) ∧ (∃ x ∈ idS.emr.sessions, x.mb = 0 ∧ x.id = 8 ∧ x.est = false)
    ∧ (∀ x ∈ idS.emr.sessions, ¬ (x.mb = 0 ∧ x.id = 9))
    ∧ portOfVcs? rig (mbVcs 0) = some 0 ∧ portOfVcs? rig (mbVcs 63) = none ∧ ideRequester rig 0 = false
    ∧ ideRequester { rig with dom := { rig.dom with vcsOf := [(4, 1)] } } 4 = true
    ∧ (let x : CxpPort := { keys := [(0, 5)] }
      sfind? x.keys 0 ≠ none ∧ sfind? x.keys 7 = none) := by
  decide

/-! ### Management -/

/-- The rig with the I3C path open. -/
def mgmtS : State := { rig with mgt := { rig.mgt with i3c := true, dynAddr := some 9, asm := none } }

theorem wit_served : Serving mgmtS ∧ pathOpen mgmtS false = true := ⟨⟨by decide, rfl, rfl⟩, by decide⟩

/-- ManagementBusCommands: a device held in reset and one that answers; an address given and none; the SMBus target and the I3C target. -/
theorem wit_ManagementBusCommands :
    alive State.reset = false ∧ alive rig = true ∧ rig.mgt.dynAddr = none ∧ mgmtS.mgt.dynAddr = some 9 ∧ rig.mgt.i3c = false ∧ mgmtS.mgt.i3c = true
    ∧ rig.mgt.saddr = 0x62 ∧ (0x62 : Fin 128).val = rig.mgt.saddr ∧ (0x63 : Fin 128).val ≠ rig.mgt.saddr := by decide

/-- StandardManagementCommands: a closed path, TERMINAL, a device that is not ready, one that serves; limits at the ends of the range; ports 95 and 96; a VCS with a
port and one with none. -/
theorem wit_StandardManagementCommands :
    let term : State := { mgmtS with flt := { mgmtS.flt with terminal := true } }
    let early : State := { mgmtS with pwr := { mgmtS.pwr with devReady := false } }
    let b := icuEdge 7384 (idleExit 7384 mgmtS)
    pathOpen rig false = false ∧ pathOpen rig true = false ∧ (pathOpen term false = true ∧ alive term = true ∧ term.flt.terminal = true)
    ∧ (pathOpen early false = true ∧ early.flt.terminal = false ∧ early.pwr.devReady = false) ∧ (8 : Fin 256).val = 8 ∧ (20 : Fin 256).val = 20
    ∧ (∃ p ∈ [96], 96 ≤ p) ∧ (∀ p ∈ [95], p < 96) ∧ portOfVcs? b 0 = some 0 ∧ portOfVcs? b 63 = none ∧ (∀ q ∈ b.dom.vppb, q.1 / 256 = 1 → q.2 = none) := by
  decide

/-- ManagementOfPortsAndBindings: ports that exist and do not, enabled and disabled; a register written before; a vPPB bound to each kind of target and free; a removal
that is under way; a device port with its link up. -/
theorem wit_ManagementOfPortsAndBindings :
    let b := fun (s : State) => icuEdge 7384 (idleExit 7384 s)
    let free : State := { mgmtS with dom := { mgmtS.dom with devs := [] } }
    subPortExists (b mgmtS) 5 = false ∧ subPortExists (b mgmtS) 4 = true ∧ isTrlPort (b mgmtS) 4 = false ∧ portOff (b mgmtS) 4 = false
    ∧ portOff (b (cxpPut 4 { cxpOf mgmtS 4 with off := true } mgmtS)) 4 = true ∧ (cxpOf (b mgmtS) 4).link ≠ 4
    ∧ sfind? (b { mgmtS with mgt := { mgmtS.mgt with cfg := [(4 * 4096 + 4095, 7)] } }).mgt.cfg (4 * 4096 + 4095) = some 7
    ∧ (domOf (b mgmtS) 0).st ≠ .free ∧ portOfVcs? (b mgmtS) 63 = none ∧ portOfVcs? (b mgmtS) 0 = some 0 ∧ sget none (b mgmtS).dom.vppb (0 * 256 + 3) ≠ none
    ∧ sget none (b mgmtS).dom.vppb (0 * 256 + 255) = none ∧ placeTaken (b mgmtS) (4, none) = true
    ∧ (portRole (b free) 4 = 2 ∧ noLd (4, none) 0 = false ∧ placeTaken (b free) (4, none) = false ∧ exported (b free) 4 = false ∧ vppbsBound (b free) < 1024)
    ∧ sget none (b mgmtS).dom.vppb (0 * 256 + 3) = some (.kmd 1)
    ∧ sget none (b { mgmtS with dom := { mgmtS.dom with vppb := [(4, some (.port 4))] } }).dom.vppb (0 * 256 + 4) = some (.port 4)
    ∧ (∃ r ∈ (b { mgmtS with dom := { mgmtS.dom with removals := [{ vcs := 0, vppb := 3, dom := 1, waits := [], phase := 0 }] } }).dom.removals, r.vcs = 0 ∧ r.vppb = 3)
    ∧ (b mgmtS).dom.removals = [] ∧ portRole (b mgmtS) 4 = 2 ∧ linkUp (b mgmtS) 4 = true ∧ portRole (b mgmtS) 0 ≠ 2 := by
  decide

/-- FabricManagerVendorCommands: descriptors of a form, of none and of the wrong length; slots in each state and beyond the last one; domains with an instance and with
none; rings of each portal, full, empty and with an entry. -/
theorem wit_FabricManagerVendorCommands :
    let b := fun (s : State) => icuEdge 7384 (idleExit 7384 s)
    let withRing := fun (r : Ring) => ({ mgmtS with ring := { rings := [(1023, r)] } } : State)
    (∃ x ∈ fxTable, x.1.fn = 0x22 ∧ x.1.form = 1 ∧ x.1.words = 2) ∧ (∀ x ∈ fxTable, x.1.fn ≠ 0xFFFF) ∧ (∃ x ∈ fxTable, x.1.fn = 0x22 ∧ x.1.slot = .posts)
    ∧ (∀ st ∈ [0, 1, 2], (slotOf (b (slotPut 4095 { st := st } mgmtS)) 4095).st = st)
    ∧ (domOf (b mgmtS) 1).kmd = true ∧ (domOf (b mgmtS) 2).kmd = false ∧ (domOf (b mgmtS) 1).st = .active ∧ (domOf (b mgmtS) 2).st ≠ .active
    ∧ spanOf (domOf (b mgmtS) 1) * 128 < 383 + 2
    ∧ (ringOf (b mgmtS) 1023).en = false ∧ (ringOf (b (withRing { en := true, portal := 3 })) 1023).portal = 3
    ∧ posDiff (ringOf (b (withRing { en := true, portal := 3, w := 16 })) 1023).w 0 = ringCap (ringOf (b (withRing { en := true, portal := 3 })) 1023)
    ∧ (let r := ringOf (b (withRing { en := true, portal := 4, w := 1 })) 1023
      r.en = true ∧ r.portal = 4 ∧ r.rd ≠ r.w ∧ r.bad.contains r.rd = false)
    ∧ (ringOf (b (withRing { en := true, portal := 4, w := 1, bad := [0] })) 1023).bad.contains 0 = true := by
  decide

/-- MemoryCommandsAndConsole: each range at its end; a refused line; a word with an error; an aperture access within one line; the console where it is open, and a
locked line. -/
theorem wit_MemoryCommandsAndConsole :
    let b := icuEdge 7384 (idleExit 7384 mgmtS)
    let lock : State := { mgmtS with gate := { mgmtS.gate with locks := [(0, { en := true, base := 0x10FFFFC0, limit := 0x10FFFFC0 })] } }
    let c := icuEdge 7384 (idleExit 7384 lock)
    0x10FFFFC0 + 64 ≤ 0x11000000 ∧ dasCheck b 0x10FFFFC0 64 .p1 .r = none ∧ (dasCheck c 0x10FFFFC0 64 .p1 .w).isSome = true ∧ rangeBad b 0x10FFFFC0 64 = false
    ∧ rangeBad { b with flg := { b.flg with bad := [0x10FFFFF8] } } 0x10FFFFC0 64 = true ∧ dasCheck b 0x24400000 8 .p1 .w = none
    ∧ (0x800000000000 + 2 ^ 34) / 2 ^ 34 % 4096 = 1 ∧ (0x800000000000 + 2 ^ 34) / 2 ^ 34 = (0x800000000000 + 2 ^ 34 + 64 - 1) / 2 ^ 34
    ∧ daCheck b 1 0 64 .p1 .r true = none ∧ (daCheck b 2 0 64 .p1 .r true).isSome = true
    ∧ mgmtS.emr.life = .manufacture ∧ (∃ l ∈ linesOf 0x10FFFFC0 8, lockedLine lock l = true) ∧ (∀ l ∈ linesOf 0x10FFFF80 8, lockedLine lock l = false) := by
  decide

/-- The bytes of a program image of one instruction for core 63, whose signature is 512 zeros. -/
def progImg : List Byte := leBytes 4 0x46505A4B ++ leBytes 2 1 ++ leBytes 1 2 ++ leBytes 1 1 ++ leBytes 4 4 ++ leBytes 4 0 ++ leBytes 16 0 ++ leBytes 8 (2 ^ 63)
  ++ leBytes 600 0

set_option maxRecDepth 20000 in
/-- FirmwareAndRecordCommands: an image whose header passes R313 and is assigned to core 63 (that its signature verifies is the opaque check of Config). -/
theorem wit_FirmwareAndRecordCommands_image :
    let m := memWrite [] 0 progImg
    progForm m 644 = true ∧ bit (imgWord m 0x20) 63 = true
    ∧ policyCore { mgmtS with pwr := { mgmtS.pwr with bootImg := memWrite [] 0x2D08 (leBytes 8 (2 ^ 63)) } } 63 = true ∧ progForm [] 644 = false := by
  decide

/-- FirmwareAndRecordCommands: an assembly of the other path and of this one; sectors of the boot flash that are free, locked, begun and beyond its end; a write that
runs. -/
theorem wit_FirmwareAndRecordCommands :
    let b := fun (f : MgtSt → MgtSt) => icuEdge 7384 (idleExit 7384 { mgmtS with mgt := f mgmtS.mgt })
    (∃ x, (b (fun m => { m with asm := some { core := 63, path := 1, len := 8 } })).mgt.asm = some x ∧ x.core = 63 ∧ x.path ≠ b2n false)
    ∧ (∃ x, (b (fun m => { m with asm := some { core := 63, path := 0, len := 8 } })).mgt.asm = some x ∧ x.core = 63 ∧ x.len = 8)
    ∧ (b id).mgt.asm = none ∧ (b id).mgt.flashRun = false ∧ (b (fun m => { m with flashRun := true })).mgt.flashRun = true
    ∧ (b id).mgt.flashLen = 0x4000000 ∧ (b id).mgt.runSlot = none ∧ (b (fun m => { m with runSlot := some 1 })).mgt.runSlot = some 1
    ∧ (0x3FF0000 / 65536 ∈ (b (fun m => { m with flashOp := [0x3FF], flashPos := 0x3FF0008 })).mgt.flashOp) ∧ 0x3FF0008 / 65536 = 0x3FF0000 / 65536
    ∧ (b id).emr.log.length < 1024 ∧ (b id).dlr.moves = [] ∧ (b id).dlr.cars = [] ∧ (readRecs (b id))[0]? = none
    ∧ Memory.wf (memWrite [] 65535 [1]) = true :=
  ⟨⟨_, rfl, by decide, by decide⟩, ⟨_, rfl, by decide, by decide⟩, by decide, by decide, by decide, by decide, by decide, by decide, by decide, by decide, by decide,
    by decide, by decide, by decide, by decide⟩

/-- TenantMailboxCommands: a host that presents the instance and one that does not; records of this boot; rings of the instance, full, empty and with an entry;
registers at the ends of the configuration space and of BAR0. -/
theorem wit_TenantMailboxCommands :
    let withRing := fun (r : Ring) => ({ rig with ring := { rings := [(1023, r)] } } : State)
    let rec_ : State := { rig with emr := { rig.emr with recs := [some {}] } }
    (presenters rig 1).contains 0 = true ∧ portOfVcs? rig 0 = some 0 ∧ linkUp rig 0 = true ∧ (presenters rig 1).contains 63 = false
    ∧ (readRecs rig)[0]? = none ∧ ((readRecs rec_)[0]?).isSome = true
    ∧ rig.ring.rings = [] ∧ domRing (withRing { en := true, portal := 1, dom := 1 }) 1 1 = some 1023 ∧ domRing (withRing { en := true, portal := 2, dom := 1 }) 1 2 = some 1023
    ∧ posDiff (ringOf (withRing { en := true, portal := 1, w := 16 }) 1023).w 0 = ringCap (ringOf (withRing { en := true, portal := 1, w := 16 }) 1023)
    ∧ (ringOf (withRing { en := true, portal := 2, w := 1 }) 1023).rd ≠ 1 ∧ (BitVec.ofNat 128 celUuid).toNat = celUuid
    ∧ sfind? ({ rig.mgt with cfg := [((400000 + 1) * 4096 + 4095, 5)] }).cfg ((400000 + (0 * 4096 + 1)) * 4096 + 4095) = some 5 := by
  decide

/-! ### Slot power, power and resets, registers, the test access port, the Oasis, the step -/

/-- The rig with slot controller 0 as y: feed B fitted and preferred, retries on, FEED_UV 1,000 and FEED_WARN 1,100, trips at 20 (breaker), 40 (ramp) and 80 (fast);
pool port 4 has slot 0. -/
def spcS (y : Spc) : State := { rig with
  spc := [(0, y)]
  regs := [(aCxpPortCfg 4, 2 ^ 8), (aSpcCfg 0 0, word (7 * 2 ^ 60 + 80 * 2 ^ 46 + 20 * 2 ^ 38 + 40 * 2 ^ 30)), (aSpcCfg 0 1, word (1000 * 2 ^ 53 + 1100 * 2 ^ 42))] }

/-- SlotPowerControllers: a controller in each state; a card that seats, with a feed and without; a feed that comes, goes, falls short; full enhancement at its
level; each trip at its threshold and below; a retry that is left and none; the switchover. -/
theorem wit_SlotPowerControllers :
    let f := fun (y : Spc) => spcOf (spcS y) 0
    let on : Spc := { st := 3, gate := true, full := true, pg := true, validA := true, meas := (0, 1200, 1200, 1200), prsnt := true, seated := true }
    let c := fun (k hi lo : Nat) => spcCfg (spcS on) 0 k hi lo
    f on = on ∧ spcPorts (spcS on) 0 = [4] ∧ (devOf (spcS on) 0).bound = true ∧ (devOf (spcS on) 0).port = 4 ∧ srcEdge 7328 (srcOf (spcS on) 7328) = false
    ∧ c 0 62 62 = 1 ∧ feedUv (spcS on) 0 = 1000 ∧ spcPri (spcS on) 0 = true ∧ c 0 53 46 = 80 ∧ c 0 37 30 = 40 ∧ c 0 45 38 = 20 ∧ c 1 52 42 = 1100
    ∧ (spcS on).pwr.pwrOk = true ∧ (f { st := 1, prsnt := true, seated := true, validB := true }).seated = true
    ∧ feedOk (spcS on) 0 { validB := true } true = true ∧ feedOk (spcS on) 0 { validA := true } false = true ∧ feedOk (spcS on) 0 {} true = false
    ∧ feedOk (spcS on) 0 on on.feed = true ∧ feedOk (spcS on) 0 { on with validA := false, validB := true } (!on.feed) = true
    ∧ (on.feed ≠ spcPri (spcS on) 0 ∧ feedOk (spcS on) 0 { on with validB := true } true = true)
    ∧ (let z := f { st := 2, gate := true, armed := true, meas := (0, 0, 1000, 0) }
      95 * z.feedV z.feed ≤ 100 * 950 ∧ ¬ 95 * z.feedV z.feed ≤ 100 * 949 ∧ z.armed = true ∧ 10 * c 0 37 30 ≤ 400 ∧ ¬ 10 * c 0 37 30 ≤ 399)
    ∧ (f { st := 4 }).gate = false ∧ on.armed = false ∧ on.timer = false ∧ 10 * c 0 45 38 ≤ 200 ∧ ¬ 10 * c 0 45 38 ≤ 199 ∧ 10 * c 0 53 46 ≤ 800
    ∧ (f { on with timer := true }).timer = true ∧ (f { st := 0 }).gate = false ∧ max ((f {}).feedV false) ((f {}).feedV true) < 10 * 1
    ∧ (f { st := 5, retries := 7 }).st = 5 ∧ (f { st := 1 }).st = 1 ∧ (f { st := 6 }).st = 6 ∧ (f { on with ew := true }).ew = true ∧ on.retries < 7 := by
  decide

/-- The rig at boot step k. -/
def bootAt (k : Nat) : State := { rig with pwr := { rig.pwr with step := k, progress := k - 1, devReady := false } }

/-- A boot step runs. -/
def bootRuns (s : State) : Bool :=
  alive s && !s.pwr.stopped && !s.flt.terminal && s.pwr.resetReq == 0 && (s.pwr.step == 1 || !(scanHolds s))

/-- BootPowerAndResets: power low and high; a block write; TERMINAL; a reset that is asked for; each boot step with what it reads: known-answer tests, lifecycle copies,
an identity, a slot that does not read, a component whose image is malformed, codes of the Oasis, failed writes, slots, host ports; device idle. (A slot
that passes and a component that is signed rest on the opaque checks of Config.) -/
theorem wit_BootPowerAndResets :
    let life := fun (l r : LifeCopy) (w : Option Nat) => { bootAt 1 with emr := { (bootAt 1).emr with copies := (l, r), wrapped := w, secret := w } }
    State.reset.pwr.pwrOk = false ∧ rig.pwr.pwrOk = true ∧ rig.pwr.writing = false ∧ rig.pwr.resetN = true ∧ rig.pwr.warmN = true ∧ rig.flt.terminal = false
    ∧ ({ rig with pwr := { rig.pwr with writing := true, resetReq := 1 } } : State).pwr.writing = true ∧ rig.flt.devpend = false
    ∧ (∀ k ∈ [1, 2, 3, 4, 5, 6, 7, 8], bootRuns (bootAt k) = true) ∧ rig.pwr.step = 9
    ∧ lifeRead (life ⟨0, 0, false⟩ ⟨0, 0, false⟩ none) = none ∧ lifeRead (life ⟨9, 3, true⟩ ⟨8, 1, true⟩ none) ≠ none
    ∧ lifeRead (life ⟨1, 4, true⟩ ⟨0, 0, false⟩ none) = some .decommissioned
    ∧ lifeRead (life ⟨1, 1, true⟩ ⟨0, 0, false⟩ none) = some .provisioned
    ∧ lifeRead (bootAt 1) = some .manufacture ∧ (life ⟨1, 1, true⟩ ⟨0, 0, false⟩ (some 5)).emr.wrapped ≠ none
    ∧ slotCode (bootAt 2) false false = 1 ∧ slotCode (bootAt 2) true true ≠ 0 ∧ bootSlot (bootAt 2) = false
    ∧ comps { bootAt 3 with mgt := { rig.mgt with flash := [(7, 255)] } } false = [] ∧ runB (bootAt 3) = false ∧ comps (bootAt 3) false ≠ [] ∧ (∀ l ∈ [4, 644], progForm [] l = false)
    ∧ bootCopyOf { (bootAt 4).pwr.copyA with ok := false } { (bootAt 4).pwr.copyA with ok := false } = none
    ∧ (0b11#128).toNat / 4 ^ 0 % 4 = 3 ∧ (∀ n, n < 64 → (0b10#128).toNat / 4 ^ n % 4 ≠ 3) ∧ (0b10#128).toNat / 4 ^ 0 % 4 = 2
    ∧ (spcOf (bootAt 7) 0).st = 0 ∧ spcCfg (spcS {}) 0 0 63 63 = 0
    ∧ portRole (bootAt 8) 0 = 1 ∧ (cxpOf { bootAt 8 with cxp := { rig.cxp with ports := [(0, { perst := true })] } } 0).link = 0
    ∧ ({ rig with pwr := { rig.pwr with idle := true } } : State).pwr.idle = true
    ∧ (5 : Int) < (sval 8 (stackTemp { rig with oas := { rig.oas with therm := [(0, (1, 90))] } } 0) - sval 8 (subOf rig 0).temp).natAbs := by
  decide

/-- RegisterStoresFaultsAndMonitors: a field that takes its value, one beyond its range, one that is locked; sources of each scope, with severities that they take and
do not; INJECT on; a counter of TIME; bandwidth windows on, armed and off. -/
theorem wit_RegisterStoresFaultsAndMonitors :
    let inj := fun (v : Nat) => { rig with regs := [(aFltCfg, word (v * 2 ^ 63))] }
    (∃ d ∈ regTable, d.has aCohCfg = true ∧ d.fields.length = 4 ∧ ∃ f ∈ d.fields, f.min = 1 ∧ f.max = 4000 ∧ f.hi = 51)
    ∧ aCohCfg ∉ [aDlrHeatThr, aPaceCfg, aOasRetrain, aIcuFallback, aAlarmCfg] ∧ (∃ d ∈ regTable, d.has aDbgCfg = true ∧ ∃ f ∈ d.fields, f.rwl = true)
    ∧ aDbgCfg ∉ [aDlrHeatThr, aPaceCfg, aOasRetrain, aIcuFallback, aAlarmCfg] ∧ aCxpRt 0 ≠ aDbgCfg ∧ ¬ (0x25200000 ≤ aDbgCfg ∧ aDbgCfg < 0x25200200)
    ∧ ¬ (aCxpRt 0 ≤ aDbgCfg ∧ aDbgCfg < aCxpRt 4096) ∧ ({ rig with emr := { rig.emr with life := .sealed } } : State).emr.life = .sealed
    ∧ fltInfo 2047 = none ∧ fltInfo 34 = some (.port, 0, 0) ∧ fltInfo 35 = some (.domain, 2, 2) ∧ sevOk 35 1 = false ∧ sevOk 35 2 = true ∧ sevOk 35 5 = false
    ∧ sevOk 0 2 = false ∧ sevOk 193 3 = false ∧ srcEdge (5120 + 35) (srcOf rig (5120 + 35)) = false
    ∧ regFld (inj 1) aFltCfg 63 63 = 1 ∧ regFld (inj 0) aFltCfg 63 63 = 0 ∧ rig.flt.devpend = false
    ∧ (let c : Cnt := { cfg := word (2 ^ 63 + 0xC001 * 2 ^ 32), value := 5 }
      bit c.cfg 63 = true ∧ bit c.cfg 62 = false ∧ fld c.cfg 47 32 = 0xC001 ∧ bit c.cfg 15 = false ∧ bit c.cfg 7 = false ∧ c.value + ((0 / 1000 + 1) * 1000 - 0) < 2 ^ 48)
    ∧ (bwOf { rig with pmu := { rig.pmu with bw := [(0, { en := true, armed := true })] } } 0).armed = true
    ∧ (bwOf { rig with pmu := { rig.pmu with bw := [(0, { en := true })] } } 0).en = true ∧ (bwOf rig 0).en = false := by
  decide

/-- TestAccessPort: lifecycle states that accept the debug port and do not; a locked line; addresses at the ends of the three cases; a shared access that the Gate allows,
and one that it refuses; a bad word. -/
theorem wit_TestAccessPort :
    let t := { rig with tap := { rig.tap with ir := 0x22 } }
    let lock := { t with gate := { t.gate with locks := [(0, { en := true, base := 0x10000000, limit := 0x10000040 })] } }
    rig.emr.life = .manufacture ∧ alive rig = true ∧ regFld rig aDbgCfg 0 0 = 0 ∧ State.reset.pwr.pwrOk = false
    ∧ linesOf 0x10000040 8 = [0x10000040] ∧ lockedLine lock 0x10000040 = true ∧ lockedLine t 0x10000040 = false
    ∧ (0x10000000 ≤ 0x10FFFFC0 ∧ 0x10FFFFC0 + 64 ≤ 0x11000000) ∧ (0x10FFFFC1 < 0x11000000 ∧ 0x11000000 < 0x10FFFFC1 + 64)
    ∧ dasCheck t 0x10000040 8 .p1 .r = none ∧ (dasCheck { t with gate := { denyS.gate with heads := [(dasList, { count := 1, head := 5 })] } } 0x10FFFFC0 8 .p1 .w).isSome
    ∧ rangeBad t 0x10000040 8 = false ∧ rangeBad { t with flg := { t.flg with bad := [0x10000040] } } 0x10000040 8 = true := by
  decide

/-- OasisOperation: a stack in each band; eyes on both sides of EYE_MIN; the last full-load millisecond; a queued subchannel, a training one at its last step and before
it; a third failure; lines patrolled in each area; a line corrected on two passes; queued reads and writes. -/
theorem wit_OasisOperation :
    let o := fun (f : OasSt → OasSt) => { rig with oas := f rig.oas }
    let r : Req := { mkReq 7 (.host 0 0 1) .rdS 1 (2 ^ 28) .priv with phase := .oasisRd 3 0x150000040 }
    regFld rig aOasCfg 55 48 = 8 ∧ regFld rig aOasCfg 44 40 = 5 ∧ regFld rig aOasCfg 38 32 = 70 ∧ regFld rig aOasCfg 30 24 = 30
    ∧ (5 : Int) < ((106 : Int) - sval 8 (subOf rig 0).temp).natAbs ∧ ((106#8).toInt = 106 ∧ (0x80#8).toInt = -128) ∧ (sget (0, 0) rig.oas.therm 0).1 ≠ 3
    ∧ ((subOf (o (fun x => { x with subs := [(2, { light := true, fullMs := 9999 })] })) 2).light = true
      ∧ (subOf (o (fun x => { x with subs := [(2, { light := true, fullMs := 9999 })] })) 2).fullMs = 9999)
    ∧ (o (fun x => { x with queue := [5] })).oas.queue = 5 :: [] ∧ (o (fun x => { x with active := some (5, 63) })).oas.active = some (5, 63)
    ∧ (subOf (o (fun x => { x with subs := [(5, { fails := 2, retry := 9 })] })) 5).fails = 2
    ∧ (subOf (o (fun x => { x with subs := [(5, { fails := 2, retry := 9 })] })) 5).retry ≠ 0
    ∧ (let l := 0x150000040 % 2 ^ 38 / 64
      let s := o (fun x => { x with patrolNew := [l], patrolAt := l + 1 })
      l < s.oas.patrolAt ∧ l ∈ s.oas.patrolNew ∧ 0x150000000 ≤ 64 * l ∧ 64 * l < 0x3FFE000000 ∧ s.oas.retired.length < 4096)
    ∧ (rig.dlr.cars = [] ∧ sfind? rig.dlr.tlb 1024 = none ∧ (domOfIdx rig 1024).isSome)
    ∧ (rdQ (o (fun x => { x with chRd := [(3, [{ oa := 0x150000040, req := 7, wr := none }])] })) 3).length = 1
    ∧ (wrQ (o (fun x => { x with chWr := [(3, [{ oa := 0x150000040, req := 7, wr := some ({ tag := 1, scr := false }, 1) }])] })) 3).length = 1
    ∧ (reqOf { rig with reqs := [r] } 7).isSome ∧ r.fetch = false ∧ (oasNow rig 0x150000040).scr = true
    ∧ (oasNow (o (fun x => { x with lines := [(0x150000040 / 64, { tag := 2, scr := false })] })) 0x150000040).scr = false
    ∧ (oasNow (o (fun x => { x with lines := [(0x150000040 / 64, { tag := 2, scr := false })] })) 0x150000040).tag ≠ r.dom
    ∧ rdQ rig 3 = [] ∧ wrQ rig 3 = [] := by
  decide

/-- EveryStepAnswersSettled: the state after reset is settled; StepRunsFrontCommand: a device with nothing queued, unpowered and powered. -/
theorem wit_machine : Settled State.reset ∧ (State.reset.pending = [] ∧ State.reset.pwr.pwrOk = false) ∧ (rig.pending = [] ∧ rig.pwr.pwrOk = true) :=
  ⟨rfl, ⟨rfl, rfl⟩, rfl, rfl⟩

/-! ### Results that the specification's examples give -/

/-- R549: IDCODE answers 0x14860B6F. -/
theorem test_idcode : (match step { rig with pending := [.idcode] } with | .next t => t.out.head? | _ => none) = some (.resp .jtag 0 [0x14860B6F]) := by decide

/-- The example of spec/03_gate.md: two rules of domain 700. -/
def ruleS : State := { rig with gate := { rig.gate with
  rules := [(900, { valid := true, dom := 700, next := 901, p3 := 4, p2 := 4, p1 := 6, p0 := 6, start := 0x800000000, limit := 0x83FFFFFC0, gen := 1 }),
    (901, { valid := true, last := true, dom := 700, p1 := 4, p0 := 6, start := 0x840000000, limit := 0x84000FFC0, gen := 1 })]
  heads := [(700, { count := 2, head := 900 })] } }

theorem test_gate_words : [0x24207080, 0x24207088, 0x24207090, 0x24207098, 0x242070A0, 0x242070A8, 0x242070B0, 0x242070B8, 0x242815E0].map (devWord ruleS)
    = [0x8057800003854466, 0x0000000800000000, 0x000000083FFFFFC0, 0x0100000000000000, 0xA057800000000046, 0x0000000840000000, 0x000000084000FFC0,
      0x0100000000000000, 0x0000000200000384] := by decide

/-- The straddling write of that example is refused by slot 901 at its first line. -/
theorem test_gate_straddle :
    (match daVerdict ruleS 700 0x83FFFFFC0 .p1 .w false with | .allow => true | _ => false) = true
    ∧ daVerdict ruleS 700 0x840000000 .p1 .w false = .deny 901 ∧ daVerdict ruleS 700 0x800001000 .p3 .w false = .deny 900
    ∧ daVerdict ruleS 700 0x800001000 .p3 .r false = .allow ∧ daVerdict ruleS 700 0 .p3 .w false = .allow := by decide

/-- The example of spec/02_domains_and_binding.md: the words of domain 512 and of its window, and the map index of parcel 0x400. -/
theorem test_tenant :
    let d : Domain := { valid := true, st := .active, mapBase := 0x2000, privSize := 1024, qos := 12, hosts := 1, winCount := 1, kmd := true }
    let w : Window := { valid := true, mode := .priv, dom := 512, vcs := 5, hpa := 0x800, size := 1024, da := 0, gen := 1 }
    [0, 1, 2].map (domWord d) = [0x9080000000000000, 0x00000C0200010001, 0x0001000000000000]
    ∧ [0, 1].map (winWord w) = [0x8080050000000800, 0x0100800000000000] ∧ mapIdx (domPut 512 d rig) 512 0x400 = 0x800400 := by decide

/-- The example of spec/05_coherence.md: home slice and set of a line, and its snoop filter entry. -/
theorem test_home :
    let k := 700 * 2 ^ 40 + 0x20000040
    keyS k = 0x15A40 ∧ sliceOf k = 0 ∧ keyS k / 64 = 0x569
    ∧ sfWord { rig with coh := { rig.coh with
        sf := [(k, { st := .s, grp := false, agents := [3, 5], groups := 0, used := 0 })], lc := [(k, { data := 0, dirty := false, poison := false, way := 0, used := 0, wb := false })] } } k = 0x9501850057800400 := by
  decide

/-- The example of spec/08_oasis.md. -/
theorem test_channel : 0x150000000 + 0x4000 * 0x40000 + 0x16780 = 0x250016780 ∧ oaChannel 0x250016780 = 12 := by decide

/-- The example of spec/20_power_reset_nvm.md, on eight TRL tiles: a line cache of 68 MiB leaves enough packet pool, one of 80 MiB does not. -/
theorem test_partitions :
    let img := fun (lc : Nat) => memWrite (memWrite [] 0 (leBytes 8 (lc * 2 ^ 32 + 0x08040000) ++ List.replicate 24 2)) 0 []
    let ws := (List.range 24).map (fun n => if n % 3 = 0 then tileW 1 0 3 0 0 0 else 0)
    partOk (img 68) ws = true ∧ partOk (img 80) ws = false := by decide

/-- The branch of the example of spec/09_falgan_core.md goes from 0x10 to 0x08. -/
theorem test_branch :
    (match exec (.bne 0 7 0 0xFFE) (coreS { pc := 0x10, g := [(7, 1)] }) with | .next t => (coreOf t 0).pc | _ => 0) = 0x08 := by decide

/-- LIMM and LIMMH of that example build the base 0x2446_0000. -/
theorem test_limmh :
    (match exec (.limm 0 5 0x122) (coreS {}) with
      | .next t => (match exec (.limmh 0 5 0x60000) t with | .next u => gReg (coreOf u 0) 5 | _ => 0)
      | _ => 0) = 0x24460000 := by decide

/-- The example of spec/19_slot_power.md: the card seats 100 ms after PRSNT_N falls, and the ramp starts on feed A; a sense voltage of 6 mV in the ramp trips. -/
def slotS (y : Spc) : State := { rig with
  spc := [(7, y)]
  regs := [(aSpcCfg 7 0, word (2 ^ 63 + 50 * 2 ^ 54 + 200 * 2 ^ 46 + 62 * 2 ^ 38 + 24 * 2 ^ 30 + 60 * 2 ^ 21)), (aSpcCfg 7 1, word (1020 * 2 ^ 53 + 1100 * 2 ^ 42 + 24 * 2 ^ 35))] }

theorem test_slot_ramp :
    (match exec (.spcPresenceWaitExpire 7) (slotS { st := 1, prsnt := true, validA := true, meas := (0, 0, 1200, 0) }) with
      | .next t => ((spcOf t 7).st, (spcOf t 7).armed, (spcOf t 7).feed, t.time) | _ => (0, false, true, 0)) = (2, true, false, 100000000) := by decide

theorem test_slot_trip :
    let ramp : Spc := { st := 2, gate := true, armed := true, prsnt := true, seated := true, validA := true }
    let last := fun (mv : Fin 4096) => match exec (.shortInRamp 7 mv) (slotS ramp) with | .next t => ((spcOf t 7).st, (spcOf t 7).last) | _ => (0, 0)
    last 239 = (2, 0) ∧ (last 240).2 = 1 := by decide

end Sys2Proof.Tests
end

section
/-!
PROOFS. Falgan integer instructions (R261, R263): what an arithmetic instruction of a core that runs does to the state, the arithmetic of
the results that the model computes, and the two statements settled from them.
-/
namespace Sys2Proof.Proofs
open Sys2Proof.Machine Sys2Proof.Safety

/-! ### What an arithmetic instruction does to the state -/

/-- A legal arithmetic instruction of a core that runs retires with its value in gd. -/
theorem aluRun_retires {s : State} {n : Nat} (h : CoreRuns s n) (insn gd : Nat) (v : Core → Word) :
    Completes (finish (aluRun n insn gd true v s)) s (Retires s n gd (v (coreOf s n)) ((coreOf s n).pc + 4)) := by
  rw [aluRun, start_runs h, if_pos rfl]
  exact completes_retires (retireWith_retires h gd _)

/-- An arithmetic instruction with a bad unused field raises ILLEGAL (R260), with its own word as BADADDR. -/
theorem aluRun_illegal {s : State} {n : Nat} (h : CoreRuns s n) (hd : (coreOf s n).depth < 8) (insn gd : Nat) (v : Core → Word) :
    Completes (finish (aluRun n insn gd false v s)) s (Enters s n false 1 0 (coreOf s n).pc insn) := by
  rw [aluRun, start_runs h, if_neg Bool.false_ne_true]
  exact completes_enters (except_enters hd h.ask h.smp 1 0 insn)

/-- A register-register instruction retires with its result, the function of ga and gb, in gd. -/
theorem rrRun_retires {s : State} {n : Nat} (h : CoreRuns s n) (cls gd ga gb fn : Nat) {v : Word → Word → Word} {r : Word}
    (hv : v (gReg (coreOf s n) ga) (gReg (coreOf s n) gb) = r) :
    Completes (finish (rrRun n cls gd ga gb fn v s)) s (Retires s n gd r ((coreOf s n).pc + 4)) := by
  subst hv
  exact aluRun_retires h _ gd _

/-- An instruction of ga alone retires with the function of ga in gd, where gb is 0. -/
theorem rrOne_retires {s : State} {n : Nat} (h : CoreRuns s n) (gd ga fn : Nat) (v : Word → Nat) :
    Completes (finish (rrOne n gd ga 0 fn v s)) s
      (Retires s n gd (BitVec.ofNat 64 (v (gReg (coreOf s n) ga))) ((coreOf s n).pc + 4)) :=
  aluRun_retires h _ gd _

/-- An instruction of ga alone raises ILLEGAL where gb is not 0; its word is that of format RR in class 0. -/
theorem rrOne_illegal {s : State} {n gb : Nat} (h : CoreRuns s n) (hd : (coreOf s n).depth < 8) (hb : gb ≠ 0) (gd ga fn : Nat)
    (v : Word → Nat) :
    Completes (finish (rrOne n gd ga gb fn v s)) s
      (Enters s n false 1 0 (coreOf s n).pc (gd * 2 ^ 21 + ga * 2 ^ 15 + gb * 2 ^ 9 + fn)) := by
  have hw : encRR 0 gd ga gb fn = gd * 2 ^ 21 + ga * 2 ^ 15 + gb * 2 ^ 9 + fn := by simp only [encRR, at_]; omega
  rw [rrOne, beq_eq_false_iff_ne.2 hb, hw]
  exact aluRun_illegal h hd _ gd _

/-! ### ALU-RR: the values (R261) -/

/-- The shift count of a register: gb[5:0]. -/
theorem fld_shiftCount (b : Word) : fld b 5 0 = b.toNat % 64 := by simp [fld]

theorem boolWord_decide (p : Prop) [Decidable p] : boolWord (decide p) = if p then 1 else 0 := by
  by_cases hp : p <;> simp [boolWord, b2n, word, hp]

theorem boolWord_slt (a b : Word) : boolWord (a.slt b) = if a.toInt < b.toInt then 1 else 0 := boolWord_decide _

theorem boolWord_ult (a b : Word) : boolWord (a.ult b) = if a.toNat < b.toNat then 1 else 0 := boolWord_decide _

theorem clzOf_le (v : Nat) : ∀ m, clzOf m v ≤ m
  | 0 => Nat.le_refl 0
  | m + 1 => by
    have ih := clzOf_le v m
    rw [clzOf]; split <;> omega

/-- The bits that `clzOf` counts are 0: below them an m-bit number has m - k bits. -/
theorem lt_two_pow_clzOf (v : Nat) : ∀ m, v < 2 ^ m → v < 2 ^ (m - clzOf m v)
  | 0, h => h
  | m + 1, h => by
    rw [clzOf]
    split
    · exact h
    case isFalse hbit =>
      have hlt : v < 2 ^ m := by
        by_contra hge
        have hq : v / 2 ^ m = 1 := by
          rw [Nat.div_eq_iff (Nat.two_pow_pos m)]; rw [Nat.pow_succ] at h; omega
        exact hbit (by rw [hq])
      have hk : m + 1 - (1 + clzOf m v) = m - clzOf m v := by omega
      rw [hk]
      exact lt_two_pow_clzOf v m hlt

/-- The bit below those that `clzOf` counts is 1. -/
theorem two_pow_clzOf_le (v : Nat) : ∀ m, clzOf m v < m → 2 ^ (m - 1 - clzOf m v) ≤ v
  | 0, h => absurd h (Nat.not_lt_zero _)
  | m + 1, h => by
    rw [clzOf] at h ⊢
    split
    case isTrue hbit =>
      by_contra hlt
      rw [Nat.div_eq_of_lt (by simpa using hlt)] at hbit
      exact absurd hbit (by decide)
    case isFalse hbit =>
      rw [if_neg hbit] at h
      have hk : m + 1 - 1 - (1 + clzOf m v) = m - 1 - clzOf m v := by omega
      rw [hk]
      exact two_pow_clzOf_le v m (by omega)

theorem ctzOf_le : ∀ m v, ctzOf m v ≤ m
  | 0, _ => Nat.le_refl 0
  | m + 1, v => by
    have ih := ctzOf_le m (v / 2)
    rw [ctzOf]; split <;> omega

/-- The bits that `ctzOf` counts are 0. -/
theorem testBit_of_lt_ctzOf : ∀ m v j, j < ctzOf m v → v.testBit j = false
  | 0, _, _, h => absurd h (Nat.not_lt_zero _)
  | m + 1, v, j, h => by
    rw [ctzOf] at h
    split at h
    · exact absurd h (Nat.not_lt_zero _)
    case isFalse hbit =>
      cases j with
      | zero => simpa [Nat.testBit_zero] using hbit
      | succ j => rw [Nat.testBit_succ]; exact testBit_of_lt_ctzOf m (v / 2) j (by omega)

/-- The bit above those that `ctzOf` counts is 1. -/
theorem testBit_ctzOf : ∀ m v, ctzOf m v < m → v.testBit (ctzOf m v) = true
  | 0, _, h => absurd h (Nat.not_lt_zero _)
  | m + 1, v, h => by
    rw [ctzOf] at h ⊢
    split
    case isTrue hbit => simpa [Nat.testBit_zero] using hbit
    case isFalse hbit =>
      rw [if_neg hbit] at h
      rw [Nat.add_comm 1, Nat.testBit_succ]
      exact testBit_ctzOf m (v / 2) (by omega)

/-- `popCount` counts the positions of the bits that are 1. -/
theorem popCount_eq_length_filter : ∀ m v, popCount m v = ((List.range m).filter (fun j => v.testBit j)).length
  | 0, _ => rfl
  | m + 1, v => by
    have hmap : ((List.range m).map Nat.succ).filter (fun j => v.testBit j)
        = ((List.range m).filter (fun j => (v / 2).testBit j)).map Nat.succ := by
      simp only [List.filter_map, Function.comp_def, Nat.testBit_succ]
    rw [popCount, popCount_eq_length_filter m (v / 2), List.range_succ_eq_map, List.filter_cons, hmap, Nat.testBit_zero]
    rcases Nat.mod_two_eq_zero_or_one v with h | h <;> simp [h, Nat.add_comm]

/-- Settles O1: every form is `rrRun` or `rrOne` of its function, and the counts are the bits that `clzOf`, `ctzOf` and `popCount` count. -/
theorem falganAluResults : Obligations.FalganAluResults := by
  unfold Obligations.FalganAluResults
  intro s n gd ga gb h a b does
  have hrr (fn : Nat) {v : Word → Word → Word} {r : Word} := rrRun_retires (v := v) (r := r) h 0 gd ga gb fn
  have hone (fn : Nat) (v : Word → Nat) := rrOne_retires h gd ga fn v
  simp only [does, exec_add, exec_sub, exec_and, exec_or, exec_xor, exec_sll, exec_srl, exec_sra, exec_slt, exec_sltu, exec_clz, exec_ctz,
    exec_popc]
  refine ⟨hrr 1 rfl, hrr 2 rfl, hrr 3 rfl, hrr 4 rfl, hrr 5 rfl, hrr 6 ?sll, hrr 7 ?srl, hrr 8 ?sra, hrr 9 (boolWord_slt a b),
    hrr 0xA (boolWord_ult a b), ?clz, ?ctz, ?popc, ?illegal⟩
  case sll => rw [fld_shiftCount]
  case srl => rw [fld_shiftCount]
  case sra => rw [fld_shiftCount]
  case clz =>
    exact ⟨clzOf 64 a.toNat, hone 0xB _, clzOf_le _ 64, lt_two_pow_clzOf _ 64 a.isLt, two_pow_clzOf_le _ 64⟩
  case ctz =>
    exact ⟨ctzOf 64 a.toNat, hone 0xC _, ctzOf_le 64 _, testBit_of_lt_ctzOf 64 _, testBit_ctzOf 64 _⟩
  case popc =>
    have hp := hone 0xD fun a => popCount 64 a.toNat
    rw [popCount_eq_length_filter] at hp
    exact hp
  case illegal =>
    intro hb hd p hp
    have hill (fn : Nat) (v : Word → Nat) := rrOne_illegal h hd (Fin.val_ne_of_ne hb) gd ga fn v
    simp only [List.mem_cons, List.not_mem_nil, or_false] at hp
    rcases hp with rfl | rfl | rfl
    · rw [exec_clz]; exact hill 0xB _
    · rw [exec_ctz]; exact hill 0xC _
    · rw [exec_popc]; exact hill 0xD _

/-! ### Multiply and divide: the values (R263) -/

/-- A number that fits 64 signed bits is the value of its word. -/
theorem toInt_intWord {i : Int} (hl : -2 ^ 63 ≤ i) (hu : i < 2 ^ 63) : (intWord i).toInt = i :=
  BitVec.toInt_ofInt_eq_self (by decide) hl hu

/-- A number below 2^64 is the value of its word. -/
theorem toNat_word {k : Nat} (h : k < 2 ^ 64) : (word k).toNat = k := Nat.mod_eq_of_lt h

/-- MULHU and MUL are the two halves of the unsigned product. -/
theorem toNat_mul_eq_high_low (a b : Word) :
    a.toNat * b.toNat = (word (a.toNat * b.toNat / 2 ^ 64)).toNat * 2 ^ 64 + (a * b).toNat := by
  have hlt : a.toNat * b.toNat < 2 ^ 64 * 2 ^ 64 := Nat.mul_lt_mul'' a.isLt b.isLt
  rw [toNat_word (Nat.div_lt_of_lt_mul hlt), BitVec.toNat_mul]
  exact (Nat.div_add_mod' _ _).symm

/-- MULHS and MUL are the two halves of the signed product. -/
theorem toInt_mul_eq_high_low (a b : Word) :
    a.toInt * b.toInt = (intWord (Int.fdiv (a.toInt * b.toInt) (2 ^ 64))).toInt * 2 ^ 64 + (a * b).toNat := by
  have hl : -2 ^ 126 ≤ a.toInt * b.toInt := BitVec.le_toInt_mul_toInt
  have hu : a.toInt * b.toInt ≤ 2 ^ 126 := BitVec.toInt_mul_toInt_le
  have hlow : ((a * b).toNat : Int) = a.toInt * b.toInt % 2 ^ 64 := by
    have hmul : BitVec.ofInt 64 (a.toInt * b.toInt) = a * b := by
      rw [BitVec.ofInt_mul, BitVec.ofInt_toInt, BitVec.ofInt_toInt]
    rw [← hmul, BitVec.toNat_ofInt]
    exact Int.toNat_of_nonneg (Int.emod_nonneg _ (by decide))
  rw [Int.fdiv_eq_ediv_of_nonneg _ (by decide), toInt_intWord (by omega) (by omega), hlow]
  exact (Int.ediv_mul_add_emod _ _).symm

/-- An unsigned quotient and remainder are themselves as words. -/
theorem toNat_divu_remu (a b : Word) (hb : b ≠ 0) :
    a.toNat = (word (a.toNat / b.toNat)).toNat * b.toNat + (word (a.toNat % b.toNat)).toNat
      ∧ (word (a.toNat % b.toNat)).toNat < b.toNat := by
  have hpos : 0 < b.toNat := BitVec.toNat_pos_of_ne_zero hb
  rw [toNat_word (Nat.lt_of_le_of_lt (Nat.div_le_self _ _) a.isLt),
    toNat_word (Nat.lt_of_le_of_lt (Nat.mod_le _ _) a.isLt)]
  exact ⟨(Nat.div_add_mod' _ _).symm, Nat.mod_lt _ hpos⟩

/-- The signed quotient of the model is that of a bit vector where the divisor is not 0. -/
theorem divsOf_eq_sdiv (a b : Word) (hb : b ≠ 0) : divsOf a b = a.sdiv b := by
  rw [divsOf, if_neg hb]
  exact BitVec.eq_of_toInt_eq (by rw [intWord, BitVec.toInt_ofInt, BitVec.toInt_sdiv])

/-- The signed remainder of the model is that of a bit vector where the divisor is not 0. -/
theorem remsOf_eq_srem (a b : Word) (hb : b ≠ 0) : remsOf a b = a.srem b := by
  rw [remsOf, if_neg hb, ← BitVec.toInt_srem]
  exact BitVec.ofInt_toInt

/-- The most negative number by -1: the quotient does not fit and wraps, the remainder is 0. -/
theorem divs_rems_overflow {a b : Word} (hb : b ≠ 0) (h : a.toInt = -2 ^ 63 ∧ b.toInt = -1) :
    (divsOf a b).toInt = -2 ^ 63 ∧ remsOf a b = 0 := by
  obtain ⟨ha, hb'⟩ := h
  rw [divsOf, if_neg hb, remsOf, if_neg hb, ha, hb']
  decide

/-- Every other signed quotient fits a word. -/
theorem toInt_divsOf {a b : Word} (hb : b ≠ 0) (h : ¬ (a.toInt = -2 ^ 63 ∧ b.toInt = -1)) :
    (divsOf a b).toInt = Int.tdiv a.toInt b.toInt := by
  rw [divsOf_eq_sdiv a b hb]
  refine BitVec.toInt_sdiv_of_ne_or_ne a b (not_and_or.1 fun ⟨ha, hb'⟩ => h ?_)
  subst ha hb'
  decide

theorem toInt_remsOf {a b : Word} (hb : b ≠ 0) : (remsOf a b).toInt = Int.tmod a.toInt b.toInt := by
  rw [remsOf_eq_srem a b hb, BitVec.toInt_srem]

/-- A remainder of a division that rounds toward 0 has no sign that the dividend does not have. -/
theorem tmod_nonpos {i : Int} (j : Int) (h : i ≤ 0) : Int.tmod i j ≤ 0 := by
  have hneg := Int.tmod_nonneg j (Int.neg_nonneg_of_nonpos h)
  rw [Int.neg_tmod] at hneg
  omega

/-- The signed quotient and remainder where the quotient fits: the quotient rounds toward 0, the remainder has the sign of a. -/
theorem divs_rems_of_fits {a b : Word} (hb : b ≠ 0) (h : ¬ (a.toInt = -2 ^ 63 ∧ b.toInt = -1)) :
    a.toInt = (divsOf a b).toInt * b.toInt + (remsOf a b).toInt ∧ (remsOf a b).toInt.natAbs < b.toInt.natAbs
      ∧ (0 ≤ a.toInt → 0 ≤ (remsOf a b).toInt) ∧ (a.toInt ≤ 0 → (remsOf a b).toInt ≤ 0) := by
  have hb0 : b.toInt ≠ 0 := BitVec.toInt_ne.2 hb
  rw [toInt_divsOf hb h, toInt_remsOf hb, Int.natAbs_tmod]
  exact ⟨(Int.tdiv_mul_add_tmod _ _).symm, Nat.mod_lt _ (Int.natAbs_pos.2 hb0), Int.tmod_nonneg _, tmod_nonpos _⟩

/-- Settles O3: every form is `rrRun` of its function; the products are the halves of the whole product, the quotients and remainders those of
division on the numbers. -/
theorem falganMultiplyDivideResults : Obligations.FalganMultiplyDivideResults := by
  unfold Obligations.FalganMultiplyDivideResults
  intro s n gd ga gb h a b does
  have hrr (fn : Nat) {v : Word → Word → Word} {r : Word} := rrRun_retires (v := v) (r := r) h 0x10 gd ga gb fn
  simp only [does, exec_mul, exec_mulhu, exec_mulhs, exec_divu, exec_remu, exec_divs, exec_rems]
  refine ⟨?products, ?zero, ?unsigned, ?signed⟩
  case products =>
    exact ⟨_, _, _, hrr 1 rfl, hrr 2 rfl, hrr 3 rfl, toNat_mul_eq_high_low a b, toInt_mul_eq_high_low a b⟩
  case zero =>
    intro hb
    exact ⟨hrr 4 (if_pos hb), hrr 6 (if_pos hb), hrr 5 (if_pos hb), hrr 7 (if_pos hb)⟩
  case unsigned =>
    intro hb
    exact ⟨_, _, hrr 4 (if_neg hb), hrr 6 (if_neg hb), toNat_divu_remu a b hb⟩
  case signed =>
    intro hb
    exact ⟨_, _, hrr 5 rfl, hrr 7 rfl, divs_rems_overflow hb, divs_rems_of_fits hb⟩

end Sys2Proof.Proofs
end
